-- ==== Sys2Proof/Word.lean ====
section
/-! DEFINITION. The plain data types every file uses: bytes, words and the sparse map in one canonical form. -/

namespace Sys2Proof

/-- One byte (R7: byte 0 of a multi-byte field holds bits 7 to 0). -/
abbrev Byte := BitVec 8
/-- A 16-bit word. -/
abbrev W16 := BitVec 16
/-- A 32-bit word: a register of the ordinary width (R9), an instruction word (R105) or an FP32 value (R25). -/
abbrev W32 := BitVec 32
/-- A 64-bit word: a general register (R104), a 64-bit register (R9). -/
abbrev W64 := BitVec 64
/-- A 46-bit device address (R6, R246). -/
abbrev Addr := BitVec 46
/-- A logical core id of 10 bits (R5). -/
abbrev CoreId := BitVec 10
/-- A stack number (R4). -/
abbrev StackId := BitVec 4

/-- A sparse map: keys strictly rising, no entry equal to what an unlisted key reads as. -/
abbrev SMap (α : Type) := List (Nat × α)

end Sys2Proof
end

