-- ==== Sys2Proof/Syntax.lean ====
section
/-! DEFINITION. The commands of the block, one constructor for each row of the opcode table, and their operands. -/

namespace Sys2Proof

/-- Who makes a register access (R9): each control core, the host window, debug, the warden and each steward. -/
inductive Requester where
  | core (c : CoreId)
  | host
  | debug
  | warden
  | steward (s : StackId)
  deriving DecidableEq, Repr

/-- Two accesses of one exchange-window word in one cycle (R90), of which the command makes one: the bank word, whether both
wrote, the port that came later and the port that read (true for B), and the tag of the bulk operation at port A where the
command's own access is port B's, 0 where that access is no bulk operation's. -/
structure Collision where
  word : BitVec 13
  bothWrite : Bool
  lateB : Bool
  readerB : Bool
  tagA : W16
  deriving DecidableEq, Repr

/-- What physics has done to a memory or a slow channel since the last step: the errors that R66, R85, R271, R279 and R281
find, and what R264's controller meets.
`sp`: one flipped bit 0 to 71 of a scratchpad unit of 8 bytes; `fast`, `slow`: a byte of a stored word or line (data
bytes 0 to 63, check bytes above) XORed; `slowPoison`: a line's bit in POISON_A or, with `b`, POISON_B flipped;
`acc`: the parity of an accumulator entry made wrong; `haulRetry`: half-rows of a core's haul sent again (R249); `tile`: a bit of
a stationary element, column × 32 + k, flipped in an
engine's buffer A or B; `icache`: the parity of a cached instruction line made wrong; `collide`: the command's own access of
a scratchpad collides in the exchange window; `slowRetry`: a write on a slow channel that failed its CRC and was sent
again; `slowRate`: the refresh-rate code that mode register 4 of a channel's DRAM gave. -/
inductive Upset where
  | sp (c : CoreId) (off : BitVec 21) (bit : BitVec 7)
  | fast (a : Addr) (byte : BitVec 7) (xor : Byte)
  | slow (a : Addr) (byte : BitVec 7) (xor : Byte)
  | slowPoison (a : Addr) (b : Bool)
  | acc (c : CoreId) (eng : Bool) (lane : BitVec 6) (depth : BitVec 9)
  | tile (c : CoreId) (eng bufB : Bool) (elem : BitVec 11) (bit : BitVec 5)
  | icache (c : CoreId) (line : Nat)
  | collide (x : Collision)
  | haulRetry (c : CoreId) (halfRows : Nat)
  | slowRetry (s : StackId)
  | slowRate (s : StackId) (code : BitVec 5)
  deriving DecidableEq, Repr

/-- The fields of a bulk instruction's two words other than opcode and mode (R129): wait token, signal token, unit
flags (bit 3 is FWD, R131), descriptors A, B and D and the op-specific field. -/
structure BulkWord where
  wait : BitVec 4
  signal : BitVec 4
  flags : BitVec 4
  a : BitVec 4
  b : BitVec 4
  d : BitVec 4
  op : BitVec 20
  deriving DecidableEq, Repr

/-- A mismatch the engine's checkers find in one block step (R65 to R67): an adder mismatch or a residue mismatch, the
streamed row, the block index in the row, the failing sum paths, and in transposed orientation the column group that the
mismatch is counted for. -/
structure StepFault where
  adder : Bool
  row : Nat
  block : Nat
  paths : BitVec 16
  group : BitVec 3
  deriving DecidableEq, Repr

/-- What physics does to an operation while it runs: upsets, a mismatch of the engine, a parity error of the vector
unit in a row (R164), and collisions in the exchange window. -/
structure RunFaults where
  upsets : List Upset
  step : Option StepFault
  vuRow : Option Nat
  collide : List Collision
  deriving DecidableEq, Repr

/-- A mismatch in an operation of the update unit on a lent engine (R349): the place of the core among the cores lent, its engine,
the mismatch, and whether the replay meets it again. -/
structure LentFault where
  lend : Nat
  engine : Bool
  step : StepFault
  again : Bool
  deriving DecidableEq, Repr

/-- A packet as it crosses a Bilo port (R366, R367): the header's fields and the data flits, each with its poison flag.
`len`: the bytes a read request asks
for; `pieces`: the places of the bytes, the first at ADDR; `unit`, `final`: the contribution that an accumulate or merge packet is
part of, and whether it is the last part. `crcOk` says whether the CRC-32C at the destination passes (R368). -/
structure BiloPacket where
  typ : Nat
  cls : Nat
  dst : BitVec 14
  src : BitVec 14
  srcCore : CoreId
  tag : W16
  addr : Addr
  gen : Byte
  contrib : BitVec 6
  sat : Bool
  fmt : Nat
  status : Nat
  barrow : BitVec 12
  segment : BitVec 14
  scale : Byte
  subtype : Nat
  max : W32
  data : List Byte
  poison : List Bool
  len : Nat
  pieces : List (Nat × Nat)
  unit : Addr
  final : Bool
  crcOk : Bool
  deriving DecidableEq, Repr

/-- A FEC codeword as the receiver meets it (R364, R365): whether it could be corrected and was in need of correction,
its link word and whether its flits are idle. -/
structure Codeword where
  intact : Bool
  corrected : Bool
  seq : BitVec 9
  ack : BitVec 9
  nak : Bool
  idle : Bool
  deriving DecidableEq, Repr

/-- A PCI Express configuration request (R390, R451). -/
structure ConfigReq where
  tag : Nat
  write : Bool
  offset : BitVec 12
  value : W32
  deriving DecidableEq, Repr

/-- A packet that arrives, by its number, and the upsets that its way into memory meets. -/
structure Arrival where
  packet : Nat
  ups : List Upset
  deriving DecidableEq, Repr

/-- What a physical core that serves no logical core tries to send (R239): at its local port, at its crier node, or past these by a
fault, from a port with the SRC and SEPOCH it shows. -/
inductive RetiredSend where
  | localPort
  | crierNode
  | past (port : BitVec 2) (src : CoreId) (sepoch : Byte)
  deriving DecidableEq, Repr

/-- What wakes the module from Rest (R407). -/
inductive WakeTrigger where
  | hostAccess
  | d0
  | bilo
  | source
  deriving DecidableEq, Repr

/-- The small memories that the start-up test covers (R287). -/
inductive SmallMemory where
  | scratchpad | accumulator | stationary | icache | tally | niBuffer | router
  | crierBuffer | remapTable | reservedCache | openWrites | warden
  deriving DecidableEq, Repr

/-- Whether a small memory belongs to a core; the others are a base die's. -/
def SmallMemory.ofCore : SmallMemory → Bool
  | .scratchpad | .accumulator | .stationary | .icache | .tally | .niBuffer | .router => true
  | .crierBuffer | .remapTable | .reservedCache | .openWrites | .warden => false

/-- Which pair, bank or channel a bring-up test finds failing (R287, R455): results the tests deliver. -/
structure TestResults where
  coolantFlow : Nat                       -- centilitres per minute
  baseDies : List Nat                     -- stacks whose base die fails a test
  edgeLinks : List (Nat × Nat × Nat)      -- stack, physical index, port of links that do not train
  channels : List Nat                     -- stacks whose LPDDR5X channel does not train
  rows : List (Nat × Nat × Nat × Nat × Nat)  -- stack, physical index, bench, bank, row failing
  ports : List Nat                        -- Bilo ports that train
  partners : List (Nat × Nat × Bool)      -- port, partner id, partner is a switch
  cores : List (Nat × Nat)                -- stack, physical index of cores or hauls that fail step 4
  groups : List (Nat × Nat × Nat × Nat)   -- stack, physical index, engine, column group failing
  memories : List (SmallMemory × Nat × Nat)  -- small memories that fail R287's test: stack, physical index
  retention : List (Nat × Nat × Nat × Nat × Nat)  -- rows that the retention test of a full start finds (R456), named as above
  deriving DecidableEq, Repr

/-- What a vault controller counts of a bench of its vault in 1 ms (R438). -/
structure BenchWork where
  bench : Nat
  vault : Nat
  rowCycles : Nat
  refreshes : Nat
  steps : Nat                             -- row-logic steps
  beuRows : Nat                           -- rows consumed by the bank-edge unit
  deriving DecidableEq, Repr

/-- Sensor readings of one stack at one evaluation (R426, R437, R438), in the units of R444; sensors that are not named read zero. -/
structure StackSensors where
  cores : List (Nat × Int)                -- logical core of the stack (c mod 64), temperature in 0.25 °C
  benches : List (Nat × Nat × Int)        -- bench, position, temperature
  work : List BenchWork
  vlg : List (Nat × Nat)                  -- VLG sensors: physical core row × 9 + column, mV
  vma : List Nat                          -- mV of the base-die sensors of the domain that a regulator feeds
  vmi : List Nat
  vlk : List Nat
  deriving DecidableEq, Repr

/-- Electrical readings (R431, R444, R517): input power average in mW, input voltage and VAUX12 in mV, domain currents in
units of 10 mA. -/
structure PowerReadings where
  inputAvg : Nat
  over1500 : Bool                         -- input power has exceeded 1,500 W for 100 µs
  inputMv : Nat
  vauxMv : Nat
  currents : List (Nat × Nat)             -- domain, current
  deriving DecidableEq, Repr

/-- Coolant readings (R436): inlet and outlet in 0.25 °C, flow in 0.01 L/min, pressure drop in 0.1 kPa. -/
structure CoolantReadings where
  inlet : Int
  outlet : Int
  flow : Nat
  drop : Nat
  deriving DecidableEq, Repr

/-- What the warden finds when it boots (R451, R480 to R487): the bit errors of the PUF response in each of its 128-bit groups, and the
link the PCI Express partner trained with (R390). `ends` is false where the boot has only begun: PERST# is deasserted and the endpoint
presented (R500). -/
structure BootFinds where
  ends : Bool
  pufErrors : List Nat
  speed : BitVec 3
  flit : Bool
  width : BitVec 4
  deriving DecidableEq, Repr

/-- What the stacks of a reset find when they train again (R474): Bilo ports that come up, edge links and channels that do not. -/
structure Retrained where
  ports : List Nat
  links : List (Nat × Nat × Nat)          -- stack, physical index, port
  channels : List Nat                     -- stacks
  deriving DecidableEq, Repr

/-- A power input that leaves its range or comes back into it (R499, R500). -/
inductive InputEvent where
  | low            -- 54 V between 44 V and 46 V
  | high           -- 54 V between 60 V and 62 V
  | under          -- 54 V below 44 V
  | aboveMax       -- 54 V above 62 V
  | vaux           -- VAUX12 below 10.8 V
  | back           -- 54 V returns to its operating range
  | vauxBack       -- VAUX12 applied again, with PERST# asserted
  | pwrgd          -- PWRGD_IN asserted, both inputs in range
  deriving DecidableEq, Repr

/-- A request of the management bus (R505, R506): its SMBus target address, MCTP control or PLDM, with its command code and whether it would
change the module's state. `sensor` names a numeric sensor by its byte offset and length in the telemetry frame, or a
state sensor; `eid` is the endpoint ID that the bus owner assigns. -/
structure BusRequest where
  tag : Nat
  address : BitVec 7
  eid : Byte
  command : Nat
  changesState : Bool
  sensor : Nat
  length : Nat
  deriving DecidableEq, Repr

/-- What a reduction forwarder is answered (R380, R381): the barrow, generation and segment, whether the write was the
RESULT write, and the status of R187. -/
structure ForwarderAnswer where
  barrow : BitVec 12
  gen : Byte
  segment : BitVec 14
  toResult : Bool
  status : Nat
  port : Nat
  deriving DecidableEq, Repr

/-- The commands. Each constructor's row of the opcode table is named in LAWS.json. Control-core commands carry the
logical core that executes them and every field of their encoding, so that a form the tables forbid can trap. -/
inductive Instr where
  -- registers (R9 to R12)
  | registerWrite (req : Requester) (addr : Addr) (size : Nat) (value : W64)
  -- ALU (R108)
  | add (c : CoreId) (rd ra rb : BitVec 5)
  | sub (c : CoreId) (rd ra rb : BitVec 5)
  | and (c : CoreId) (rd ra rb : BitVec 5)
  | or (c : CoreId) (rd ra rb : BitVec 5)
  | xor (c : CoreId) (rd ra rb : BitVec 5)
  | sll (c : CoreId) (rd ra rb : BitVec 5)
  | srl (c : CoreId) (rd ra rb : BitVec 5)
  | sra (c : CoreId) (rd ra rb : BitVec 5)
  | slt (c : CoreId) (rd ra rb : BitVec 5)
  | sltu (c : CoreId) (rd ra rb : BitVec 5)
  | min (c : CoreId) (rd ra rb : BitVec 5)
  | max (c : CoreId) (rd ra rb : BitVec 5)
  | minu (c : CoreId) (rd ra rb : BitVec 5)
  | maxu (c : CoreId) (rd ra rb : BitVec 5)
  | mul (c : CoreId) (rd ra rb : BitVec 5)
  | mulh (c : CoreId) (rd ra rb : BitVec 5)
  | mulhu (c : CoreId) (rd ra rb : BitVec 5)
  | div (c : CoreId) (rd ra rb : BitVec 5)
  | divu (c : CoreId) (rd ra rb : BitVec 5)
  | rem (c : CoreId) (rd ra rb : BitVec 5)
  | remu (c : CoreId) (rd ra rb : BitVec 5)
  | clz (c : CoreId) (rd ra rb : BitVec 5)
  | ctz (c : CoreId) (rd ra rb : BitVec 5)
  | popc (c : CoreId) (rd ra rb : BitVec 5)
  -- immediate forms (R107)
  | addi (c : CoreId) (rd ra : BitVec 5) (imm : W16)
  | andi (c : CoreId) (rd ra : BitVec 5) (imm : W16)
  | ori (c : CoreId) (rd ra : BitVec 5) (imm : W16)
  | xori (c : CoreId) (rd ra : BitVec 5) (imm : W16)
  | slti (c : CoreId) (rd ra : BitVec 5) (imm : W16)
  | sltiu (c : CoreId) (rd ra : BitVec 5) (imm : W16)
  | shi (c : CoreId) (rd ra : BitVec 5) (imm : W16)
  | lui (c : CoreId) (rd ra : BitVec 5) (imm : W16)
  | shori (c : CoreId) (rd ra : BitVec 5) (imm : W16)
  -- loads and stores (R109 to R112)
  | lb (c : CoreId) (rd ra : BitVec 5) (imm : W16) (ups : List Upset)
  | lbu (c : CoreId) (rd ra : BitVec 5) (imm : W16) (ups : List Upset)
  | lh (c : CoreId) (rd ra : BitVec 5) (imm : W16) (ups : List Upset)
  | lhu (c : CoreId) (rd ra : BitVec 5) (imm : W16) (ups : List Upset)
  | lw (c : CoreId) (rd ra : BitVec 5) (imm : W16) (ups : List Upset)
  | lwu (c : CoreId) (rd ra : BitVec 5) (imm : W16) (ups : List Upset)
  | ld (c : CoreId) (rd ra : BitVec 5) (imm : W16) (ups : List Upset)
  | sb (c : CoreId) (rd ra : BitVec 5) (imm : W16) (ups : List Upset)
  | sh (c : CoreId) (rd ra : BitVec 5) (imm : W16) (ups : List Upset)
  | sw (c : CoreId) (rd ra : BitVec 5) (imm : W16) (ups : List Upset)
  | sd (c : CoreId) (rd ra : BitVec 5) (imm : W16) (ups : List Upset)
  -- branches and jumps (R107)
  | beq (c : CoreId) (ra rb : BitVec 5) (off : W16)
  | bne (c : CoreId) (ra rb : BitVec 5) (off : W16)
  | blt (c : CoreId) (ra rb : BitVec 5) (off : W16)
  | bge (c : CoreId) (ra rb : BitVec 5) (off : W16)
  | bltu (c : CoreId) (ra rb : BitVec 5) (off : W16)
  | bgeu (c : CoreId) (ra rb : BitVec 5) (off : W16)
  | jal (c : CoreId) (rd ra : BitVec 5) (imm : W16)
  | jalr (c : CoreId) (rd ra : BitVec 5) (imm : W16)
  -- state registers and descriptors (R116, R117)
  | mfs (c : CoreId) (rd ra : BitVec 5) (imm : W16)
  | mts (c : CoreId) (rd ra : BitVec 5) (imm : W16)
  | tdw (c : CoreId) (rd ra : BitVec 5) (imm : W16)
  | tdr (c : CoreId) (rd ra : BitVec 5) (imm : W16)
  -- tokens (R118); `mid` is imm bits 11 to 4
  | tinc (c : CoreId) (rd ra : BitVec 5) (mid : Byte) (t : BitVec 4)
  | twait (c : CoreId) (rd ra : BitVec 5) (mid : Byte) (t : BitVec 4)
  | ttry (c : CoreId) (rd ra : BitVec 5) (mid : Byte) (t : BitVec 4)
  | tread (c : CoreId) (rd ra : BitVec 5) (mid : Byte) (t : BitVec 4)
  | tsend (c : CoreId) (rd ra : BitVec 5) (mid : Byte) (t : BitVec 4)
  | tset (c : CoreId) (rd ra : BitVec 5) (mid : Byte) (t : BitVec 4)
  -- system (R124)
  | eret (c : CoreId) (rd ra rb : BitVec 5)
  | ecall (c : CoreId) (rd ra rb : BitVec 5)
  | brk (c : CoreId) (rd ra rb : BitVec 5)
  | fence (c : CoreId) (rd ra rb : BitVec 5)
  | ifence (c : CoreId) (rd ra rb : BitVec 5)
  | wfi (c : CoreId) (rd ra rb : BitVec 5)
  | halt (c : CoreId) (rd ra rb : BitVec 5)
  | interruptEntry (c : CoreId)
  | icacheMissFill (c : CoreId) (ups : List Upset)
  -- bulk instructions (R130, R166)
  | sld (c : CoreId) (mode : Byte) (w : BulkWord)
  | mma (c : CoreId) (mode : Byte) (w : BulkWord)
  | ard (c : CoreId) (mode : Byte) (w : BulkWord)
  | vopCopy (c : CoreId) (w : BulkWord)
  | vopAdd (c : CoreId) (w : BulkWord)
  | vopSub (c : CoreId) (w : BulkWord)
  | vopMul (c : CoreId) (w : BulkWord)
  | vopMax (c : CoreId) (w : BulkWord)
  | vopMin (c : CoreId) (w : BulkWord)
  | vopFma (c : CoreId) (w : BulkWord)
  | vopCmplt (c : CoreId) (w : BulkWord)
  | vopCmple (c : CoreId) (w : BulkWord)
  | vopCmpeq (c : CoreId) (w : BulkWord)
  | vopSel (c : CoreId) (w : BulkWord)
  | vopDiv (c : CoreId) (w : BulkWord)
  | vopSqrt (c : CoreId) (w : BulkWord)
  | vopExp2 (c : CoreId) (w : BulkWord)
  | vopLog2 (c : CoreId) (w : BulkWord)
  | vopRcp (c : CoreId) (w : BulkWord)
  | vopRsqrt (c : CoreId) (w : BulkWord)
  | vopExp (c : CoreId) (w : BulkWord)
  | vopAbs (c : CoreId) (w : BulkWord)
  | vopNeg (c : CoreId) (w : BulkWord)
  | vredSum (c : CoreId) (w : BulkWord)
  | vredMax (c : CoreId) (w : BulkWord)
  | vredMin (c : CoreId) (w : BulkWord)
  | vredSumsq (c : CoreId) (w : BulkWord)
  | vredAbsmax (c : CoreId) (w : BulkWord)
  | cvt (c : CoreId) (mode : Byte) (w : BulkWord)
  | sms (c : CoreId) (mode : Byte) (w : BulkWord)
  | topk (c : CoreId) (mode : Byte) (w : BulkWord)
  | hmov (c : CoreId) (mode : Byte) (w : BulkWord)
  | smov (c : CoreId) (mode : Byte) (w : BulkWord)
  | nsend (c : CoreId) (mode : Byte) (w : BulkWord)
  | nrecv (c : CoreId) (mode : Byte) (w : BulkWord)
  | rwr (c : CoreId) (mode : Byte) (w : BulkWord)
  | rrd (c : CoreId) (mode : Byte) (w : BulkWord)
  | racc (c : CoreId) (mode : Byte) (w : BulkWord)
  | rmrg (c : CoreId) (mode : Byte) (w : BulkWord)
  | tsig (c : CoreId) (mode : Byte) (w : BulkWord)
  | nbd (c : CoreId) (mode : Byte) (w : BulkWord)
  | udd (c : CoreId) (mode : Byte) (w : BulkWord)
  -- life of an operation in the tally (R199 to R215); `q` a queue of R77, `slot` a tally slot
  | bulkStart (c : CoreId) (q : Nat) (f : RunFaults)
  | bulkComplete (c : CoreId) (slot : BitVec 9)
  | settle (c : CoreId) (slot : BitVec 9)
  | replay (c : CoreId) (slot : BitVec 9) (f : RunFaults)
  | replayWaitExpiry (c : CoreId) (slot : BitVec 9)
  | poisonRepair (c : CoreId) (slot : BitVec 9)
  | tallyFailedClear (req : Requester) (c : CoreId)
  | spStarveLimit (c : CoreId)
  | coreClear (c : CoreId)
  -- crier messages in flight (R242); `i` is the message's place among those in flight
  | tokenIncrement (i : Nat)
  | interruptToWarden (i : Nat)
  | settleNotice (i : Nat)
  | faultNotice (i : Nat)
  | mapUpdate (i : Nat)
  | resetEnded (i : Nat)
  | reductionRestart (i : Nat)
  | bringupCommand (i : Nat)
  | biloRelay (i : Nat)
  -- packets in flight (R226 to R236); `i` is the packet's number
  | packetHop (i : Nat) (repeats : List Nat)
  | retiredInjection (s : StackId) (phys : Nat) (what : RetiredSend)
  | planMerge (c : CoreId) (m : BitVec 4)
  | sendPacket (a : Arrival)
  | remoteWrite (i : Nat) (ups : List Upset)
  | readRequest (i : Nat) (ups : List Upset)
  | readData (a : Arrival)
  | accumulate (i : Nat) (ups : List Upset)
  | merge (i : Nat) (ups : List Upset)
  | status (a : Arrival)
  | recvWaitLimit (c : CoreId) (channel : Byte)
  | linkDown (s : StackId) (phys : Nat) (port : BitVec 2)
  | detourInstall (s : StackId) (phys : Nat) (port : BitVec 2)
  | mapCommand (req : Requester) (value : W32)
  | mapChangeEnd
  -- vaults and the slow tier (R249 to R286)
  | haulDown (s : StackId) (v : BitVec 6)
  | refreshSlot (s : StackId) (v : BitVec 6) (bench : BitVec 4) (bank : BitVec 3)
  | vcRepair (req : Requester) (s : StackId) (v : BitVec 6) (value : W32) (ups : List Upset)
  | vcClear (req : Requester) (s : StackId) (v : BitVec 6) (value : W32)
  | slowChannelDown (s : StackId)
  | slowClear (req : Requester) (s : StackId)
  | writeBack (slow : Bool) (a : Addr)
  | scrubRow (s : StackId) (v : BitVec 6) (slow : Bool) (ups : List Upset)
  | scrubPassLate (s : StackId)
  -- near-bank computing (R294 to R316)
  | nbModeEnable (req : Requester) (s : StackId) (v : BitVec 6)
  | nbReady (s : StackId) (v : BitVec 6)
  | nbModeDisable (req : Requester) (s : StackId) (v : BitVec 6)
  | nbDrainEnd (s : StackId) (v : BitVec 6)
  | nbCopy (s : StackId) (v : BitVec 6)
  | nbNot (s : StackId) (v : BitVec 6)
  | nbAnd (s : StackId) (v : BitVec 6)
  | nbOr (s : StackId) (v : BitVec 6)
  | nbXor (s : StackId) (v : BitVec 6)
  | nbMaj3 (s : StackId) (v : BitVec 6)
  | nbDot (s : StackId) (v : BitVec 6)
  | nbWsum (s : StackId) (v : BitVec 6)
  | nbPopc (s : StackId) (v : BitVec 6)
  | nbCommandStart (s : StackId) (v : BitVec 6) (bank : BitVec 7) (ups : List Upset)
  | nbCommandEnd (s : StackId) (v : BitVec 6) (bank : BitVec 7)
  | nbResultRead (req : Requester) (tag : Nat) (a : Addr)
  | rowRebuild (s : StackId) (v : BitVec 6)
  -- update unit (R344 to R360)
  | updLend (s : StackId)
  | lendEffect (c : CoreId)
  | updRelease (s : StackId)
  | updOpen (s : StackId)
  | updClose (s : StackId)
  | updDrain (s : StackId)
  | updRecon (s : StackId)
  | exactUpdate (s : StackId) (parityErrors : List Nat) (lent : Option LentFault)
  | stalledContribution (s : StackId) (v : BitVec 6)
  | updConfigWrite (req : Requester) (s : StackId) (value : W32)
  -- Bilo links and reduction (R363 to R387)
  | codewordReceive (port : BitVec 3) (w : Codeword)
  | retrain (port : BitVec 3)
  | retrainComplete (port : BitVec 3) (partner : BitVec 14) (isSwitch : Bool)
  | biloPacketArrival (port : BitVec 3) (p : BiloPacket)
  | biloIdWrite (req : Requester) (value : W32)
  | barrowOpen (req : Requester) (value : W32)
  | barrowRetire (req : Requester) (value : W32)
  | barrowExcuse (req : Requester) (value : W32)
  | forwardLocalSegment (barrow : BitVec 12) (segment : BitVec 14) (gen : Byte)
  | nodeComplete (barrow : BitVec 12) (segment : BitVec 14) (gen : Byte)
  | barrowContribution (p : BiloPacket)
  | barrowDone (p : BiloPacket)
  | barrowResend (p : BiloPacket)
  | nodeTimeout (barrow : BitVec 12) (segment : BitVec 14) (gen : Byte)
  -- host interface (R390 to R408)
  | configRequest (r : ConfigReq)
  | hostRead (tag : Nat) (bar2 : Bool) (off : Nat) (len : Nat) (ups : List Upset)
  | hostWrite (bar2 : Bool) (off : Nat) (data : List Byte) (ep : Bool) (ups : List Upset)
  | hostHoldLimit (tag : Nat)
  | doorbellTail (q : BitVec 6) (value : W32)
  | doorbellChead (q : BitVec 6) (value : W32)
  | qControlWrite (req : Requester) (q : BitVec 6) (value : W32)
  | launch (q : BitVec 6)
  | mark (q : BitVec 6)
  | launchComplete (q : BitVec 6) (index : Byte)
  | msixUnmask (v : BitVec 11)
  | restEnter (req : Requester)
  | d3hotEntry
  | restEntryEnd
  | wake (t : WakeTrigger)
  | wakeComplete
  -- interrupt controllers (R409 to R423)
  | iccClaim (req : Requester) (c : CoreId) (n : BitVec 6)
  | iccEoi (req : Requester) (c : CoreId) (n : BitVec 6)
  | iccStackReset (req : Requester) (c : CoreId)
  | iccSend (req : Requester) (c : CoreId) (n : BitVec 10)
  | iccRaise (req : Requester) (c : CoreId) (bits : W64)
  | iccPendingClear (req : Requester) (c : CoreId) (bits : W64)
  | icpClaim (req : Requester) (n : BitVec 10)
  | icpEoi (req : Requester) (n : BitVec 10)
  | icpStackReset (req : Requester)
  | icpRaise (req : Requester) (w : BitVec 4) (bits : W64)
  | icpPendingClear (req : Requester) (w : BitVec 4) (bits : W64)
  | icpFwdClear (req : Requester) (s : StackId) (bits : W64)
  -- power and thermal (R424 to R449)
  | stepEvaluation (s : StackId) (r : PowerReadings)
  | voltageUpdate (s : StackId) (r : StackSensors)
  | frequencyCommand (c : CoreId)
  | clockStretch (c : CoreId)
  | sensorRead (s : StackId) (r : StackSensors)
  | coolantRead (r : CoolantReadings)
  | thermalTrip (s : StackId) (kind : BitVec 2) (unitNo : BitVec 9) (temp : W16)
  | telemetryFrame (r : PowerReadings)
  | pwrTimeRefWrite (req : Requester) (high : W32)
  | pwrCapWrite (req : Requester) (value : W32)
  | sthmSuspectClear (req : Requester) (s : StackId) (value : W32)
  -- bring-up, repair and reset (R450 to R478)
  | packageReset
  | clocks (req : Requester) (full : Bool) (t : TestResults)
  | memory (req : Requester) (full : Bool) (t : TestResults)
  | links (req : Requester) (full : Bool) (t : TestResults)
  | cores (req : Requester) (full : Bool) (t : TestResults)
  | service (req : Requester) (full : Bool)
  | bringupStepEnd (elapsed : W16)
  | coreReset (req : Requester) (target : CoreId) (hold : Bool)
  | coreResetRelease (req : Requester)
  | stackReset (req : Requester) (s : StackId)
  | partitionReset (req : Requester) (mask : W16)
  | resetEnd (portsUp : Retrained)
  | retiredCurrentCheck (s : StackId) (phys : Nat) (above : Bool)
  | repairRecordWrite
  -- security (R479 to R496)
  | attest (req : Requester)
  | extend (req : Requester) (value : W32)
  | updateChunk (req : Requester) (value : W32) (flashFails : Bool)
  | challenge (req : Requester)
  | submit (req : Requester)
  | relock (req : Requester)
  | nonceLapse
  | debugRead (size : BitVec 2) (ups : List Upset)
  | debugWrite (size : BitVec 2) (ups : List Upset)
  | cdbgHalt (req : Requester) (c : CoreId) (halt : Bool)
  | cdbgStep (req : Requester) (c : CoreId) (ups : List Upset)
  | cdbgRegisterWrite (req : Requester) (c : CoreId) (isPc : Bool) (n : BitVec 5) (value : W64)
  -- module interface (R497 to R517) and events (R525)
  | inputOutOfRange (e : InputEvent)
  | pwrgdInDeassert
  | shutterSave (tripDuring : Bool) (holdcapDies : Bool)
  | holdcapMeasure (mv : W16) (cap : W16)
  | mctpControl (r : BusRequest)
  | pldmRequest (r : BusRequest)
  | vendorFrameRequest (r : BusRequest)
  | shutControlClear (req : Requester)
  | evtTailWrite (req : Requester) (value : W32)
  | wardenBoot (b : BootFinds)
  | registerRead (req : Requester) (tag : Nat) (addr : Addr) (size : Nat)
  | forwarderAnswer (a : ForwarderAnswer)
  | clockStretchEnd (c : CoreId)
  | vcClearEnd (s : StackId) (v : BitVec 6)
  | vcRepairEnd (s : StackId) (v : BitVec 6)
  | slowClearEnd (s : StackId)
  | retiredHaulRow (s : StackId) (phys : Nat)
  | vaux12Loss
  deriving DecidableEq, Repr

end Sys2Proof
end

