-- ==== Sys2Proof/Decode.lean ====
section
/-! DEFINITION. Words: the table of commands gives no bits, so no word spells a command of the block. The control core's
own instruction words (R105 to R108, R118, R124, R129, R130, R154, R156, R166) are encoded and decoded here for the trap
value of R125 and for the debug step of R492. -/

namespace Sys2Proof

/-- The command a word of the table's bits spells: no row of the table gives bits. -/
def decodeTableWord (_nbits _w : Nat) : Option Instr := none

/-! ### Layouts (R105, R129) -/

/-- The A form. -/
def wordA (op : Nat) (rd ra rb : BitVec 5) (fn : Nat) : W32 :=
  BitVec.ofNat 6 op ++ rd ++ ra ++ rb ++ BitVec.ofNat 11 fn
/-- The I form; the B form has ra and rb in the places of rd and ra. -/
def wordI (op : Nat) (rd ra : BitVec 5) (imm : W16) : W32 := BitVec.ofNat 6 op ++ rd ++ ra ++ imm
/-- A token operation (R118). -/
def wordT (sub : Nat) (rd ra : BitVec 5) (mid : Byte) (t : BitVec 4) : W32 :=
  BitVec.ofNat 6 0x30 ++ rd ++ ra ++ BitVec.ofNat 4 sub ++ mid ++ t
/-- Word 0 of a bulk instruction. -/
def wordB0 (op : Nat) (mode : Byte) (w : BulkWord) : W32 :=
  BitVec.ofNat 6 0x3E ++ BitVec.ofNat 6 op ++ w.wait ++ w.signal ++ w.flags ++ mode
/-- Word 1 of a bulk instruction. -/
def wordB1 (w : BulkWord) : W32 := w.a ++ w.b ++ w.d ++ w.op

/-- The fields of a bulk instruction's words. -/
def bulkWordOf (w0 w1 : W32) : BulkWord :=
  { wait := w0.extractLsb' 16 4, signal := w0.extractLsb' 12 4, flags := w0.extractLsb' 8 4, a := w1.extractLsb' 28 4,
    b := w1.extractLsb' 24 4, d := w1.extractLsb' 20 4, op := w1.extractLsb' 0 20 }

/-! ### Decoding -/

/-- The ALU functions (R108). -/
def decodeAlu (c : CoreId) (rd ra rb : BitVec 5) (code : Nat) : Option Instr :=
  match code with
  | 0x00 => some (.add c rd ra rb)
  | 0x01 => some (.sub c rd ra rb)
  | 0x02 => some (.and c rd ra rb)
  | 0x03 => some (.or c rd ra rb)
  | 0x04 => some (.xor c rd ra rb)
  | 0x08 => some (.sll c rd ra rb)
  | 0x09 => some (.srl c rd ra rb)
  | 0x0A => some (.sra c rd ra rb)
  | 0x10 => some (.slt c rd ra rb)
  | 0x11 => some (.sltu c rd ra rb)
  | 0x12 => some (.min c rd ra rb)
  | 0x13 => some (.max c rd ra rb)
  | 0x14 => some (.minu c rd ra rb)
  | 0x15 => some (.maxu c rd ra rb)
  | 0x20 => some (.mul c rd ra rb)
  | 0x21 => some (.mulh c rd ra rb)
  | 0x22 => some (.mulhu c rd ra rb)
  | 0x24 => some (.div c rd ra rb)
  | 0x25 => some (.divu c rd ra rb)
  | 0x26 => some (.rem c rd ra rb)
  | 0x27 => some (.remu c rd ra rb)
  | 0x30 => some (.clz c rd ra rb)
  | 0x31 => some (.ctz c rd ra rb)
  | 0x32 => some (.popc c rd ra rb)
  | _ => none

/-- The SYS functions (R124). -/
def decodeSys (c : CoreId) (rd ra rb : BitVec 5) (code : Nat) : Option Instr :=
  match code with
  | 0x00 => some (.eret c rd ra rb)
  | 0x01 => some (.ecall c rd ra rb)
  | 0x02 => some (.brk c rd ra rb)
  | 0x03 => some (.fence c rd ra rb)
  | 0x04 => some (.ifence c rd ra rb)
  | 0x05 => some (.wfi c rd ra rb)
  | 0x06 => some (.halt c rd ra rb)
  | _ => none

/-- The token operations (R118). -/
def decodeTok (c : CoreId) (rd ra : BitVec 5) (mid : Byte) (t : BitVec 4) (code : Nat) : Option Instr :=
  match code with
  | 0x00 => some (.tinc c rd ra mid t)
  | 0x01 => some (.twait c rd ra mid t)
  | 0x02 => some (.ttry c rd ra mid t)
  | 0x03 => some (.tread c rd ra mid t)
  | 0x04 => some (.tsend c rd ra mid t)
  | 0x05 => some (.tset c rd ra mid t)
  | _ => none

/-- The opcodes of the I and B forms (R107); no upset strikes. -/
def decodeImm (c : CoreId) (x y : BitVec 5) (imm : W16) (code : Nat) : Option Instr :=
  match code with
  | 0x07 => some (.shori c x y imm)
  | 0x08 => some (.addi c x y imm)
  | 0x09 => some (.andi c x y imm)
  | 0x0A => some (.ori c x y imm)
  | 0x0B => some (.xori c x y imm)
  | 0x0C => some (.slti c x y imm)
  | 0x0D => some (.sltiu c x y imm)
  | 0x0E => some (.shi c x y imm)
  | 0x0F => some (.lui c x y imm)
  | 0x10 => some (.lb c x y imm [])
  | 0x11 => some (.lbu c x y imm [])
  | 0x12 => some (.lh c x y imm [])
  | 0x13 => some (.lhu c x y imm [])
  | 0x14 => some (.lw c x y imm [])
  | 0x15 => some (.lwu c x y imm [])
  | 0x16 => some (.ld c x y imm [])
  | 0x18 => some (.sb c x y imm [])
  | 0x19 => some (.sh c x y imm [])
  | 0x1A => some (.sw c x y imm [])
  | 0x1B => some (.sd c x y imm [])
  | 0x20 => some (.beq c x y imm)
  | 0x21 => some (.bne c x y imm)
  | 0x22 => some (.blt c x y imm)
  | 0x23 => some (.bge c x y imm)
  | 0x24 => some (.bltu c x y imm)
  | 0x25 => some (.bgeu c x y imm)
  | 0x26 => some (.jal c x y imm)
  | 0x27 => some (.jalr c x y imm)
  | 0x2C => some (.mfs c x y imm)
  | 0x2D => some (.mts c x y imm)
  | 0x2E => some (.tdw c x y imm)
  | 0x2F => some (.tdr c x y imm)
  | _ => none

/-- A scalar instruction word (R106: none where opcode or function is not listed). -/
def decodeScalar (c : CoreId) (w : W32) : Option Instr :=
  let x := w.extractLsb' 21 5
  let y := w.extractLsb' 16 5
  let z := w.extractLsb' 11 5
  match (w.extractLsb' 26 6).toNat with
  | 0x00 => decodeAlu c x y z (w.extractLsb' 0 11).toNat
  | 0x01 => decodeSys c x y z (w.extractLsb' 0 11).toNat
  | 0x30 => decodeTok c x y (w.extractLsb' 4 8) (w.extractLsb' 0 4) (w.extractLsb' 12 4).toNat
  | op => decodeImm c x y (w.extractLsb' 0 16) op

/-- The functions of VOP (R154). -/
def decodeVop (c : CoreId) (w : BulkWord) (code : Nat) : Option Instr :=
  match code with
  | 0x00 => some (.vopCopy c w)
  | 0x01 => some (.vopAdd c w)
  | 0x02 => some (.vopSub c w)
  | 0x03 => some (.vopMul c w)
  | 0x04 => some (.vopMax c w)
  | 0x05 => some (.vopMin c w)
  | 0x06 => some (.vopFma c w)
  | 0x08 => some (.vopCmplt c w)
  | 0x09 => some (.vopCmple c w)
  | 0x0A => some (.vopCmpeq c w)
  | 0x0B => some (.vopSel c w)
  | 0x10 => some (.vopDiv c w)
  | 0x11 => some (.vopSqrt c w)
  | 0x12 => some (.vopExp2 c w)
  | 0x13 => some (.vopLog2 c w)
  | 0x14 => some (.vopRcp c w)
  | 0x15 => some (.vopRsqrt c w)
  | 0x16 => some (.vopExp c w)
  | 0x18 => some (.vopAbs c w)
  | 0x19 => some (.vopNeg c w)
  | _ => none

/-- The reductions of VRED (R156). -/
def decodeVred (c : CoreId) (w : BulkWord) (code : Nat) : Option Instr :=
  match code with
  | 0x00 => some (.vredSum c w)
  | 0x01 => some (.vredMax c w)
  | 0x02 => some (.vredMin c w)
  | 0x03 => some (.vredSumsq c w)
  | 0x04 => some (.vredAbsmax c w)
  | _ => none

/-- The other bulk opcodes (R130, R166). -/
def decodeBulkOp (c : CoreId) (mode : Byte) (w : BulkWord) (code : Nat) : Option Instr :=
  match code with
  | 0x01 => some (.sld c mode w)
  | 0x02 => some (.mma c mode w)
  | 0x03 => some (.ard c mode w)
  | 0x0A => some (.cvt c mode w)
  | 0x0B => some (.sms c mode w)
  | 0x0C => some (.topk c mode w)
  | 0x20 => some (.hmov c mode w)
  | 0x21 => some (.smov c mode w)
  | 0x24 => some (.nsend c mode w)
  | 0x25 => some (.nrecv c mode w)
  | 0x28 => some (.rwr c mode w)
  | 0x29 => some (.rrd c mode w)
  | 0x2A => some (.racc c mode w)
  | 0x2B => some (.rmrg c mode w)
  | 0x30 => some (.tsig c mode w)
  | 0x34 => some (.nbd c mode w)
  | 0x38 => some (.udd c mode w)
  | _ => none

/-- A bulk instruction's words (R129). -/
def decodeBulk (c : CoreId) (w0 w1 : W32) : Option Instr :=
  let mode := w0.extractLsb' 0 8
  let w := bulkWordOf w0 w1
  match (w0.extractLsb' 20 6).toNat with
  | 0x08 => decodeVop c w mode.toNat
  | 0x09 => decodeVred c w mode.toNat
  | op => decodeBulkOp c mode w op

/-- Whether a word is word 0 of a bulk instruction (R107). -/
def isBulkWord (w : W32) : Bool := w.extractLsb' 26 6 == 0x3E

/-! ### Encoding -/

/-- The word of a scalar instruction; none for any other command. -/
def encodeScalar : Instr → Option W32
  | .add _ rd ra rb => some (wordA 0x00 rd ra rb 0x00)
  | .sub _ rd ra rb => some (wordA 0x00 rd ra rb 0x01)
  | .and _ rd ra rb => some (wordA 0x00 rd ra rb 0x02)
  | .or _ rd ra rb => some (wordA 0x00 rd ra rb 0x03)
  | .xor _ rd ra rb => some (wordA 0x00 rd ra rb 0x04)
  | .sll _ rd ra rb => some (wordA 0x00 rd ra rb 0x08)
  | .srl _ rd ra rb => some (wordA 0x00 rd ra rb 0x09)
  | .sra _ rd ra rb => some (wordA 0x00 rd ra rb 0x0A)
  | .slt _ rd ra rb => some (wordA 0x00 rd ra rb 0x10)
  | .sltu _ rd ra rb => some (wordA 0x00 rd ra rb 0x11)
  | .min _ rd ra rb => some (wordA 0x00 rd ra rb 0x12)
  | .max _ rd ra rb => some (wordA 0x00 rd ra rb 0x13)
  | .minu _ rd ra rb => some (wordA 0x00 rd ra rb 0x14)
  | .maxu _ rd ra rb => some (wordA 0x00 rd ra rb 0x15)
  | .mul _ rd ra rb => some (wordA 0x00 rd ra rb 0x20)
  | .mulh _ rd ra rb => some (wordA 0x00 rd ra rb 0x21)
  | .mulhu _ rd ra rb => some (wordA 0x00 rd ra rb 0x22)
  | .div _ rd ra rb => some (wordA 0x00 rd ra rb 0x24)
  | .divu _ rd ra rb => some (wordA 0x00 rd ra rb 0x25)
  | .rem _ rd ra rb => some (wordA 0x00 rd ra rb 0x26)
  | .remu _ rd ra rb => some (wordA 0x00 rd ra rb 0x27)
  | .clz _ rd ra rb => some (wordA 0x00 rd ra rb 0x30)
  | .ctz _ rd ra rb => some (wordA 0x00 rd ra rb 0x31)
  | .popc _ rd ra rb => some (wordA 0x00 rd ra rb 0x32)
  | .eret _ rd ra rb => some (wordA 0x01 rd ra rb 0x00)
  | .ecall _ rd ra rb => some (wordA 0x01 rd ra rb 0x01)
  | .brk _ rd ra rb => some (wordA 0x01 rd ra rb 0x02)
  | .fence _ rd ra rb => some (wordA 0x01 rd ra rb 0x03)
  | .ifence _ rd ra rb => some (wordA 0x01 rd ra rb 0x04)
  | .wfi _ rd ra rb => some (wordA 0x01 rd ra rb 0x05)
  | .halt _ rd ra rb => some (wordA 0x01 rd ra rb 0x06)
  | .shori _ x y imm => some (wordI 0x07 x y imm)
  | .addi _ x y imm => some (wordI 0x08 x y imm)
  | .andi _ x y imm => some (wordI 0x09 x y imm)
  | .ori _ x y imm => some (wordI 0x0A x y imm)
  | .xori _ x y imm => some (wordI 0x0B x y imm)
  | .slti _ x y imm => some (wordI 0x0C x y imm)
  | .sltiu _ x y imm => some (wordI 0x0D x y imm)
  | .shi _ x y imm => some (wordI 0x0E x y imm)
  | .lui _ x y imm => some (wordI 0x0F x y imm)
  | .beq _ x y imm => some (wordI 0x20 x y imm)
  | .bne _ x y imm => some (wordI 0x21 x y imm)
  | .blt _ x y imm => some (wordI 0x22 x y imm)
  | .bge _ x y imm => some (wordI 0x23 x y imm)
  | .bltu _ x y imm => some (wordI 0x24 x y imm)
  | .bgeu _ x y imm => some (wordI 0x25 x y imm)
  | .jal _ x y imm => some (wordI 0x26 x y imm)
  | .jalr _ x y imm => some (wordI 0x27 x y imm)
  | .mfs _ x y imm => some (wordI 0x2C x y imm)
  | .mts _ x y imm => some (wordI 0x2D x y imm)
  | .tdw _ x y imm => some (wordI 0x2E x y imm)
  | .tdr _ x y imm => some (wordI 0x2F x y imm)
  | .lb _ x y imm _ => some (wordI 0x10 x y imm)
  | .lbu _ x y imm _ => some (wordI 0x11 x y imm)
  | .lh _ x y imm _ => some (wordI 0x12 x y imm)
  | .lhu _ x y imm _ => some (wordI 0x13 x y imm)
  | .lw _ x y imm _ => some (wordI 0x14 x y imm)
  | .lwu _ x y imm _ => some (wordI 0x15 x y imm)
  | .ld _ x y imm _ => some (wordI 0x16 x y imm)
  | .sb _ x y imm _ => some (wordI 0x18 x y imm)
  | .sh _ x y imm _ => some (wordI 0x19 x y imm)
  | .sw _ x y imm _ => some (wordI 0x1A x y imm)
  | .sd _ x y imm _ => some (wordI 0x1B x y imm)
  | .tinc _ rd ra mid t => some (wordT 0 rd ra mid t)
  | .twait _ rd ra mid t => some (wordT 1 rd ra mid t)
  | .ttry _ rd ra mid t => some (wordT 2 rd ra mid t)
  | .tread _ rd ra mid t => some (wordT 3 rd ra mid t)
  | .tsend _ rd ra mid t => some (wordT 4 rd ra mid t)
  | .tset _ rd ra mid t => some (wordT 5 rd ra mid t)
  | _ => none

/-- The two words of a bulk instruction; none for any other command. -/
def encodeBulk : Instr → Option (W32 × W32)
  | .vopCopy _ w => some (wordB0 0x08 0x00 w, wordB1 w)
  | .vopAdd _ w => some (wordB0 0x08 0x01 w, wordB1 w)
  | .vopSub _ w => some (wordB0 0x08 0x02 w, wordB1 w)
  | .vopMul _ w => some (wordB0 0x08 0x03 w, wordB1 w)
  | .vopMax _ w => some (wordB0 0x08 0x04 w, wordB1 w)
  | .vopMin _ w => some (wordB0 0x08 0x05 w, wordB1 w)
  | .vopFma _ w => some (wordB0 0x08 0x06 w, wordB1 w)
  | .vopCmplt _ w => some (wordB0 0x08 0x08 w, wordB1 w)
  | .vopCmple _ w => some (wordB0 0x08 0x09 w, wordB1 w)
  | .vopCmpeq _ w => some (wordB0 0x08 0x0A w, wordB1 w)
  | .vopSel _ w => some (wordB0 0x08 0x0B w, wordB1 w)
  | .vopDiv _ w => some (wordB0 0x08 0x10 w, wordB1 w)
  | .vopSqrt _ w => some (wordB0 0x08 0x11 w, wordB1 w)
  | .vopExp2 _ w => some (wordB0 0x08 0x12 w, wordB1 w)
  | .vopLog2 _ w => some (wordB0 0x08 0x13 w, wordB1 w)
  | .vopRcp _ w => some (wordB0 0x08 0x14 w, wordB1 w)
  | .vopRsqrt _ w => some (wordB0 0x08 0x15 w, wordB1 w)
  | .vopExp _ w => some (wordB0 0x08 0x16 w, wordB1 w)
  | .vopAbs _ w => some (wordB0 0x08 0x18 w, wordB1 w)
  | .vopNeg _ w => some (wordB0 0x08 0x19 w, wordB1 w)
  | .vredSum _ w => some (wordB0 0x09 0x00 w, wordB1 w)
  | .vredMax _ w => some (wordB0 0x09 0x01 w, wordB1 w)
  | .vredMin _ w => some (wordB0 0x09 0x02 w, wordB1 w)
  | .vredSumsq _ w => some (wordB0 0x09 0x03 w, wordB1 w)
  | .vredAbsmax _ w => some (wordB0 0x09 0x04 w, wordB1 w)
  | .sld _ mode w => some (wordB0 0x01 mode w, wordB1 w)
  | .mma _ mode w => some (wordB0 0x02 mode w, wordB1 w)
  | .ard _ mode w => some (wordB0 0x03 mode w, wordB1 w)
  | .cvt _ mode w => some (wordB0 0x0A mode w, wordB1 w)
  | .sms _ mode w => some (wordB0 0x0B mode w, wordB1 w)
  | .topk _ mode w => some (wordB0 0x0C mode w, wordB1 w)
  | .hmov _ mode w => some (wordB0 0x20 mode w, wordB1 w)
  | .smov _ mode w => some (wordB0 0x21 mode w, wordB1 w)
  | .nsend _ mode w => some (wordB0 0x24 mode w, wordB1 w)
  | .nrecv _ mode w => some (wordB0 0x25 mode w, wordB1 w)
  | .rwr _ mode w => some (wordB0 0x28 mode w, wordB1 w)
  | .rrd _ mode w => some (wordB0 0x29 mode w, wordB1 w)
  | .racc _ mode w => some (wordB0 0x2A mode w, wordB1 w)
  | .rmrg _ mode w => some (wordB0 0x2B mode w, wordB1 w)
  | .tsig _ mode w => some (wordB0 0x30 mode w, wordB1 w)
  | .nbd _ mode w => some (wordB0 0x34 mode w, wordB1 w)
  | .udd _ mode w => some (wordB0 0x38 mode w, wordB1 w)
  | _ => none

end Sys2Proof
end

