-- ==== Sys2Proof/Machine/Num.lean ====
section
/-! DEFINITION. Number formats and exact values (R25 to R31), the one rounding of R34 and R41, stochastic rounding
(R43 to R46) and conversion into narrow formats (R40 to R42). -/

namespace Sys2Proof.Machine

/-- The element formats of R25. -/
inductive Fmt where
  | e2m1 | e3m2 | e2m3 | e4m3 | e5m2 | int8 | bf16 | fp32
  deriving DecidableEq, Repr

/-- What an encoding stands for: NaN, an infinity, or (−1)^neg × m × 2^e, a signed zero where m = 0. -/
inductive Val where
  | nan
  | inf (neg : Bool)
  | fin (neg : Bool) (m : Nat) (e : Int)
  deriving DecidableEq, Repr

/-- Width in bits (R25). -/
def Fmt.width : Fmt → Nat
  | .e2m1 => 4 | .e3m2 => 6 | .e2m3 => 6 | .e4m3 => 8 | .e5m2 => 8 | .int8 => 8 | .bf16 => 16 | .fp32 => 32

/-- Mantissa bits (R25). INT8 holds seven magnitude bits on the integer grid. -/
def Fmt.mant : Fmt → Nat
  | .e2m1 => 1 | .e3m2 => 2 | .e2m3 => 3 | .e4m3 => 3 | .e5m2 => 2 | .int8 => 7 | .bf16 => 7 | .fp32 => 23

/-- The exponent of the smallest subnormal step (R25). -/
def Fmt.ulpMin : Fmt → Int
  | .e2m1 => -1 | .e3m2 => -4 | .e2m3 => -3 | .e4m3 => -9 | .e5m2 => -16 | .int8 => 0 | .bf16 => -133 | .fp32 => -149

/-- The magnitude bits of the largest finite value (R25). -/
def Fmt.maxBits : Fmt → Nat
  | .e2m1 => 0x7 | .e3m2 => 0x1F | .e2m3 => 0x1F | .e4m3 => 0x7E | .e5m2 => 0x7B | .int8 => 127
  | .bf16 => 0x7F7F | .fp32 => 0x7F7FFFFF

/-- emax of R40. -/
def Fmt.emax : Fmt → Int
  | .e2m1 => 2 | .e3m2 => 4 | .e2m3 => 2 | .e4m3 => 8 | .e5m2 => 15 | .int8 => 6 | .bf16 => 127 | .fp32 => 127

/-- The formats of R31 that carry a block scale. -/
def Fmt.blocked : Fmt → Bool
  | .bf16 => false | .fp32 => false | _ => true

/-- The magnitude bits b of a floating-point format as m × 2^e (R25). -/
def Fmt.magOf (f : Fmt) (b : Nat) : Nat × Int :=
  let ex := b >>> f.mant
  let fr := b % 2 ^ f.mant
  if ex = 0 then (fr, f.ulpMin) else (2 ^ f.mant + fr, f.ulpMin + (ex : Int) - 1)

/-- The value of an encoding (R25, R26). -/
def Fmt.val (f : Fmt) (b : Nat) : Val :=
  match f with
  | .int8 =>
    let v := b % 256
    if v < 128 then .fin false v 0 else .fin true (256 - v) 0
  | _ =>
    let w := f.width
    let b := b % 2 ^ w
    let neg := decide (2 ^ (w - 1) ≤ b)
    let mag := b % 2 ^ (w - 1)
    if f = .e4m3 ∧ mag = 0x7F then .nan
    else if f = .e5m2 ∧ 0x7C ≤ mag then (if mag = 0x7C then .inf neg else .nan)
    else if f = .bf16 ∧ 0x7F80 ≤ mag then (if mag = 0x7F80 then .inf neg else .nan)
    else if f = .fp32 ∧ 0x7F800000 ≤ mag then (if mag = 0x7F800000 then .inf neg else .nan)
    else .fin neg (f.magOf mag).1 (f.magOf mag).2

/-- The residue modulo 3 of an element (R58, R65): of its significand with its sign, times (−1)^e for its exponent; 0 for what
is not finite. -/
def Fmt.residue (f : Fmt) (b : Nat) : Nat :=
  match f.val b with
  | .fin neg m e =>
    let r := if e % 2 = 0 then m % 3 else 2 * m % 3
    if neg then (3 - r) % 3 else r
  | _ => 0

/-- The value of an FP32 word. -/
def f32Val (x : W32) : Val := Fmt.val .fp32 x.toNat

/-- The canonical NaN (R34). -/
def canonNaN : W32 := 0x7FC00000
/-- An infinity of FP32. -/
def f32Inf (neg : Bool) : W32 := if neg then 0xFF800000 else 0x7F800000
/-- A zero of FP32. -/
def f32Zero (neg : Bool) : W32 := if neg then 0x80000000 else 0

def Val.isNaN : Val → Bool
  | .nan => true | _ => false
def Val.isInf : Val → Bool
  | .inf _ => true | _ => false
def Val.isFin : Val → Bool
  | .fin .. => true | _ => false
def Val.isZero : Val → Bool
  | .fin _ 0 _ => true | _ => false
def Val.neg : Val → Bool
  | .nan => false | .inf n => n | .fin n _ _ => n

/-- How a rounding step decides (R43): ties to even, or stochastic with the 24-bit random value r (R44). -/
inductive Rounding where
  | nearest
  | stochastic (r : Nat)
  deriving DecidableEq, Repr

/-- The one rounding of a magnitude m × 2^e onto the grid of `mant` mantissa bits and least step 2^ulp: the step
number q and the step's exponent. Nearest with ties to even (R34), or up exactly if f + r ≥ 2^24 (R44). -/
def roundGrid (mant : Nat) (ulp : Int) (mode : Rounding) (m : Nat) (e : Int) : Nat × Int :=
  let lsb := max ((m.log2 : Int) + e - mant) ulp
  if lsb ≤ e then (m * 2 ^ (e - lsb).toNat, lsb)
  else
    let sh := (lsb - e).toNat
    -- a magnitude far below the least step keeps its sticky bit only
    let got := if m.log2 + 64 < sh then ((if m = 0 then 0 else 1), 64) else (m, sh)
    let m := got.1
    let sh := got.2
    let q := m / 2 ^ sh
    let rem := m % 2 ^ sh
    let up := match mode with
      | .nearest => decide (2 ^ sh < 2 * rem) || (decide (2 * rem = 2 ^ sh) && q % 2 == 1)
      | .stochastic r => decide (2 ^ 24 ≤ rem * 2 ^ 24 / 2 ^ sh + r)
    ((if up then q + 1 else q), lsb)

/-- The magnitude bits of a rounded magnitude: above `maxBits` where it lies beyond the largest finite value. -/
def Fmt.roundBits (f : Fmt) (mode : Rounding) (m : Nat) (e : Int) : Nat :=
  if m = 0 then 0
  else
    let got := roundGrid f.mant f.ulpMin mode m e
    let q := got.1
    let l := got.2
    (l - f.ulpMin).toNat * 2 ^ f.mant + q

/-- (−1)^neg × m × 2^e rounded once into FP32 with subnormals and IEEE overflow (R34). -/
def f32Round (neg : Bool) (m : Nat) (e : Int) : W32 :=
  if m = 0 then f32Zero neg
  else if e + m.log2 > 200 then f32Inf neg
  else
    let b := Fmt.fp32.roundBits .nearest m e
    if 0x7F800000 ≤ b then f32Inf neg else BitVec.ofNat 32 ((if neg then 2 ^ 31 else 0) + b)

/-- A value as an FP32 word, rounded once. -/
def f32OfVal : Val → W32
  | .nan => canonNaN
  | .inf n => f32Inf n
  | .fin n m e => f32Round n m e

/-- The signed integer of a finite value on the grid 2^g, for g at or below its exponent. -/
def scaledInt (neg : Bool) (m : Nat) (e g : Int) : Int :=
  let v : Int := (m * 2 ^ (e - g).toNat : Nat)
  if neg then -v else v

/-- The exact sum of two values; the sign of a zero sum follows IEEE 754 (R34). -/
def Val.add : Val → Val → Val
  | .nan, _ => .nan
  | _, .nan => .nan
  | .inf a, .inf b => if a = b then .inf a else .nan
  | .inf a, _ => .inf a
  | _, .inf b => .inf b
  | .fin a m e, .fin b n f =>
    if m = 0 ∧ n = 0 then .fin (a && b) 0 0
    else if m = 0 then .fin b n f
    else if n = 0 then .fin a m e
    else
      let g := min e f
      let s := scaledInt a m e g + scaledInt b n f g
      .fin (decide (s < 0)) s.natAbs g

/-- The exact product of two values. -/
def Val.mul : Val → Val → Val
  | .nan, _ => .nan
  | _, .nan => .nan
  | .inf a, .inf b => .inf (a != b)
  | .inf a, .fin b n _ => if n = 0 then .nan else .inf (a != b)
  | .fin a m _, .inf b => if m = 0 then .nan else .inf (a != b)
  | .fin a m e, .fin b n f => .fin (a != b) (m * n) (e + f)

/-- The value times 2^k, exactly. -/
def Val.scale (k : Int) : Val → Val
  | .fin n m e => .fin n m (e + k)
  | v => v

/-- −1, 0 or 1 as a value lies below, at or above another; none where either is NaN. -/
def Val.cmp : Val → Val → Option Int
  | .nan, _ => none
  | _, .nan => none
  | .inf a, .inf b => some (if a = b then 0 else if a then -1 else 1)
  | .inf a, _ => some (if a then -1 else 1)
  | _, .inf b => some (if b then 1 else -1)
  | .fin a m e, .fin b n f =>
    let g := min e f
    some (scaledInt a m e g - scaledInt b n f g).sign

/-- floor(log₂) of a non-zero magnitude. -/
def magLog2 (m : Nat) (e : Int) : Int := (m.log2 : Int) + e

/-! Stochastic rounding -/

/-- The random value of R45. -/
def srBits (seed key : W64) (step : W32) : Nat :=
  let x := seed ^^^ (key * 0x9E3779B97F4A7C15) ^^^ (step.setWidth 64 * 0xC2B2AE3D27D4EB4F)
  let x := (x ^^^ (x >>> 30)) * 0xBF58476D1CE4E5B9
  let x := (x ^^^ (x >>> 27)) * 0x94D049BB133111EB
  let x := x ^^^ (x >>> 31)
  x.toNat % 2 ^ 24

/-- The key of R46: the output's address times 32, plus the element's index in its block. -/
def srKey (addr : Nat) (i : Nat) : W64 := BitVec.ofNat 64 (addr * 32 + i)

/-! Conversion into narrow formats -/

/-- What one element's conversion answers: the bits and whether R41 or R42 set the saturation flag. -/
structure Narrow where
  bits : Nat
  sat : Bool
  deriving DecidableEq, Repr

/-- Sign and magnitude bits put together; INT8 in two's complement. -/
def Fmt.signed (f : Fmt) (neg : Bool) (mag : Nat) : Nat :=
  match f with
  | .int8 => if neg then (256 - mag) % 256 else mag
  | _ => (if neg then 2 ^ (f.width - 1) else 0) + mag

/-- A magnitude above the largest finite value, under the overflow mode (R41). -/
def Fmt.overflow (f : Fmt) (saturating neg : Bool) : Narrow :=
  if saturating then ⟨f.signed neg f.maxBits, true⟩
  else match f with
    | .e4m3 => ⟨f.signed neg 0x7F, false⟩
    | .e5m2 => ⟨f.signed neg 0x7C, false⟩
    | .bf16 => ⟨f.signed neg 0x7F80, false⟩
    | .fp32 => ⟨f.signed neg 0x7F800000, false⟩
    | _ => ⟨f.signed neg f.maxBits, true⟩

/-- A finite value, already scaled, onto the format's grid (R41). -/
def Fmt.narrowFin (f : Fmt) (mode : Rounding) (saturating neg : Bool) (m : Nat) (e : Int) : Narrow :=
  let got := f.magOf f.maxBits
  let q := got.1
  let l := got.2
  let got := if f = .int8 then (127, 0) else (q, l)
  let q := got.1
  let l := got.2
  if Val.cmp (.fin false m e) (.fin false q l) = some 1 then f.overflow saturating neg
  else ⟨f.signed neg (f.roundBits mode m e), false⟩

/-- An infinite input to a block or to BF16 (R42). -/
def Fmt.narrowInf (f : Fmt) (saturating neg : Bool) : Narrow :=
  match f with
  | .bf16 => if saturating then ⟨f.signed neg f.maxBits, true⟩ else ⟨f.signed neg 0x7F80, false⟩
  | .fp32 => ⟨f.signed neg 0x7F800000, false⟩
  | .e5m2 => if saturating then ⟨f.signed neg f.maxBits, true⟩ else ⟨f.signed neg 0x7C, false⟩
  | _ => ⟨f.signed neg f.maxBits, true⟩

/-- The scale a block conversion with computed scale chooses (R40), from the FP32 inputs. -/
def blockScale (f : Fmt) (vs : List Val) : Nat :=
  if vs.any Val.isNaN then 0xFF
  else
    let logs := vs.filterMap fun
      | .fin _ m e => if m = 0 then none else some (magLog2 m e)
      | _ => none
    match logs with
    | [] => 127
    | l :: ls => (max 0 (min 254 (ls.foldl max l - f.emax + 127))).toNat

/-- What a block conversion writes: the scale, the element bits, and the flags of R48 it sets. -/
structure BlockOut where
  scale : Nat
  elems : List Nat
  sat : Bool
  nanIn : Bool
  deriving DecidableEq, Repr

/-- A block conversion (R40 to R42): `given` holds the program's scale; element i is rounded by `mode i`. -/
def narrowBlock (f : Fmt) (saturating : Bool) (given : Option Nat) (mode : Nat → Rounding) (vs : List Val) : BlockOut :=
  let scale := given.getD (blockScale f vs)
  if vs.any Val.isNaN || scale == 0xFF then ⟨scale, vs.map (fun _ => 0), false, true⟩
  else
    let es := vs.mapIdx fun i v =>
      match v with
      | .nan => (⟨0, false⟩ : Narrow)
      | .inf n => f.narrowInf saturating n
      | .fin n m e => f.narrowFin (mode i) saturating n m (e - ((scale : Int) - 127))
    ⟨scale, es.map (·.bits), es.any (·.sat), false⟩

/-- A conversion of one value to BF16 (R41, R42). -/
def narrowBf16 (saturating : Bool) (mode : Rounding) : Val → Narrow
  | .nan => ⟨0x7FC0, false⟩
  | .inf n => Fmt.bf16.narrowInf saturating n
  | .fin n m e => Fmt.bf16.narrowFin mode saturating n m e

/-- An element with its block's scale as an FP32 word (R43): exact, or ±∞ above the largest finite value. -/
def elemToF32 (f : Fmt) (scale : Nat) (b : Nat) : W32 :=
  if f.blocked && scale == 0xFF then canonNaN
  else f32OfVal ((f.val b).scale (if f.blocked then (scale : Int) - 127 else 0))

/-- Element i of a little-endian bit stream of elements w bits wide (R29). -/
def streamElem (bytes : List Byte) (w i : Nat) : Nat :=
  let lo := i * w / 8
  let word := ((bytes.drop lo).take 5).foldr (fun b a => b.toNat + 256 * a) 0
  (word >>> (i * w % 8)) % 2 ^ w

/-- The elements of a little-endian bit stream (R29). -/
def streamElems (bytes : List Byte) (w n : Nat) : List Nat := (List.range n).map (streamElem bytes w)

/-- A number as n bytes, byte 0 least significant (R7). -/
def leBytes : Nat → Nat → List Byte
  | 0, _ => []
  | n + 1, v => BitVec.ofNat 8 v :: leBytes n (v / 256)

/-- Bytes as a number, byte 0 least significant (R7). -/
def ofLeBytes : List Byte → Nat
  | [] => 0
  | b :: bs => b.toNat + 256 * ofLeBytes bs

/-- The bytes of a bit stream of elements w bits wide (R29). -/
def packElems (w : Nat) (es : List Nat) : List Byte :=
  leBytes ((es.length * w + 7) / 8) (es.foldr (fun e a => e % 2 ^ w + 2 ^ w * a) 0)

end Sys2Proof.Machine
end

