-- ==== Sys2Proof/Machine/Crypto.lean ====
section
/-! DEFINITION. The standard algorithms the manual names without giving them (log entry 17): SHA-256 (FIPS 180-4),
HMAC-SHA-256 and HKDF (RFC 2104, RFC 5869), and ECDSA P-256 with the nonces of RFC 6979. -/

namespace Sys2Proof.Machine

/-! ### SHA-256 -/

/-- The n words of 32 bits that a number holds, the highest first. -/
def wordsOf (n v : Nat) : List W32 := (List.range n).map fun i => BitVec.ofNat 32 (v / 2 ^ (32 * (n - 1 - i)))

/-- The 64 round constants and the initial value, each as one number: the leading fraction bits of the cube roots of the first 64 primes
and of the square roots of the first 8. -/
def shaK : List W32 :=
  wordsOf 16 0x428a2f9871374491b5c0fbcfe9b5dba53956c25b59f111f1923f82a4ab1c5ed5d807aa9812835b01243185be550c7dc372be5d7480deb1fe9bdc06a7c19bf174 ++
  wordsOf 16 0xe49b69c1efbe47860fc19dc6240ca1cc2de92c6f4a7484aa5cb0a9dc76f988da983e5152a831c66db00327c8bf597fc7c6e00bf3d5a7914706ca635114292967 ++
  wordsOf 16 0x27b70a852e1b21384d2c6dfc53380d13650a7354766a0abb81c2c92e92722c85a2bfe8a1a81a664bc24b8b70c76c51a3d192e819d6990624f40e3585106aa070 ++
  wordsOf 16 0x19a4c1161e376c082748774c34b0bcb5391c0cb34ed8aa4a5b9cca4f682e6ff3748f82ee78a5636f84c878148cc7020890befffaa4506cebbef9a3f7c67178f2

def shaInit : List W32 := wordsOf 8 0x6a09e667bb67ae853c6ef372a54ff53a510e527f9b05688c1f83d9ab5be0cd19

/-- A big-endian number from bytes, and its bytes. -/
def ofBeBytes (bs : List Byte) : Nat := bs.foldl (fun n b => n * 256 + b.toNat) 0
def beBytes (n v : Nat) : List Byte := (leBytes n v).reverse

/-- The padded message. -/
def shaPad (m : List Byte) : List Byte :=
  m ++ [0x80] ++ List.replicate ((119 - m.length % 64) % 64) 0 ++ beBytes 8 (8 * m.length)

/-- The XOR of a word's rotations. -/
def turned (x : W32) (by_ : List Nat) : W32 := by_.foldl (fun w n => w ^^^ x.rotateRight n) 0

/-- The next word of the message schedule from the 16 before it, newest first. -/
def nextWord (w : List W32) : W32 :=
  let old (i : Nat) : W32 := w.getD (i - 1) 0
  old 16 + old 7 + (turned (old 15) [7, 18] ^^^ (old 15 >>> 3)) + (turned (old 2) [17, 19] ^^^ (old 2 >>> 10))

/-- The message schedule, oldest word first. -/
def shaSchedule (block : List Byte) : List W32 :=
  ((List.range 48).foldl (fun w _ => nextWord w :: w) (wordsOf 16 (ofBeBytes block)).reverse).reverse

/-- One round: the working variables, the first to the eighth, with a round's constant and word. -/
def shaRound (v : List W32) (kw : W32 × W32) : List W32 :=
  let x (i : Nat) : W32 := v.getD i 0
  -- the fifth variable chooses between the next two, the first three vote
  let choice := (x 4 &&& x 5) ||| (~~~(x 4) &&& x 6)
  let vote := ((x 0 ||| x 1) &&& x 2) ||| (x 0 &&& x 1)
  let mix := x 7 + kw.1 + kw.2 + choice + turned (x 4) [6, 11, 25]
  (mix + vote + turned (x 0) [2, 13, 22]) :: v.take 3 ++ (x 3 + mix) :: (v.drop 4).take 3

def shaBlock (h : List W32) (block : List Byte) : List W32 :=
  List.zipWith (· + ·) h ((shaK.zip (shaSchedule block)).foldl shaRound h)

/-- SHA-256 of a message: 32 bytes. -/
def sha256 (m : List Byte) : List Byte :=
  let p := shaPad m
  let h := (List.range (p.length / 64)).foldl (fun h i => shaBlock h ((p.drop (64 * i)).take 64)) shaInit
  h.flatMap fun w => beBytes 4 w.toNat

/-! ### CRC-32C -/

/-- One byte taken into a CRC-32C. -/
def crcByte (c : W32) (b : Byte) : W32 :=
  (List.range 8).foldl (fun (c : W32) _ => if c.getLsbD 0 then (c >>> 1) ^^^ 0x82F63B78 else c >>> 1) (c ^^^ b.setWidth 32)

/-- CRC-32C of bytes. -/
def crc32c (bs : List Byte) : W32 := ~~~(bs.foldl crcByte 0xFFFFFFFF)

/-! ### HMAC and HKDF -/

def hmac (key m : List Byte) : List Byte :=
  let k := if 64 < key.length then sha256 key else key
  let k := k ++ List.replicate (64 - k.length) 0
  sha256 ((k.map (· ^^^ 0x5C)) ++ sha256 ((k.map (· ^^^ 0x36)) ++ m))

/-- HKDF with no salt and 32 bytes of output. -/
def hkdf (ikm info : List Byte) : List Byte := hmac (hmac (List.replicate 32 0) ikm) (info ++ [1])

/-! ### P-256 -/

def ecP : Nat := 0xffffffff00000001000000000000000000000000ffffffffffffffffffffffff
def ecN : Nat := 0xffffffff00000000ffffffffffffffffbce6faada7179e84f3b9cac2fc632551
def ecB : Nat := 0x5ac635d8aa3a93e7b3ebbd55769886bc651d06b0cc53b0f63bce3c3e27d2604b
def ecG : Nat × Nat :=
  (0x6b17d1f2e12c4247f8bce6e563a440f277037d812deb33a0f4a13945d898c296,
   0x4fe342e2fe1a7f9b8ee7eb4a7c0f9e162bce33576b315ececbb6406837bf51f5)

/-- b to the power e modulo m, over 256 bits of e. -/
def powMod (b e m : Nat) : Nat :=
  (List.range 256).foldl (fun r i => let q := r * r % m; if e.testBit (255 - i) then q * b % m else q) 1

/-- The inverse modulo a prime. -/
def invMod (a p : Nat) : Nat := powMod (a % p) (p - 2) p

/-- Addition of points; none is the point at infinity. -/
def ecAdd : Option (Nat × Nat) → Option (Nat × Nat) → Option (Nat × Nat)
  | none, q => q
  | p, none => p
  | some (x, y), some (u, v) =>
    if x = u ∧ (y + v) % ecP = 0 then none
    else
      let l := if x = u then (3 * x * x + (ecP - 3)) * invMod (2 * y) ecP % ecP
               else (v + ecP - y) * invMod (u + ecP - x) ecP % ecP
      let z := (l * l + 2 * ecP - x - u) % ecP
      some (z, (l * (x + ecP - z) + ecP - y) % ecP)

/-- A multiple of a point. -/
def ecMul (k : Nat) (p : Option (Nat × Nat)) : Option (Nat × Nat) :=
  (List.range 256).foldl (fun r i => let q := ecAdd r r; if k.testBit (255 - i) then ecAdd q p else q) none

/-- A public key on the curve. -/
def ecOk (q : Nat × Nat) : Bool :=
  decide (q.1 < ecP) && decide (q.2 < ecP) &&
    (q.2 * q.2) % ecP = (q.1 * q.1 * q.1 + (ecP - 3) * q.1 + ecB) % ecP

/-- ECDSA over SHA-256: a signature (r, s) of a message. -/
def ecdsaVerify (q : Nat × Nat) (m : List Byte) (r s : Nat) : Bool :=
  if r = 0 ∨ s = 0 ∨ ecN ≤ r ∨ ecN ≤ s ∨ !ecOk q then false
  else
    let e := ofBeBytes (sha256 m)
    let w := invMod s ecN
    match ecAdd (ecMul (e * w % ecN) (some ecG)) (ecMul (r * w % ecN) (some q)) with
    | none => false
    | some (x, _) => x % ecN = r

/-- The nonces of RFC 6979 in order, to a depth. -/
def rfc6979 (x h : List Byte) : Nat → List Byte → List Byte → Nat
  | 0, _, _ => 1
  | n + 1, k, v =>
    let v := hmac k v
    let c := ofBeBytes v
    if 1 ≤ c ∧ c < ecN then c
    else
      let k := hmac k (v ++ [0])
      rfc6979 x h n k (hmac k v)

/-- ECDSA over SHA-256 with the private scalar d. -/
def ecdsaSign (d : Nat) (m : List Byte) : Nat × Nat :=
  let e := ofBeBytes (sha256 m)
  let x := beBytes 32 d
  let h := beBytes 32 (e % ecN)
  let v0 := List.replicate 32 (1 : Byte)
  let k1 := hmac (List.replicate 32 0) (v0 ++ [0] ++ x ++ h)
  let v1 := hmac k1 v0
  let k2 := hmac k1 (v1 ++ [1] ++ x ++ h)
  let k := rfc6979 x h 16 k2 (hmac k2 v1)
  let r := match ecMul k (some ecG) with
    | some (a, _) => a % ecN
    | none => 0
  (r, invMod k ecN * (e + r * d) % ecN)

/-- The public key of a private scalar. -/
def ecPublic (d : Nat) : Nat × Nat := (ecMul d (some ecG)).getD (0, 0)

end Sys2Proof.Machine
end

