-- ==== Sys2Proof/Machine/Flags.lean ====
section
/-! DEFINITION. The four sticky arithmetic flags of R48, in the bit order their registers share (R75, R103, R316):
0 invalid, 1 overflow, 2 saturation, 3 NaN input. -/

namespace Sys2Proof.Machine

/-- A set of arithmetic flags, laid out as ENGn_FLAGS, VU_FLAGS and NB_FLAGS are. -/
abbrev AFlags := BitVec 4

def fInvalid : AFlags := 1
def fOverflow : AFlags := 2
def fSaturated : AFlags := 4
def fNanIn : AFlags := 8

/-- A flag set when a condition holds. -/
def flagIf (b : Bool) (f : AFlags) : AFlags := if b then f else 0

/-- The flags of one operation, judged on its final result (R48): NaN input where an operand is NaN, invalid where a
NaN arises from operands none of which is NaN, overflow where finite operands return ±∞ that is not their exact
result (`exactInf`). -/
def resultFlags (ins : List Val) (out : W32) (exactInf : Bool := false) : AFlags :=
  let r := f32Val out
  let nanIn := ins.any Val.isNaN
  flagIf nanIn fNanIn ||| flagIf (!nanIn && r.isNaN) fInvalid
    ||| flagIf (r.isInf && ins.all Val.isFin && !exactInf) fOverflow

/-- The flags of a conversion of one value into narrow bits (R41, R42, R48). -/
def narrowFlags (f : Fmt) (v : Val) (n : Narrow) : AFlags :=
  let r := f.val n.bits
  flagIf v.isNaN fNanIn ||| flagIf (!v.isNaN && r.isNaN) fInvalid
    ||| flagIf (v.isFin && r.isInf) fOverflow ||| flagIf n.sat fSaturated

/-- The flags of a block conversion (R40 to R42, R48). -/
def blockFlags (f : Fmt) (vs : List Val) (o : BlockOut) : AFlags :=
  flagIf o.nanIn fNanIn ||| flagIf o.sat fSaturated
    ||| flagIf (!o.nanIn && (o.elems.any fun b => (f.val b).isNaN)) fInvalid
    ||| flagIf (!o.nanIn && ((vs.zip o.elems).any fun p => p.1.isFin && (f.val p.2).isInf)) fOverflow

/-- The flags of an element-to-FP32 conversion (R43, R48). -/
def widenFlags (f : Fmt) (scale b : Nat) : AFlags :=
  let v := f.val b
  let bad := v.isNaN || (f.blocked && scale == 0xFF)
  flagIf bad fNanIn ||| flagIf (!bad && v.isFin && (f32Val (elemToF32 f scale b)).isInf) fOverflow

end Sys2Proof.Machine
end

