-- ==== Sys2Proof/Machine/Arith.lean ====
section
/-! DEFINITION. Arithmetic: block and group sums (R31 to R36), the vector unit's operations (R39) and the FP32 addition
of R37. -/

namespace Sys2Proof.Machine

/-! Dot products -/

/-- The special values of a block's or group's products (R33 without its scale rows): none where all are finite. -/
def specialSum (ps : List (Val × Val)) : Option Val :=
  let prods := ps.map fun p => p.1.mul p.2
  if ps.any (fun p => p.1.isNaN || p.2.isNaN) then some .nan
  else if prods.any Val.isNaN then some .nan
  else
    let pos := prods.any fun v => v.isInf && !v.neg
    let neg := prods.any fun v => v.isInf && v.neg
    if pos && neg then some .nan
    else if pos then some (.inf false)
    else if neg then some (.inf true)
    else none

/-- The exact sum of finite products on the grid 2^g; products are multiples of it. +0 where the sum is zero. -/
def exactSum (prods : List Val) (g : Int) : Val :=
  let s := prods.foldl (fun a v => match v with
    | .fin n m e => a + scaledInt n m e g
    | _ => a) (0 : Int)
  .fin (decide (s < 0)) s.natAbs g

/-- The block value of R32 and R33: the exact sum of the products, times both scales. -/
def blockValue (scaleA scaleB : Nat) (ps : List (Val × Val)) : Val :=
  if scaleA = 0xFF ∨ scaleB = 0xFF then .nan
  else match specialSum ps with
    | some v => v
    | none =>
      (exactSum (ps.map fun p => p.1.mul p.2) (-32)).scale ((scaleA : Int) - 127 + ((scaleB : Int) - 127))

/-- A product truncated toward zero to a multiple of 2^g (R35). -/
def truncProduct (g : Int) : Val → Val
  | .fin n m e => if g ≤ e then .fin n m e else .fin n (m / 2 ^ (g - e).toNat) g
  | v => v

/-- The group value of R35: products truncated below the largest one by 60 (BF16) or 80 (FP32) binary places. -/
def groupValue (f : Fmt) (ps : List (Val × Val)) : Val :=
  match specialSum ps with
  | some v => v
  | none =>
    let prods := ps.map fun p => p.1.mul p.2
    let logs := prods.filterMap fun
      | .fin _ m e => if m = 0 then none else some (magLog2 m e)
      | _ => none
    match logs with
    | [] => .fin false 0 0
    | l :: ls =>
      let g := ls.foldl max l - (if f = .bf16 then 60 else 80)
      exactSum (prods.map (truncProduct g)) g

/-- The fused addition of a block or group value to an accumulator entry (R34), with the flags of the step (R48):
`elems` are the operands of the step. -/
def fusedAdd (acc : W32) (v : Val) : W32 := f32OfVal ((f32Val acc).add v)

/-- The flags of one accumulating step (R48). -/
def stepFlags (acc : W32) (scaleNaN : Bool) (ps : List (Val × Val)) (v : Val) (out : W32) : AFlags :=
  let nanIn := scaleNaN || (f32Val acc).isNaN || ps.any fun p => p.1.isNaN || p.2.isNaN
  let finite := (f32Val acc).isFin && ps.all fun p => p.1.isFin && p.2.isFin
  let _ := v
  flagIf nanIn fNanIn ||| flagIf (!nanIn && (f32Val out).isNaN) fInvalid
    ||| flagIf (finite && !scaleNaN && (f32Val out).isInf) fOverflow

/-! Roots, quotients and elementary functions, each correctly rounded (R39) -/

/-- floor(√n) for n below 4^bits, one result bit at a time. -/
def isqrtBits : Nat → Nat → Nat → Nat
  | 0, _, r => r
  | b + 1, n, r =>
    let t := r + 2 ^ b
    isqrtBits b n (if t * t ≤ n then t else r)

/-- floor(√n). -/
def isqrt (n : Nat) : Nat := isqrtBits (n.log2 / 2 + 1) n 0

/-- a / b rounded once: the quotient to 64 or more places and a sticky bit. -/
def quotient (neg : Bool) (m : Nat) (e : Int) (n : Nat) (f : Int) : W32 :=
  let k := 64 + n.log2
  let q := m * 2 ^ k / n
  let sticky := if m * 2 ^ k % n = 0 then 0 else 1
  f32Round neg (2 * q + sticky) (e - f - k - 1)

/-- IEEE 754 division of values. -/
def Val.div32 : Val → Val → W32
  | .nan, _ => canonNaN
  | _, .nan => canonNaN
  | .inf _, .inf _ => canonNaN
  | .inf a, .fin b _ _ => f32Inf (a != b)
  | .fin a _ _, .inf b => f32Zero (a != b)
  | .fin a m e, .fin b n f =>
    if n = 0 then (if m = 0 then canonNaN else f32Inf (a != b))
    else if m = 0 then f32Zero (a != b)
    else quotient (a != b) m e n f

/-- IEEE 754 square root. -/
def Val.sqrt32 : Val → W32
  | .nan => canonNaN
  | .inf n => if n then canonNaN else f32Inf false
  | .fin n m e =>
    if m = 0 then f32Zero n
    else if n then canonNaN
    else
      -- an even exponent and 128 more places
      let got := if e % 2 = 0 then (m, e) else (2 * m, e - 1)
      let m := got.1
      let e := got.2
      let m := m * 2 ^ 128
      let r := isqrt m
      f32Round false (2 * r + if r * r = m then 0 else 1) (e / 2 - 65)

/-- 1/√x. -/
def Val.rsqrt32 : Val → W32
  | .nan => canonNaN
  | .inf n => if n then canonNaN else 0
  | .fin n m e =>
    if m = 0 then f32Inf false
    else if n then canonNaN
    else
      let got := if e % 2 = 0 then (m, e) else (2 * m, e - 1)
      let m := got.1
      let e := got.2
      let big := 2 ^ 192
      let r := isqrt (big / m)
      f32Round false (2 * r + if r * r * m = big then 0 else 1) (-(e / 2) - 97)

/-- √x to 1,024 places and a sticky bit, as an operand of a further operation under the same rounding. -/
def Val.rootHigh : Val → Val
  | .nan => .nan
  | .inf n => if n then .nan else .inf false
  | .fin n m e =>
    if m = 0 then .fin n 0 0
    else if n then .nan
    else
      let got := if e % 2 = 0 then (m, e) else (2 * m, e - 1)
      let big := got.1 * 2 ^ 2048
      let r := isqrt big
      .fin false (2 * r + if r * r = big then 0 else 1) (got.2 / 2 - 1025)

/-- x^(−1/8) of a value that is not negative, rounded once: three square roots, each rounded down, are the eighth root. -/
def Val.rroot8 : Val → W32
  | .nan => canonNaN
  | .inf n => if n then canonNaN else 0
  | .fin n m e =>
    if m = 0 then f32Inf false
    else if n then canonNaN
    else
      let m := m * 2 ^ (e % 8).toNat
      let big := 2 ^ 768
      let r := isqrt (isqrt (isqrt (big / m)))
      f32Round false (2 * r + if r ^ 8 * m = big then 0 else 1) (-(e / 8) - 97)

/-- 2^f for the fraction whose binary places, last first, are `places`: repeated square roots at 256 places. -/
def exp2Frac : List Bool → Nat → Nat
  | [], y => y
  | b :: bs, y => exp2Frac bs (isqrt ((if b then 2 * y else y) * 2 ^ 256))

/-- The binary places of a fraction n/2^k, last first. -/
def fracPlaces (n k : Nat) : List Bool := (List.range k).map fun i => n.testBit i

/-- 2^x rounded once (R39); +∞ and +0 beyond the format's range. -/
def exp2Fin (neg : Bool) (m : Nat) (e : Int) : W32 :=
  if m = 0 then 0x3F800000
  else if magLog2 m e ≥ 9 then (if neg then 0 else f32Inf false)
  else if e ≥ 0 then
    f32Round false 1 (scaledInt neg m e 0)
  else if magLog2 m e < -150 then 0x3F800000
  else
    let k := (-e).toNat
    let v : Int := if neg then -(m : Int) else m
    let n := v / 2 ^ k
    let fr := (v % 2 ^ k).toNat
    if fr = 0 then f32Round false 1 n
    else f32Round false (2 * exp2Frac (fracPlaces fr k) (2 ^ 256) + 1) (n - 257)

def Val.exp2 : Val → W32
  | .nan => canonNaN
  | .inf n => if n then 0 else f32Inf false
  | .fin n m e => exp2Fin n m e

/-- `n` binary places of log₂ of y/2^448, y in [1, 2), by repeated squaring. -/
def log2Places : Nat → Nat → Nat → Nat
  | 0, _, acc => acc
  | n + 1, y, acc =>
    let y2 := y * y / 2 ^ 448
    if 2 ^ 449 ≤ y2 then log2Places n (y2 / 2) (2 * acc + 1) else log2Places n y2 (2 * acc)

/-- log₂ rounded once (R39): 200 places and a sticky bit where the value is no power of two. -/
def Val.log232 : Val → W32
  | .nan => canonNaN
  | .inf n => if n then canonNaN else f32Inf false
  | .fin n m e =>
    if m = 0 then f32Inf true
    else if n then canonNaN
    else
      let ex := magLog2 m e
      if m = 2 ^ m.log2 then f32Round (decide (ex < 0)) ex.natAbs 0
      else
        let places := log2Places 200 (m * 2 ^ (448 - m.log2)) 0
        let v : Int := 2 * (ex * 2 ^ 200 + places) + 1
        f32Round (decide (v < 0)) v.natAbs (-201)

/-- log₂ e to 256 binary places. -/
def log2e : Nat := 0x171547652b82fe1777d0ffda0d23a7d11d6aef551bad2b4b1164a2cd9a342648f

/-- exp x: exp2 of x × log₂ e rounded to FP32 (R39). -/
def Val.exp32 (v : Val) : W32 :=
  match v with
  | .fin n m e => (f32Val (if m = 0 then f32Zero n else f32Round n (2 * (m * log2e) + 1) (e - 257))).exp2
  | v => v.exp2

/-- max of R39: the non-NaN operand where one is NaN, and +0 for max(−0, +0). -/
def vmax (a b : W32) : W32 :=
  match f32Val a, f32Val b with
  | .nan, .nan => canonNaN
  | .nan, _ => b
  | _, .nan => a
  | x, y =>
    match x.cmp y with
    | some 0 => if x.neg then b else a
    | some c => if c < 0 then b else a
    | none => canonNaN

/-- min of R39: as max, and −0 for min(−0, +0) (IEEE 754). -/
def vmin (a b : W32) : W32 :=
  match f32Val a, f32Val b with
  | .nan, .nan => canonNaN
  | .nan, _ => b
  | _, .nan => a
  | x, y =>
    match x.cmp y with
    | some 0 => if x.neg then a else b
    | some c => if c < 0 then a else b
    | none => canonNaN

/-- FP32 addition rounded once (R37, R39). -/
def fadd (a b : W32) : W32 := f32OfVal ((f32Val a).add (f32Val b))
/-- FP32 subtraction: addition of the negated operand. -/
def fneg (a : W32) : W32 := a ^^^ 0x80000000
def fsub (a b : W32) : W32 := fadd a (fneg b)
def fmul (a b : W32) : W32 := f32OfVal ((f32Val a).mul (f32Val b))
/-- Fused multiply-add, rounded once. -/
def ffma (a b c : W32) : W32 := f32OfVal (((f32Val a).mul (f32Val b)).add (f32Val c))
def fdiv (a b : W32) : W32 := (f32Val a).div32 (f32Val b)
def fsqrt (a : W32) : W32 := (f32Val a).sqrt32
def frcp (a : W32) : W32 := (Val.fin false 1 0).div32 (f32Val a)
def frsqrt (a : W32) : W32 := (f32Val a).rsqrt32
/-- 1/(√a + b), rounded once (R345). -/
def frcpRoot (a b : W32) : W32 := (Val.fin false 1 0).div32 ((f32Val a).rootHigh.add (f32Val b))
/-- a^(−1/8), rounded once (R347). -/
def frroot8 (a : W32) : W32 := (f32Val a).rroot8
def fexp2 (a : W32) : W32 := (f32Val a).exp2
def flog2 (a : W32) : W32 := (f32Val a).log232
def fexp (a : W32) : W32 := (f32Val a).exp32
def fabs (a : W32) : W32 := a &&& 0x7FFFFFFF

/-- The BF16 nearest an FP32 value (R41). DESIGN CHOICE (log entry 100): where no mode bit governs the conversion, a magnitude above
the largest finite BF16 becomes an infinity. -/
def bf16Of (a : W32) : W16 := BitVec.ofNat 16 (narrowBf16 false .nearest (f32Val a)).bits

end Sys2Proof.Machine
end

