-- ==== Sys2Proof/Machine/Merge.lean ====
section
/-! DEFINITION. Combining data that meets: the fold of FP32 additions (R37, R235) and the triple merge (R318, R319). -/

namespace Sys2Proof.Machine

/-- Whether a maximum makes a triple unusable: NaN or +∞. -/
def badMax (m : W32) : Bool := (f32Val m).isNaN || m == 0x7F800000

/-- The factor of a side and whether it set the new mark: +0 for an empty side; below 2⁻¹²⁶ taken as +0 and marked. -/
def mergeFactor (m top : W32) : W32 × Bool :=
  if m = 0xFF800000 then (0, false)
  else
    let f := fexp (fsub m top)
    if f.toNat < 0x00800000 then (0, true) else (f, false)

/-- The triple merge of two rows m, l, O of the same length (R318). -/
def tripleMerge (x y : List W32) : List W32 :=
  let mx := x.getD 0 0
  let my := y.getD 0 0
  if badMax mx || badMax my then x.map fun _ => canonNaN
  else
    let top := vmax mx my
    let got := if top = 0xFF800000 then ((0x3F800000 : W32), false) else mergeFactor mx top
    let ax := got.1
    let kx := got.2
    let got := if top = 0xFF800000 then ((0x3F800000 : W32), false) else mergeFactor my top
    let ay := got.1
    let ky := got.2
    let lx := x.getD 1 0
    let ly := y.getD 1 0
    let l := ffma ax (fabs lx) (fmul ay (fabs ly))
    let mark := lx.getLsbD 31 || ly.getLsbD 31 || kx || ky
    let l := if (f32Val l).isNaN then canonNaN else if mark then l ||| 0x80000000 else l
    top :: l :: (List.zipWith (fun a b => ffma ax a (fmul ay b)) (x.drop 2) (y.drop 2))

/-- 32-bit words of bytes. -/
def words32 (bs : List Byte) : List W32 := (streamElems bs 32 (bs.length / 4)).map (BitVec.ofNat 32)
def bytes32 (ws : List W32) : List Byte := packElems 32 (ws.map BitVec.toNat)

/-- Whether any of the 64-byte words that n bytes from offset `off` touch is poisoned. -/
def spanPoisoned (poison : List Bool) (off n : Nat) : Bool :=
  ((poison.drop (off / 64)).take ((off % 64 + n + 63) / 64)).any id

/-- Two streams combined under RED 1 or 2 (R235): bytes, and poison for each 64 of them. Under RED 2 each row of `cols`
words is one triple; a poisoned word of either row poisons every word of the row (R319). -/
def combine (red cols : Nat) (a b : List Byte × List Bool) : List Byte × List Bool :=
  let flits := (a.1.length + 63) / 64
  if red = 2 then
    let n := 4 * cols
    let rows := a.1.length / n
    let rowOf (d : List Byte) (r : Nat) := words32 ((d.drop (r * n)).take n)
    let out := (List.range rows).flatMap fun r => bytes32 (tripleMerge (rowOf a.1 r) (rowOf b.1 r))
    let bad (r : Nat) := spanPoisoned a.2 (r * n) n || spanPoisoned b.2 (r * n) n
    (out, (List.range flits).map fun k =>
      (List.range rows).any fun r => bad r && decide (r * n < 64 * k + 64) && decide (64 * k < r * n + n))
  else
    (bytes32 (List.zipWith fadd (words32 a.1) (words32 b.1)),
      (List.range flits).map fun k => a.2.getD k false || b.2.getD k false)

end Sys2Proof.Machine
end

