-- ==== Sys2Proof/Machine/Ecc.lean ====
section
/-! DEFINITION. The Reed–Solomon codes of R271 and R279 over GF(2⁸), and what a syndrome means (R273, R275). -/

namespace Sys2Proof.Machine

/-- Multiplication in GF(2⁸) with x⁸ + x⁴ + x³ + x² + 1, by n bits of b from the lowest. -/
def gfMulBits : Nat → Nat → Nat → Nat
  | 0, _, _ => 0
  | n + 1, a, b =>
    let a2 := 2 * a
    let a' := if 256 ≤ a2 then Nat.xor a2 0x11D else a2
    Nat.xor (if b % 2 = 1 then a else 0) (gfMulBits n a' (b / 2))

def gfMul (a b : Nat) : Nat := gfMulBits 8 a b

/-- α^n, α = 2. -/
def gfPow : Nat → Nat
  | 0 => 1
  | n + 1 => gfMul 2 (gfPow n)

/-- a^(2^n − 2) by repeated squaring: the inverse for n = 8. -/
def gfInv (a : Nat) : Nat :=
  -- a^254 = a^2 · a^4 · … · a^128
  ((List.range 7).foldl (fun (p : Nat × Nat) _ => let q := gfMul p.1 p.1; (q, gfMul p.2 q)) (a, 1)).2

/-- The product over the data points other than j of (x − α^i). -/
def rsProd (x : Nat) (j : Nat) : Nat :=
  ((List.range 64).filter (· ≠ j)).foldl (fun p i => gfMul p (Nat.xor x (gfPow i))) 1

/-- What data byte j adds to check byte k: the Lagrange basis polynomial of α^j at α^(64 + k) (R271). -/
def rsCoef (j k : Nat) : Nat := gfMul (rsProd (gfPow (64 + k)) j) (gfInv (rsProd (gfPow j) j))

/-- The n check bytes of 64 data bytes (R271; n = 4 in R279), check byte k in byte k. -/
def rsEncode (n : Nat) (data : List Byte) : Nat :=
  ofLeBytes ((List.range n).map fun k =>
    BitVec.ofNat 8 ((data.zipIdx).foldl (fun a p => if p.1 = 0 then a else Nat.xor a (gfMul p.1.toNat (rsCoef p.2 k))) 0))

/-- The syndrome of an error e in byte j: data bytes 0 to 63, check bytes from 64. -/
def rsErr (n j e : Nat) : Nat :=
  if j < 64 then ofLeBytes ((List.range n).map fun k => BitVec.ofNat 8 (gfMul e (rsCoef j k)))
  else e * 256 ^ (j - 64)

/-- Byte k of a syndrome. -/
def synByte (syn k : Nat) : Nat := syn / 256 ^ k % 256

/-- The one byte error a syndrome stands for, if it is that of exactly one: its place and value. -/
def rsOne (n syn : Nat) : Option (Nat × Nat) :=
  let nz := (List.range n).filter fun k => synByte syn k ≠ 0
  match nz with
  | [] => none
  | [k] => some (64 + k, synByte syn k)
  | _ =>
    (List.range 64).findSome? fun j =>
      let e := gfMul (synByte syn 0) (gfInv (rsCoef j 0))
      if e ≠ 0 ∧ rsErr n j e = syn then some (j, e) else none

/-- The poison pattern Q (R275). -/
def poisonQ : Nat := 0x4AF12DB864971EC3

/-- What decoding finds (R273). -/
inductive Decoded where
  | good
  | poisoned
  | corrected (place value : Nat)
  | bad
  deriving DecidableEq, Repr

/-- The table of R273 for a fast-tier word. -/
def decodeFast (syn : Nat) : Decoded :=
  if syn = 0 then .good
  else
    let p := Nat.xor syn poisonQ
    if p = 0 ∨ (rsOne 8 p).isSome then .poisoned
    else match rsOne 8 syn with
      | some (j, e) => .corrected j e
      | none => .bad

/-- The table of R273 for a slow-tier line (R279); its poison is held in the check word. -/
def decodeSlow (syn : Nat) : Decoded :=
  if syn = 0 then .good
  else match rsOne 4 syn with
    | some (j, e) => .corrected j e
    | none => .bad

/-- Data with one byte XORed, where the place is a data byte. -/
def fixByte (data : List Byte) (j e : Nat) : List Byte :=
  data.mapIdx fun i b => if i = j then b ^^^ BitVec.ofNat 8 e else b

end Sys2Proof.Machine
end

