-- ==== Sys2Proof/Config.lean ====
section
/-! DEFINITION. What one module has and the manual does not give: free values, secrets and characterisation data.
Each is a constant without a body, so that no proof can see what it is. -/

namespace Sys2Proof.Config

/-- A free value for the n-th open choice of a run (R90, R355, R358, R390: values the manual leaves open). -/
opaque freeValue : Nat → BitVec 64

/-- The unique device secret the fuzzy extractor reconstructs from the helper data in flash (R480). -/
opaque uds : List (BitVec 8) → BitVec 256

/-- How far an island's clock gets while the warden's count advances by one (R19: no fixed phase or rate relation): by the
number of free values taken and the island, base die of stack t as t and core c as 16 + c; thousandths of its nominal rate,
taken modulo 2001. -/
opaque pace : Nat → Nat → Nat

/-- The training settings that training finds for an interface (R458): by the number of free values taken and interface. -/
opaque training : Nat → Nat → BitVec 64

/-- The serial number of the module (R459, R482, R488). -/
opaque serial : BitVec 64

/-- Wilgon's public key, x then y, as flash holds it (R479). -/
opaque wilgonKey : BitVec 512

/-- The SHA-256 of Wilgon's key fused in the warden (R479). -/
opaque wilgonHash : BitVec 256

/-- The n-th number the warden's random number generator draws (R490). -/
opaque random : Nat → BitVec 256

/-- Whether two flipped bits of a scratchpad unit give a syndrome that reads as poisoned (R275): by the unit's
offset and the two bit numbers. The manual does not give the code's columns. -/
opaque doubleLooksPoisoned : Nat → Nat → Nat → Bool

/-- Which way of an instruction-cache set a fill displaces (R113: four ways, no replacement rule): by core,
set and the number of fills so far. -/
opaque icacheVictim : Nat → Nat → Nat → Nat

/-- The position 0 to 15 of the bench sensor a vault is assigned to (R437): by stack and logical vault. -/
opaque sensorOf : Nat → Nat → Fin 16

/-- STHM_GAIN of a stack as its characterisation data gives it (R449). -/
opaque thermalGain : Nat → BitVec 16

/-- Where in configuration space the Resizable BAR control register of BAR2 lies (R390: the manual does not lay the space
out). -/
opaque rebarOffset : BitVec 12

/-- Where in configuration space the power management control and status register lies, with PME_Status. -/
opaque pmcsrOffset : BitVec 12

/-- Where in configuration space the header of the i-th capability lies (R390): by its place in the list of standard, or of extended,
capabilities. -/
opaque capability : Bool → Nat → BitVec 12

/-- The characterised energy, in pJ, of one row cycle, refresh, row-logic step or row consumed by a bank-edge unit, 0 to 3 (R438). -/
opaque energy : Nat → Nat

end Sys2Proof.Config
end

