-- ==== Sys2Proof/Machine/State.lean ====
section
/-! DEFINITION. The state of the module, as plain data, its faults and refusals, and the state after reset. Every sparse
map lists only what differs from the value its accessor in Ops.lean gives an unlisted key. -/

namespace Sys2Proof.Machine

/-- What physics adds to a register write that acts: upsets, the results of bring-up tests, a flash that fails. -/
structure Env where
  ups : List Upset
  tests : TestResults
  flashFails : Bool
  deriving DecidableEq, Repr

/-! ### Cores -/

/-- A tile descriptor: four 64-bit words (R117, R137). -/
structure Desc where
  w0 : W64
  w1 : W64
  w2 : W64
  w3 : W64
  deriving DecidableEq, Repr

/-- The control core's run state: stopped between launches, running, or stopped by a double trap (R127, R397). -/
inductive Run where
  | idle | running | doubleTrapped
  deriving DecidableEq, Repr

/-- A stationary buffer (R52, R58, R145): format, loaded columns, elements keyed by column × 32 + k (unlisted 0), scale
bytes by column (unlisted 0x7F), residues mod 3 and poison marks of the elements' keys, and the load it came from. -/
structure Tile where
  fmt : Fmt
  loaded : Nat
  elems : SMap Nat
  scales : SMap Nat
  res : SMap Nat
  marks : SMap Bool
  src : Option Desc
  deriving DecidableEq, Repr

/-- The tile after core reset or wake (R146): INT8 zeros of 64 loaded columns with scale bytes 0x7F. -/
def Tile.reset : Tile := ⟨.int8, 64, [], [], [], [], none⟩

/-- An engine (R52 to R69): its two buffers, which one the latest load filled, the accumulator file keyed by
depth × 64 + lane (unlisted +0), and its entries' poison and wrong-parity marks. -/
structure Engine where
  bufA : Tile
  bufB : Tile
  latestB : Bool
  acc : SMap W32
  poison : SMap Bool
  parity : SMap Bool
  deriving DecidableEq, Repr

def Engine.reset : Engine := ⟨Tile.reset, Tile.reset, true, [], [], []⟩

/-- A bounding range an operation reads or writes (R140, R201): device bytes from lo to below hi, on this module or
another, or accumulator entries of an engine. -/
inductive Rng where
  | mem (dev : Option Nat) (lo hi : Nat)
  | acc (eng : Bool) (depth rows lane cols : Nat)
  deriving DecidableEq, Repr

/-- The state of a tally entry (R201; a free slot has no entry). -/
inductive TState where
  | queued | running | replaying | completed | failed
  deriving DecidableEq, Repr

/-- What a replay waits for (R210): the end of a core's reset, a route to a core, or of another module the end of its reset or
a port that leads to it. -/
inductive Wait where
  | reset (core : Nat)
  | route (core : Nat)
  | farReset
  | farRoute (dev : Nat)
  deriving DecidableEq, Repr

/-- A copy from another module that is being made again for a reader (R215): its tiles there and here, and the module. -/
structure FarCopy where
  a : Desc
  d : Desc
  dev : Nat
  deriving DecidableEq, Repr

/-- A tally entry (R199 to R203): the operation as issued, with its copied descriptors A, B, D, C, E, settings and
signal target; what it became at its start; and its faults. -/
structure Entry where
  slot : Nat
  gen : Nat
  opcode : Nat
  mode : Byte
  word : BulkWord
  queue : Nat
  a : Desc
  b : Desc
  d : Desc
  c : Desc
  e : Desc
  seed : W64
  stepNo : W32
  idxBase : W32
  vscalar : W32
  target : W32               -- signal target of TSIG (R190)
  fwd : W32                  -- signal target of FWD (R189)
  unit : Bool                -- an entry the update unit took under a lend (R349), not one of the program
  state : TState
  ins : List Rng
  outs : List Rng
  producers : List W16
  heldR : Bool
  heldW : Bool
  short : Bool               -- waits for its producers to be 8 or fewer
  tokenTaken : Bool
  tile : Option (Bool × Option Desc)   -- MMA: buffer B, and the load it came from (R147)
  fault : Nat                -- code of the fault that started the replay, 0 while none
  detail : Nat               -- cause detail of R528, from payload bit 32
  resume : Nat × Nat         -- first suppressed row and block (R67)
  again : Bool               -- the replay has begun
  waitFor : Option Wait
  poisonAt : Nat             -- first poisoned byte met
  repairDone : Bool
  status : Nat               -- the status of R187 that decides the end, 0 while OK
  done : Bool                -- every output written and checked
  propagated : Bool
  sent : List (Nat × Nat × Nat)  -- answers due: destination core, address, length
  inbox : List (Nat × List (Byte × Bool))   -- read data that has come, by the place of its first byte, while words of D await more (R171)
  far : Option FarCopy       -- a reader's poisoned input that is being read again from another module (R215)
  written : List Rng
  changed : Bool             -- completed, and its core has since stored into its tiles (R214)
  deriving DecidableEq, Repr

/-- A record of the source log (R214). -/
structure SrcRec where
  src : List Rng
  dst : List Rng
  opcode : Nat
  a : Desc
  d : Desc
  tag : W16
  deriving DecidableEq, Repr

/-- An entry of an open-write table (R208): range, device id, core and tag of the writer; of an NBD (R298), the rows it
covers exactly and, once it has ended, the status and the record its answer carries. -/
structure OpenWrite where
  lo : Nat
  hi : Nat
  rows : Option (List Nat)
  device : Option Nat
  core : Nat
  tag : W16
  nbStatus : Option (Nat × List Byte)
  deriving DecidableEq, Repr

/-- What one sender has delivered to a posted receive, or one input to a merge plan: bytes so far with their poison, the
shape its first packet named, the number of senders in it, and whether its last packet has come. -/
structure Stream where
  src : Nat
  tag : W16
  port : Nat
  shape : Nat                -- FMT, ROWS, COLS as ADDR [35:0] lays them out
  red : Nat
  count : Nat
  data : List Byte
  poison : List Bool         -- one flag for each 64 bytes
  senders : List (Nat × W16) -- every sender combined in it
  whole : Bool
  deriving DecidableEq, Repr

/-- A posted receive (R178): its tally slot, channel, and the streams that have arrived. -/
structure Posted where
  slot : Nat
  channel : Nat
  red : Nat
  fanin : Nat
  refuse : Bool              -- a sender did not match: every sender is answered REFUSED
  senders : List (Nat × W16) -- sender bitmap (R211)
  streams : List Stream
  deriving DecidableEq, Repr

/-- A core (R76 to R103): power state, control core, descriptors, engines, tally, tables of its network interface. The
counters and status it shows are registers. -/
structure Core where
  power : Nat                -- 0 Off, 1 Clearing, 2 On, 3 Rest (R98)
  run : Run
  halted : Bool
  g : SMap W64
  pc : Addr
  status : W64
  cause : W64
  tpc : W64
  tval : W64
  tvec : W64
  scratch0 : W64
  scratch1 : W64
  retired : W64
  seed : W64
  stepNo : W32
  idxBase : W32
  vscalar : W32
  td : SMap W64
  icache : List (Nat × List Byte)
  fills : Nat
  e0 : Engine
  e1 : Engine
  tally : List Entry         -- entries not free, in issue order
  gens : SMap Nat
  srcLog : List SrcRec       -- oldest first
  opens : List OpenWrite
  posted : List Posted
  launchQ : Option (Nat × Nat)   -- launch in progress: queue and entry index
  lentTo : Option Nat        -- engine windows lent (R349): the base offset
  resetting : Bool
  held : Bool
  droop : Bool
  droopAt : W64              -- the warden's count when the clock stretch in progress began (R427)
  cycleFrac : Nat            -- thousandths of a cycle the tick has gathered
  haulWrite : Option Bool    -- direction of the haul's last row (R174), none before the first
  deriving DecidableEq, Repr

/-- A core that is Off and holds nothing: what an unlisted core is. STATUS is 0x01 (R116). -/
def Core.reset : Core :=
  { power := 0, run := .idle, halted := false, g := [], pc := 0, status := 1, cause := 0, tpc := 0, tval := 0, tvec := 0,
    scratch0 := 0, scratch1 := 0, retired := 0, seed := 0, stepNo := 0, idxBase := 0, vscalar := 0, td := [],
    icache := [], fills := 0, e0 := Engine.reset, e1 := Engine.reset, tally := [], gens := [],
    srcLog := [], opens := [], posted := [], launchQ := none, lentTo := none,
    resetting := false, held := false, droop := false, droopAt := 0, cycleFrac := 0, haulWrite := none }

/-! ### The network -/

/-- Where a packet in flight stands: in the router of a logical core, at the edge of a stack's base die, delivered, or
handed to a Bilo port. -/
inductive Place where
  | injected                 -- in the sending network interface, before its first router
  | router (core : Nat)      -- in the router serving this logical core, to be routed on
  | delivered (core : Nat)   -- taken at this core, its vault or its base die, to be acted on
  | baseDie (stack : Nat)    -- with a base die, bound for its Bilo port or its slow channel
  deriving DecidableEq, Repr

/-- A packet (R226): the header's fields, the exact bytes it carries with one poison flag for each 64, and its place.
`len` is the length a read request asks for, of a send or contribution the offset of its bytes in the whole; ARRIVE is 5 for a stream that
a merge plan of the router made; `phys` the physical
core whose router it stands in, of one not yet in a router the core that injected it. -/
structure Packet where
  typ : Nat
  dest : Nat
  src : Nat
  depoch : Byte
  sepoch : Byte
  tag : W16
  channel : Byte
  red : Nat
  count : Nat
  arrive : Nat
  detour : Bool
  addr : Addr
  first : Bool
  contrib : Nat
  gen : Byte
  fmt : Nat
  shape : Nat
  final : Bool
  status : Nat
  len : Nat
  pieces : List (Nat × Nat)  -- places of the bytes of a write, read or contribution; empty for one run at ADDR
  unit : Addr                -- of an accumulate or merge: the contribution it is a part of
  data : List Byte
  poison : List Bool
  senders : List (Nat × W16)
  phys : Nat
  checked : Bool
  plan : Option (Nat × W32)  -- the merge plan that holds it at its router: number, and its register as the packet met it
  held : Nat                 -- at a vault's input: 1 held by the generation window (R376), 2 stalled (R351), 3 a part that waits for the rest
  port : Option (Nat × Nat × Nat × W16)   -- request of another module: Bilo port, device, core and tag to answer
  place : Place
  deriving DecidableEq, Repr

/-- An event record offered to the warden (R524): class, code, SOURCE [9:0], whether it names a stack, island count and
payload. -/
structure Event where
  cls : Byte
  code : Byte
  source : BitVec 10
  isStack : Bool
  island : W32
  payload : BitVec 128
  deriving DecidableEq, Repr

/-- A crier message in flight (R242). A fault notice carries its event. -/
structure Crier where
  typ : Nat
  kind : Nat
  dest : Nat
  src : Nat
  arg : BitVec 6
  payload : W32
  event : Option Event
  deriving DecidableEq, Repr

/-- A link between routers that is down (R232, R233): stack, physical index row × 9 + column, port, detoured. -/
structure DownLink where
  stack : Nat
  phys : Nat
  port : Nat
  detoured : Bool
  deriving DecidableEq, Repr

/-- The network: packets in flight, crier messages in flight, links down, and the copies of the package map that the routers
and network interfaces of each stack hold (R237): SUB words and epochs, by holding stack × 16 + stack; while a map change goes on,
the logical cores whose router and network interface hold its new epoch already. -/
structure Net where
  packets : List Packet
  msgs : List Crier
  down : List DownLink
  subs : SMap W32            -- unlisted all 0xF
  epochs : SMap Byte         -- unlisted 0
  turns : SMap Nat           -- by logical core × 16 + class × 8 + output of its router (R230): the input served last, plus 1
  refused : List (Nat × List (Nat × W16))   -- streams refused under R236 whose last packet has not come: router, senders
  asked : Option (Nat × Nat × Nat)          -- map change that waits for a reset's end (R471): stack, row, new SUB
  change : Option (Nat × Nat × Nat × Nat)   -- map change in progress: stack, row, old SUB, new SUB
  told : List Nat            -- logical cores of stacks that its update has reached in part
  quar : SMap Nat            -- by router, stack × 72 + row × 9 + column: when it last raised an event of R238 or R239, plus 1
  deriving DecidableEq, Repr

/-! ### Vaults and stacks -/

/-- A near-bank command in a vault (R296 to R306): its packet's bytes, the address they were written to, the issuing
core and tag, and its progress; from its start, the status and the bytes 8 to 27 of its record. -/
structure NbCmd where
  bytes : List Byte
  addr : Nat
  core : Option Nat          -- issuing core, none for the host window
  tag : W16
  running : Bool
  held : Bool
  heldAt : Nat
  waited : Nat
  startAt : Nat
  status : Nat
  nan : Bool
  body : List Byte
  deriving DecidableEq, Repr

/-- A result record of a bank (R305). -/
structure NbResult where
  addr : Nat
  bank : Nat
  bytes : List Byte
  deriving DecidableEq, Repr

/-- Who makes an ordinary access to the fast tier (R263): a core's instruction fetch, a bulk operation over its haul, a packet
served at the vault, or a host or debug access. -/
inductive Accessor where
  | fetch (core : Nat)
  | op (core : Nat) (tag : W16)
  | packet (src : Nat) (tag : W16) (port : Option (Nat × Nat × Nat × W16))
  | outside (r : Requester)
  deriving DecidableEq, Repr

/-- An access that waits for a near-bank command (R313): who makes it, its address, since when by the base die's count, and tag and
core of the command, 0x3FF of a host-written one. -/
structure Waiting where
  who : Accessor
  addr : Nat
  since : Nat
  tag : W16
  core : Nat
  deriving DecidableEq, Repr

/-- A logical vault's controller (R247 to R263, R294 to R314). Remap tables belong to physical vaults. -/
structure Vault where
  haulDown : Bool
  cached : List Nat          -- reserved rows cached, most recent first (R259)
  opens : List OpenWrite
  writeBacks : List (Nat × Option (List Byte))   -- word address and corrected bytes, none to be written poisoned (R278)
  clearing : Option (Nat × Nat)    -- benches first to last (R261)
  repair : Option Nat        -- address of the row under repair (R258)
  draining : Bool
  powering : Bool
  input : List NbCmd         -- near-bank packets at the input, in order
  cmds : List NbCmd          -- accepted, in order
  results : List NbResult    -- newest first, last 8 per bank
  unchecked : List Nat       -- rows whose check bytes await rebuild, oldest first (R308)
  slot : Nat                 -- the bank, bench × 8 + bank, that the next refresh slot is for (R254)
  slots : SMap Nat           -- by bank: refresh slots left idle since its last refresh
  waits : List Waiting
  scrub : Nat                -- rows of the vault the scrubber's pass has gone through (R282)
  deriving DecidableEq, Repr

def Vault.reset : Vault :=
  { haulDown := false, cached := [], opens := [], writeBacks := [], clearing := none, repair := none, draining := false,
    powering := false, input := [], cmds := [], results := [], unchecked := [], slot := 0, slots := [], waits := [], scrub := 0 }

/-- A pending slot in use of an open tensor (R341, R351): its place 0 to D, its newest step, the steps folded into it, and whether its
exact update met poison (R359). -/
structure Slot where
  place : Nat
  stepNo : W32
  folds : Nat
  closed : Bool
  started : Bool
  landed : Bool
  poisoned : Bool
  deriving DecidableEq, Repr

/-- An open tensor of an update unit (R342, R343): words 0 to 5 of its entry as OPEN read them, the fields of words 6 and 7,
whether inverse roots have been formed since OPEN (R347), its slots in use in the order of their steps, and the steps not yet applied
whose stall was reported (R351). -/
structure Tensor where
  index : Nat
  words : List W64
  applied : W32
  closed : W32
  drift : Nat
  since : Nat
  failed : Bool
  partial_ : Bool
  refreshed : Bool
  slots : List Slot
  stalled : List W32
  deriving DecidableEq, Repr

/-- An update-unit command waiting at its unit (R356): bytes of the command block, issuing core and tag; of a CLOSE, the
tensors it has gone through and whether steps 1 to 3 of R352 are done for the next. -/
structure UpdCmd where
  bytes : List Byte
  core : Nat
  tag : W16
  through : Nat
  mid : Bool
  deriving DecidableEq, Repr

/-- An exact update queued or running (R344); of one that has started, the rule set as it was then, 32 words. -/
structure Exact where
  tensor : Nat
  slot : Nat
  closeStep : W32
  rules : Option (List W32)
  deriving DecidableEq, Repr

/-- A core lent to the update unit (R349): its window's first and last bank word, and the tag of its LEND. -/
structure Lend where
  core : Nat
  base : Nat
  limit : Nat
  tag : W16
  effective : Bool
  deriving DecidableEq, Repr

/-- What a stack's steward holds for power and temperature beside its registers (R427 to R440), times counted in the
evaluations of their loops. -/
structure Thermal where
  evals : Nat                -- step evaluations so far
  stretches : List Nat       -- evaluations at which the clock stretches of the last 1 ms fell, newest first
  calm : Nat                 -- evaluations since a stretch or a fall of the droop demand
  top : Nat                  -- voltage updates in a row with VLG at 0.90 V and its minimum below target
  oldTarget : Option Nat     -- VLG target before a raise that the sensors have not yet shown
  pred : SMap Int            -- bench × 16 + position: prediction
  low : SMap Nat             -- bench: evaluations in a row more than 8 °C below its prediction
  cool1 : SMap Nat           -- bench: ms in a row 2 °C below 85 °C
  cool2 : SMap Nat           -- bench: ms in a row 2 °C below 95 °C
  marked : SMap Nat          -- bench: ms since it was marked
  below : SMap Nat           -- bench: ms in a row below 87 °C
  benchDem : SMap Nat        -- bench × 64 + core of the stack: bench demand
  coreDem : SMap Nat         -- core of the stack: core-temperature demand
  coreCool : SMap Nat        -- core of the stack: ms in a row at 95 °C or below
  trips : SMap Nat           -- bench: ms in a row with a prediction of 100 °C or more
  deriving DecidableEq, Repr

def Thermal.reset : Thermal :=
  { evals := 0, stretches := [], calm := 0, top := 0, oldTarget := none, pred := [], low := [], cool1 := [],
    cool2 := [], marked := [], below := [], benchDem := [], coreDem := [], coreCool := [], trips := [] }

/-- A stack (R282 to R285, R341 to R360, R426 to R439, R474). -/
structure Stack where
  cycles : W64               -- the base die's own count of 1.0 GHz cycles (R19)
  fence : Bool               -- under stack reset: arriving traffic is absorbed
  slowScrub : Nat
  passStart : Nat
  remembered : List Nat      -- last 64 corrected rows, newest first
  slowOpens : List OpenWrite
  slowCache : List Nat       -- check blocks cached, most recent first (R266)
  slowBack : List (Nat × Option (List Byte))   -- the same of lines (R279)
  slowClearing : Bool
  updIn : List UpdCmd
  lends : List Lend
  tensors : List Tensor
  exacts : List Exact
  thermal : Thermal
  image : List Byte          -- the steward image that the base die runs (R484)
  deriving DecidableEq, Repr

def Stack.reset : Stack :=
  { cycles := 0, fence := false, slowScrub := 0, passStart := 0, remembered := [], slowOpens := [],
    slowCache := [], slowBack := [], slowClearing := false, updIn := [], lends := [], tensors := [], exacts := [],
    thermal := Thermal.reset, image := [] }

/-- The state of a 4 KiB accumulate segment (R185, R376) and, of a barrow's, what its forwarder keeps (R378, R381, R385):
saturated, marked FP32, the largest MAX, contribution or result sent, result delivered, when its first contribution came,
plus 1, whether its timeout was reported, and whether its RESULT write was refused. -/
structure Seg where
  bitmap : W64
  gen : Option Byte
  sat : Bool
  fp32 : Bool
  maxMag : W32
  sent : Bool
  delivered : Bool
  since : Nat
  late : Bool
  refused : Bool
  deriving DecidableEq, Repr

def Seg.reset : Seg := ⟨0, none, false, false, 0, false, false, 0, false, false⟩

/-! ### Bilo -/

/-- A flit on a Bilo link (R366): its class, whether it ends its packet, and its 64 bytes. -/
structure Flit where
  cls : Nat
  last : Bool
  bytes : List Byte
  deriving DecidableEq, Repr

/-- A codeword's message (R364): the link word's fields, and its flits. -/
structure LinkWord where
  seq : BitVec 9
  ack : BitVec 9
  nak : Bool
  idle : Bool
  flits : List Flit
  deriving DecidableEq, Repr

/-- A Bilo port's link layer (R364, R365): the SEQ it expects, whether it discards until it has sent NAK, the failed replays in a row,
the SEQ it sends next, the last one acknowledged to it, the first one not yet used, its replay buffer, oldest first, the flits sent by
class of the packets it still keeps, and the codeword it sent last. -/
structure Port where
  expect : BitVec 9
  discarding : Bool
  replays : Nat
  next : BitVec 9
  acked : BitVec 9
  top : BitVec 9
  buffer : List LinkWord
  sent : SMap Nat
  line : Option LinkWord
  deriving DecidableEq, Repr

def Port.reset : Port :=
  { expect := 0, discarding := false, replays := 0, next := 0, acked := 511, top := 0, buffer := [], sent := [], line := none }

/-- An open barrow (R374 to R385): its entry's words as OPEN read them, its current generation, and the first segments of
the DONE packets that have come for it. -/
structure Barrow where
  id : Nat
  words : List W64
  gen : Byte
  got : List Nat
  deriving DecidableEq, Repr

/-- The Bilo side: link layers by port, packets handed to ports and not yet acknowledged, open barrows, forwarders' contributions and
results not yet answered with the stack they are of (R380), barrow packets that wait to be taken (R376), and requests that wait at
their port for the module to wake (R407). -/
structure Bilo where
  ports : SMap Port
  out : List (Nat × BiloPacket)   -- port, packet
  barrows : List Barrow
  busy : Option (Nat × Nat)       -- the command in progress, OPEN or RETIRE, and its barrow
  unanswered : List (Nat × BiloPacket)
  held : List BiloPacket
  waiting : List (Nat × BiloPacket)
  deriving DecidableEq, Repr

/-! ### Host -/

/-- The status of a completion on PCI Express (R394, R402, R407, R451). -/
inductive Cpl where
  | successful | unsupported | retry | abort
  deriving DecidableEq, Repr

/-- A completion the module has returned on PCI Express (R394, R404), with its EP bit. -/
structure Completion where
  tag : Nat
  data : List Byte
  ep : Bool
  status : Cpl
  deriving DecidableEq, Repr

/-- A launch started and not completed (R396 to R401): its queue, the entry's index and bytes, and the core whose reset
ended it FAULTED (R399). -/
structure Launch where
  queue : Nat
  index : Nat
  bytes : List Byte
  fault : Option Nat
  deriving DecidableEq, Repr

/-- A write of the host not yet performed (R403): its BAR0 offset where that lies above the package block, else none; its device address,
bytes and EP bit. -/
structure PostedWrite where
  above : Option Nat
  addr : Nat
  data : List Byte
  ep : Bool
  env : Env
  deriving DecidableEq, Repr

/-- The host side. -/
structure HostSide where
  bar0 : List Host.Cell      -- BAR0-only bytes: rings and MSI-X table (R392); unlisted as the accessor says
  pba : List Nat             -- vectors pending
  launches : List Launch
  holds : List (Nat × Nat)   -- reads held: tag and the address they wait at (R402)
  completions : List Completion
  msix : List (Nat × W64 × W32)   -- messages sent: vector, address, data
  pme : Nat                  -- PME messages sent
  pmeStatus : Bool
  deferred : List Nat        -- vectors whose message waits for D0
  d3hot : Bool
  restPhase : Nat            -- as HIF_STATUS.REST: 0 running, 1 Rest, 2 entering, 3 waking
  bar2Log : Nat              -- BAR2 is 2^bar2Log bytes (R390, R393)
  answers : List (Nat × List Byte)   -- answers on the management bus, and data of register and result reads not the host's
  posted : List PostedWrite  -- oldest first
  rotate : Nat               -- the queue that the rotation is at (R397)
  turn : Bool                -- the entry to Rest, or the wake, in progress is followed by the other
  woken : Bool               -- a trigger of R407 has come in D3hot (R504)
  deriving DecidableEq, Repr

/-! ### The package -/

/-- A copy of the signed repair record in flash (R459). -/
structure RepairRecord where
  magic : W32
  seq : W32
  serial : W64
  entries : List W64         -- as R460 lays them out
  sig : List Byte            -- r, then s
  deriving DecidableEq, Repr

/-- A copy of a firmware image, header and body, or of the signed configuration, in flash, and whether it is marked valid
(R482, R483, R493). -/
structure Image where
  valid : Bool
  bytes : List Byte
  deriving DecidableEq, Repr

def Image.none : Image := ⟨false, []⟩

/-- A record slot of the MRAM (R509, R510, R512): its bytes by offset, unlisted 0; whether it has been cleared, and
whether a boot has reported it. -/
structure ShutterRecord where
  cells : List Host.Cell
  cleared : Bool
  reported : Bool
  deriving DecidableEq, Repr

def ShutterRecord.none : ShutterRecord := ⟨[], true, false⟩

/-- The stored grant of the debug port (R491). -/
structure Grant where
  bytes : List Byte
  deriving DecidableEq, Repr

/-- The saved results of a full start (R458): wall time of step 2, slot, serial number, and the training settings of every
interface that trained, by interface. -/
structure SavedResults where
  wall : W64
  slot : W32
  serial : W64
  training : SMap W64
  deriving DecidableEq, Repr

/-- Serial flash, MRAM and fuses: what survives a package reset. -/
structure Flash where
  recordA : RepairRecord
  recordB : RepairRecord
  configA : Image
  configB : Image
  wardenA : Image
  wardenB : Image
  stewardA : Image
  stewardB : Image
  cert : List Byte
  bootCount : W32            -- the boot count in its two copies (R487)
  bootCountB : W32
  grant : Option Grant
  savedFull : Option SavedResults
  helper : List Byte         -- helper data of the PUF (R17, R480)
  floor : Nat
  mramA : ShutterRecord
  mramB : ShutterRecord
  sags : W32                 -- saves performed (R517)
  deriving DecidableEq, Repr

def RepairRecord.none : RepairRecord := ⟨0, 0, 0, [], []⟩

def Flash.reset : Flash :=
  { recordA := RepairRecord.none, recordB := RepairRecord.none, configA := Image.none, configB := Image.none,
    wardenA := Image.none, wardenB := Image.none, stewardA := Image.none, stewardB := Image.none, cert := [],
    bootCount := 0, bootCountB := 0, grant := none, savedFull := none, helper := [], floor := 0, mramA := ShutterRecord.none,
    mramB := ShutterRecord.none,
    sags := 0 }

/-- What an output pin is driven to (R503). -/
inductive Drive where
  | low | high | highZ
  deriving DecidableEq, Repr

/-- The module's pins that hold a state of their own (R503): asserted or not; whether the 54 V input is in its range, and its switch
closed (R499, R508). ALERT#, FAULT# and WAKE# follow from other state (R504). -/
structure Pins where
  thermtrip : Bool
  shutterDone : Bool
  perst : Bool
  pwrgdIn : Bool
  vaux : Bool
  main : Bool
  inputOn : Bool
  deriving DecidableEq, Repr

/-- What the warden holds for power (R426, R431, R432, R436, R444 to R446): by domain d of R424, 26 standing for the
module's input. -/
structure Power where
  out : SMap Int             -- regulator output less its setpoint, in mV
  dem : SMap Nat             -- current demand
  demLow : SMap Nat          -- evaluations in a row below 90 % of the limit
  capLow : Nat               -- ms in a row at or below PWR_CAP − 50 W
  capTop : Nat               -- ms in a row with the cap demand at 7
  cool3 : Nat                -- coolant reads in a row for demand 3, 7 and 0
  cool7 : Nat
  cool0 : Nat
  cold : Bool                -- the inlet was below 15 °C at the last read
  lastHeld : SMap Nat        -- reason: frames written when it last held a unit, plus 1
  durations : SMap Nat       -- reason: µs within the frame in progress
  frames : Nat               -- frames written
  timeSet : Bool             -- PWR_TIME_REF has been written
  droopNs : Nat              -- ns of clock stretches not yet charged as a whole µs (R427)
  off : Bool                 -- the VLG, VMA, VMI and VLK regulators are switched off (R441, R508)
  deriving DecidableEq, Repr

def Power.reset : Power :=
  { out := [], dem := [], demLow := [], capLow := 0, capTop := 0, cool3 := 0, cool7 := 0, cool0 := 0, cold := false,
    lastHeld := [], durations := [], frames := 0, timeSet := false, droopNs := 0, off := false }

/-- The warden (R397, R411, R443, R450 to R478, R479 to R496, R497 to R512). -/
structure Warden where
  booted : Bool
  step : Option Nat          -- bring-up step in progress
  fastWhy : Nat              -- FAST_WHY of step 2 (R457)
  stepWall : W64             -- wall time of step 2
  training : SMap W64        -- training settings in use, by interface: channel 0 to 15, Bilo port 16 to 23, edge link 24 on
  defects : List W64         -- defects in force (R463), as R460 lays them out
  gateAt : SMap Nat          -- by physical core: when class 0x31, code 0x03 was last raised, plus 1
  reset : Option (Nat × Nat)                      -- reset in progress: scope, target
  renewed : Bool             -- its stacks have been reset and their cores clear (R474 steps 4 to 9)
  retired : List Nat         -- physical cores stack × 72 + row × 9 + column retired
  remaps : SMap (List (Nat × Nat))   -- by physical vault: row place (bench, bank, row) and spare number
  dropRun : Bool             -- the last record offered was dropped (R525)
  identity : Option Nat      -- the identity scalar in the signer (R480)
  cdi1 : Option (List Byte)  -- compound device identifiers in the signer (R486)
  cdi2 : Option (List Byte)
  stewardOk : Bool           -- a steward image was accepted (R485)
  draws : Nat                -- numbers drawn from the random number generator
  savedRetired : List W64    -- saved retirements to be merged at step 5 (R512)
  power : Power
  save : Nat                 -- cause of the shutter save triggered and not yet run, 0 while none (R508, R510)
  stopped : Nat              -- 0 running, 1 every island but the warden stopped (R491), 2 every island (R441, R508)
  flash : Flash
  pins : Pins
  saved : Bool               -- a shutter save has run to its end (R508)
  hot : List Nat             -- stacks with a temperature that was not below its throttle limit at the last reading (R441)
  gated : List Nat           -- retired islands whose power gate is asserted (R466, R468), as in `retired`
  pausing : Bool             -- a pause of the retention test runs (R456)
  eid : Byte                 -- endpoint ID on the management bus (R505), 0 while none is assigned
  upKind : Nat               -- the update in progress (R493): kind, chunks taken, bytes
  upNext : Nat
  upload : List Byte
  deriving DecidableEq, Repr

/-! ### The whole -/

/-- Why a command stops. -/
inductive Fault where
  /-- Raised by a register write that gives a reserved field a value other than zero: R12 says that the module's
  behaviour is not defined. Safe: the hardware goes on in a way the manual does not give. -/
  | reservedFieldWritten
  deriving DecidableEq, Repr

/-- Why a command has no meaning. -/
inductive Refusal where
  /-- Raised by an arm of the dispatch whose command has no meaning yet. Safe. -/
  | notModelled (mnemonic : String)
  deriving DecidableEq, Repr

/-- The state of the module. -/
structure State where
  pending : List Instr
  freeCtr : Nat              -- the model's own: number of free values taken
  now : W64                  -- the warden's own count of 1.0 GHz cycles
  regs : SMap W64            -- registers by device address; unlisted: the reset value
  halves : List (Requester × Nat × Bool × W32)   -- held or captured half: requester, register, captured, value (R9)
  mem : List Host.Cell       -- bytes by device address; unlisted 0
  spMark : SMap Nat          -- scratchpad units by address: 1 poisoned, 2 + b one flipped bit b, 100 more
  fastSyn : SMap W64         -- check bytes of fast-tier words XOR their code; unlisted 0
  slowSyn : SMap W32         -- the same of slow-tier lines
  slowA : SMap Bool          -- POISON_A, POISON_B by line
  slowB : SMap Bool
  valid : SMap Bool          -- valid rows by address
  summary : SMap Bool        -- poison-summary bits by row address
  segs : SMap Seg
  cores : SMap Core
  vaults : SMap Vault
  spareVaults : SMap Vault   -- controllers that serve no logical vault, by physical vault stack × 72 + row × 9 + column
  spareRegs : SMap W64       -- registers of physical pairs that serve none, by physical vault × 0x100000 + offset (R269)
  stackMap : SMap Stack
  net : Net
  bilo : Bilo
  host : HostSide
  warden : Warden
  deriving DecidableEq, Repr

/-- The module right after reset: power applied, PERST# asserted, nothing brought up. -/
def State.reset : State :=
  { pending := [], freeCtr := 0, now := 0, regs := [], halves := [], mem := [], spMark := [], fastSyn := [], slowSyn := [],
    slowA := [], slowB := [], valid := [], summary := [], segs := [], cores := [], vaults := [], spareVaults := [],
    spareRegs := [], stackMap := [],
    net := { packets := [], msgs := [], down := [], subs := [], epochs := [], turns := [], refused := [], change := none, told := [],
             asked := none, quar := [] },
    bilo := { ports := [], out := [], barrows := [], busy := none, unanswered := [], held := [], waiting := [] },
    host := { bar0 := [], pba := [], launches := [], holds := [], completions := [], msix := [], pme := 0,
              pmeStatus := false, deferred := [], d3hot := false, restPhase := 0, bar2Log := 46, answers := [],
              posted := [], rotate := 0, turn := false, woken := false },
    warden :=
      { booted := false, step := none, fastWhy := 0, stepWall := 0, training := [], defects := [], gateAt := [],
        reset := none, renewed := false, retired := [], remaps := [], dropRun := false,
        identity := none, cdi1 := none, cdi2 := none, stewardOk := false, draws := 0, savedRetired := [],
        power := Power.reset, save := 0, stopped := 0, flash := Flash.reset,
        pins := { thermtrip := false, shutterDone := false, perst := true, pwrgdIn := true, vaux := true,
                  main := true, inputOn := true },
        saved := false, hot := [], gated := [], pausing := false, eid := 0,
        upKind := 0, upNext := 0, upload := [] } }

end Sys2Proof.Machine
end

