-- ==== Sys2Proof/Machine/RegMap.lean ====
section
/-! DEFINITION. The register map (R8 to R13): every register's place, width, fields, access codes and reset value, as the
register tables of the chapters give them, and the lookup of a device address. -/

namespace Sys2Proof.Machine

/-- Access codes (R11). -/
inductive Acc where
  | ro | rw | wo | w1c | w1s | rc
  deriving DecidableEq, Repr

/-- A field's reset value: a number, or the value of a table: R102, R410, R411, R424. Values that bring-up sets and kept
values stand at 0 (log entry 2). -/
inductive RstVal where
  | num (n : Nat)
  | pitch | source | priority | limit
  deriving DecidableEq, Repr

structure RegField where
  hi : Nat
  lo : Nat
  acc : Acc
  reset : RstVal
  deriving DecidableEq, Repr

/-- The three regions of R8. -/
inductive Region where
  | core | stack | package
  deriving DecidableEq, Repr

/-- A row of a register table: region, offset in it, count and stride of its copies, whether 64 bits wide, whether kept
across the reset of its scope, and its fields. -/
structure RegRow where
  region : Region
  off : Nat
  count : Nat
  stride : Nat
  wide : Bool
  kept : Bool
  fields : List RegField
  deriving DecidableEq, Repr

/-- Matrix engine (R75). -/
def rows03 : List RegRow :=
  [-- ENG0_STATUS
   ⟨.core, 0x4000, 2, 0x800, false, false, [⟨23, 16, .ro, .num 0⟩, ⟨15, 8, .ro, .num 0⟩, ⟨4, 4, .ro, .num 0⟩, ⟨3, 3, .ro, .num 1⟩, ⟨2, 2, .ro, .num 1⟩, ⟨1, 1, .ro, .num 0⟩, ⟨0, 0, .ro, .num 0⟩]⟩,
   -- ENG0_FLAGS
   ⟨.core, 0x4004, 2, 0x800, false, false, [⟨3, 3, .w1c, .num 0⟩, ⟨2, 2, .w1c, .num 0⟩, ⟨1, 1, .w1c, .num 0⟩, ⟨0, 0, .w1c, .num 0⟩]⟩,
   -- ENG0_RES_COUNT
   ⟨.core, 0x4008, 2, 0x800, false, true, [⟨31, 0, .ro, .num 0⟩]⟩,
   -- ENG0_RES_LIMIT
   ⟨.core, 0x400c, 2, 0x800, false, false, [⟨3, 0, .rw, .num 8⟩]⟩,
   -- ENG0_SUSPECT
   ⟨.core, 0x4010, 2, 0x800, false, true, [⟨7, 0, .w1c, .num 0⟩]⟩,
   -- ENG0_FAULT
   ⟨.core, 0x4018, 2, 0x800, true, false, [⟨63, 48, .ro, .num 0⟩, ⟨47, 39, .ro, .num 0⟩, ⟨38, 28, .ro, .num 0⟩, ⟨27, 12, .ro, .num 0⟩, ⟨7, 4, .ro, .num 0⟩, ⟨0, 0, .w1c, .num 0⟩]⟩,
   -- ENG0_BLOCKS
   ⟨.core, 0x4020, 2, 0x800, true, false, [⟨63, 0, .ro, .num 0⟩]⟩,
   -- ENG0_STALLS
   ⟨.core, 0x4028, 2, 0x800, true, false, [⟨63, 0, .ro, .num 0⟩]⟩,
   -- ENG0_INJECT
   ⟨.core, 0x4030, 2, 0x800, false, false, [⟨10, 8, .rw, .num 0⟩, ⟨0, 0, .w1s, .num 0⟩]⟩]

/-- Core, pitches, vector unit (R101 to R103). -/
def rows04 : List RegRow :=
  [-- CORE_ID
   ⟨.core, 0x0, 1, 0x0, false, false, [⟨26, 16, .ro, .num 0⟩, ⟨9, 0, .ro, .num 0⟩]⟩,
   -- CORE_STATE
   ⟨.core, 0x4, 1, 0x0, false, false, [⟨1, 0, .ro, .num 0⟩]⟩,
   -- CORE_CLOCK
   ⟨.core, 0x8, 1, 0x0, false, false, [⟨26, 16, .ro, .num 0x190⟩, ⟨10, 8, .ro, .num 7⟩, ⟨2, 0, .ro, .num 7⟩]⟩,
   -- CORE_CYCLES
   ⟨.core, 0x10, 1, 0x0, true, false, [⟨63, 0, .ro, .num 0⟩]⟩,
   -- CORE_ISSUE_STALL
   ⟨.core, 0x18, 1, 0x0, true, false, [⟨63, 0, .ro, .num 0⟩]⟩,
   -- CORE_SP_CONFLICT
   ⟨.core, 0x20, 1, 0x0, true, false, [⟨63, 0, .ro, .num 0⟩]⟩,
   -- CORE_SP_WAIT
   ⟨.core, 0x28, 1, 0x0, true, false, [⟨63, 0, .ro, .num 0⟩]⟩,
   -- CORE_SP_STARVE
   ⟨.core, 0x30, 1, 0x0, false, false, [⟨16, 16, .w1c, .num 0⟩, ⟨15, 0, .rw, .num 0x1000⟩]⟩,
   -- CORE_XW_COLLIDE
   ⟨.core, 0x34, 1, 0x0, false, false, [⟨31, 0, .ro, .num 0⟩]⟩,
   -- CORE_XW_LAST
   ⟨.core, 0x38, 1, 0x0, true, false, [⟨63, 48, .ro, .num 0⟩, ⟨40, 28, .ro, .num 0⟩, ⟨3, 3, .ro, .num 0⟩, ⟨2, 2, .ro, .num 0⟩, ⟨1, 1, .ro, .num 0⟩, ⟨0, 0, .w1c, .num 0⟩]⟩,
   -- CORE_SP_ECC
   ⟨.core, 0x40, 1, 0x0, false, false, [⟨31, 16, .ro, .num 0⟩, ⟨15, 0, .ro, .num 0⟩]⟩,
   -- PITCH
   ⟨.core, 0x1000, 56, 0x4, false, false, [⟨31, 31, .rw, .pitch⟩, ⟨30, 30, .rw, .pitch⟩, ⟨28, 16, .rw, .pitch⟩, ⟨12, 0, .rw, .num 0⟩]⟩,
   -- PITCH_FAULT
   ⟨.core, 0x1100, 1, 0x0, true, false, [⟨63, 48, .ro, .num 0⟩, ⟨47, 45, .ro, .num 0⟩, ⟨44, 44, .ro, .num 0⟩, ⟨40, 20, .ro, .num 0⟩, ⟨0, 0, .w1c, .num 0⟩]⟩,
   -- PITCH_COUNT
   ⟨.core, 0x1108, 1, 0x0, false, false, [⟨31, 0, .rc, .num 0⟩]⟩,
   -- VU_STATUS
   ⟨.core, 0x5000, 1, 0x0, false, false, [⟨0, 0, .ro, .num 0⟩]⟩,
   -- VU_FLAGS
   ⟨.core, 0x5004, 1, 0x0, false, false, [⟨3, 3, .w1c, .num 0⟩, ⟨2, 2, .w1c, .num 0⟩, ⟨1, 1, .w1c, .num 0⟩, ⟨0, 0, .w1c, .num 0⟩]⟩,
   -- VU_OPS
   ⟨.core, 0x5008, 1, 0x0, true, false, [⟨63, 0, .ro, .num 0⟩]⟩]

/-- Tokens (R122). -/
def rows05 : List RegRow :=
  [-- TOK_COUNT
   ⟨.core, 0x7004, 15, 0x4, false, false, [⟨7, 0, .rw, .num 0⟩]⟩,
   -- TOK_OVERFLOW
   ⟨.core, 0x7040, 1, 0x0, false, false, [⟨15, 1, .w1c, .num 0⟩]⟩,
   -- TOK_SENT
   ⟨.core, 0x7048, 1, 0x0, true, false, [⟨63, 0, .ro, .num 0⟩]⟩,
   -- TOK_RECEIVED
   ⟨.core, 0x7050, 1, 0x0, true, false, [⟨63, 0, .ro, .num 0⟩]⟩,
   -- TOK_SENT_DROP
   ⟨.core, 0x7058, 1, 0x0, false, false, [⟨31, 0, .ro, .num 0⟩]⟩]

/-- VU_FAULT (R165). -/
def rows06 : List RegRow :=
  [-- VU_FAULT
   ⟨.core, 0x5010, 1, 0x0, true, false, [⟨63, 48, .ro, .num 0⟩, ⟨47, 42, .ro, .num 0⟩, ⟨7, 4, .ro, .num 0⟩, ⟨0, 0, .w1c, .num 0⟩]⟩]

/-- Movement (R194, R195). -/
def rows07 : List RegRow :=
  [-- CORE_MOVE_FAULT
   ⟨.core, 0x48, 1, 0x0, true, false, [⟨63, 48, .ro, .num 0⟩, ⟨47, 42, .ro, .num 0⟩, ⟨35, 32, .ro, .num 0⟩, ⟨7, 4, .ro, .num 0⟩, ⟨0, 0, .w1c, .num 0⟩]⟩,
   -- CORE_HAUL_ROWS
   ⟨.core, 0x50, 1, 0x0, true, false, [⟨63, 0, .ro, .num 0⟩]⟩,
   -- CORE_HAUL_TURN
   ⟨.core, 0x58, 1, 0x0, true, false, [⟨63, 0, .ro, .num 0⟩]⟩,
   -- TOK_TARGET
   ⟨.core, 0x7080, 16, 0x4, false, false, [⟨31, 31, .rw, .num 0⟩, ⟨30, 17, .rw, .num 0⟩, ⟨16, 7, .rw, .num 0⟩, ⟨3, 0, .rw, .num 0⟩]⟩]

/-- Tally (R220). -/
def rows08 : List RegRow :=
  [-- TALLY_STATUS
   ⟨.core, 0x2000, 1, 0x0, false, false, [⟨25, 16, .ro, .num 0⟩, ⟨9, 0, .ro, .num 0⟩]⟩,
   -- TALLY_WAIT_LIMIT
   ⟨.core, 0x2004, 1, 0x0, false, false, [⟨31, 0, .rw, .num 0xc350⟩]⟩,
   -- TALLY_CONTROL
   ⟨.core, 0x2008, 1, 0x0, false, false, [⟨0, 0, .rw, .num 1⟩]⟩,
   -- TALLY_POISON
   ⟨.core, 0x200c, 1, 0x0, false, false, [⟨31, 16, .ro, .num 0⟩, ⟨15, 0, .ro, .num 0⟩]⟩,
   -- TALLY_HEAD
   ⟨.core, 0x2010, 1, 0x0, true, false, [⟨63, 48, .ro, .num 0⟩, ⟨47, 42, .ro, .num 0⟩, ⟨41, 39, .ro, .num 0⟩, ⟨38, 36, .ro, .num 0⟩, ⟨35, 32, .ro, .num 0⟩, ⟨31, 28, .ro, .num 0⟩, ⟨27, 24, .ro, .num 0⟩, ⟨3, 3, .ro, .num 0⟩, ⟨2, 2, .ro, .num 0⟩, ⟨0, 0, .ro, .num 0⟩]⟩,
   -- TALLY_REPLAYS
   ⟨.core, 0x2018, 1, 0x0, true, false, [⟨63, 0, .ro, .num 0⟩]⟩,
   -- TALLY_FAILED
   ⟨.core, 0x2020, 1, 0x0, true, false, [⟨63, 48, .ro, .num 0⟩, ⟨47, 42, .ro, .num 0⟩, ⟨39, 32, .ro, .num 0⟩, ⟨0, 0, .w1c, .num 0⟩]⟩,
   -- TALLY_HOLDS
   ⟨.core, 0x2028, 1, 0x0, true, false, [⟨63, 0, .ro, .num 0⟩]⟩,
   -- TALLY_SELECT
   ⟨.core, 0x2030, 1, 0x0, false, false, [⟨8, 0, .rw, .num 0⟩]⟩,
   -- TALLY_ENTRY
   ⟨.core, 0x2038, 1, 0x0, true, false, [⟨63, 48, .ro, .num 0⟩, ⟨47, 42, .ro, .num 0⟩, ⟨41, 39, .ro, .num 0⟩, ⟨38, 36, .ro, .num 0⟩, ⟨35, 32, .ro, .num 0⟩, ⟨31, 28, .ro, .num 0⟩, ⟨27, 24, .ro, .num 0⟩, ⟨3, 3, .ro, .num 0⟩, ⟨2, 2, .ro, .num 0⟩, ⟨0, 0, .ro, .num 0⟩]⟩,
   -- TALLY_QHEAD
   ⟨.core, 0x2040, 7, 0x4, false, false, [⟨31, 16, .ro, .num 0⟩, ⟨15, 12, .ro, .num 0⟩, ⟨11, 4, .ro, .num 0⟩, ⟨1, 1, .ro, .num 0⟩, ⟨0, 0, .ro, .num 0⟩]⟩]

/-- Network and map (R244, R245). -/
def rows09 : List RegRow :=
  [-- NI_STATUS
   ⟨.core, 0x6000, 1, 0x0, false, false, [⟨15, 8, .ro, .num 0⟩]⟩,
   -- NI_RECV_LIMIT
   ⟨.core, 0x6004, 1, 0x0, false, false, [⟨31, 0, .rw, .num 0x3e8⟩]⟩,
   -- NI_RECV_WAIT
   ⟨.core, 0x6008, 1, 0x0, false, false, [⟨16, 16, .w1c, .num 0⟩, ⟨7, 0, .ro, .num 0⟩]⟩,
   -- NI_LINKS
   ⟨.core, 0x600c, 1, 0x0, false, false, [⟨3, 0, .ro, .num 0⟩]⟩,
   -- NI_RETRIES
   ⟨.core, 0x6010, 1, 0x0, true, false, [⟨63, 0, .ro, .num 0⟩]⟩,
   -- NI_QUAR
   ⟨.core, 0x6018, 1, 0x0, false, false, [⟨31, 16, .ro, .num 0⟩, ⟨15, 0, .ro, .num 0⟩]⟩,
   -- NI_QUAR_LAST
   ⟨.core, 0x6020, 1, 0x0, true, false, [⟨63, 53, .ro, .num 0⟩, ⟨52, 45, .ro, .num 0⟩, ⟨44, 37, .ro, .num 0⟩, ⟨0, 0, .w1c, .num 0⟩]⟩,
   -- NI_MERGE_WAIT
   ⟨.core, 0x6028, 1, 0x0, true, false, [⟨63, 0, .ro, .num 0⟩]⟩,
   -- NI_MERGE
   ⟨.core, 0x6040, 16, 0x4, false, false, [⟨31, 31, .rw, .num 0⟩, ⟨30, 29, .rw, .num 0⟩, ⟨28, 24, .rw, .num 0⟩, ⟨17, 10, .rw, .num 0⟩, ⟨9, 0, .rw, .num 0⟩]⟩,
   -- MAP_SUB
   ⟨.package, 0xa0000, 16, 0x4, false, false, [⟨31, 0, .ro, .num 0⟩]⟩,
   -- MAP_EPOCH
   ⟨.package, 0xa0040, 16, 0x4, false, false, [⟨7, 0, .ro, .num 0⟩]⟩,
   -- MAP_COMMAND
   ⟨.package, 0xa0080, 1, 0x0, false, false, [⟨31, 31, .w1s, .num 0⟩, ⟨14, 11, .rw, .num 0⟩, ⟨10, 8, .rw, .num 0⟩, ⟨7, 4, .rw, .num 0xf⟩]⟩,
   -- MAP_STATUS
   ⟨.package, 0xa0084, 1, 0x0, false, false, [⟨2, 2, .w1c, .num 0⟩, ⟨1, 1, .w1c, .num 0⟩, ⟨0, 0, .ro, .num 0⟩]⟩,
   -- MAP_QUAR
   ⟨.package, 0xa0088, 16, 0x4, false, false, [⟨31, 0, .ro, .num 0⟩]⟩]

/-- Vaults and slow tier (R269, R270). -/
def rows10 : List RegRow :=
  [-- VC_STATUS
   ⟨.stack, 0x10000, 64, 0x400, false, false, [⟨26, 16, .ro, .num 0⟩, ⟨9, 8, .ro, .num 0⟩, ⟨1, 1, .ro, .num 0⟩, ⟨0, 0, .ro, .num 0⟩]⟩,
   -- VC_BENCH_RATE
   ⟨.stack, 0x10004, 64, 0x400, false, false, [⟨31, 0, .ro, .num 0⟩]⟩,
   -- VC_REFRESH
   ⟨.stack, 0x10008, 64, 0x400, false, false, [⟨31, 16, .rw, .num 0⟩]⟩,
   -- VC_CLEAR
   ⟨.stack, 0x1000c, 64, 0x400, false, false, [⟨31, 31, .w1s, .num 0⟩, ⟨30, 30, .ro, .num 0⟩, ⟨11, 8, .rw, .num 0xf⟩, ⟨7, 4, .rw, .num 0⟩]⟩,
   -- VC_REPAIR
   ⟨.stack, 0x10010, 64, 0x400, false, false, [⟨31, 31, .w1s, .num 0⟩, ⟨30, 30, .ro, .num 0⟩, ⟨29, 29, .w1c, .num 0⟩, ⟨21, 18, .rw, .num 0⟩, ⟨17, 15, .rw, .num 0⟩, ⟨14, 0, .rw, .num 0⟩]⟩,
   -- VC_SPARES
   ⟨.stack, 0x10014, 64, 0x400, false, true, [⟨29, 16, .ro, .num 0⟩, ⟨9, 0, .ro, .num 0⟩]⟩,
   -- VC_HAUL_RETRY
   ⟨.stack, 0x10018, 64, 0x400, false, false, [⟨31, 0, .ro, .num 0⟩]⟩,
   -- VC_ROWS
   ⟨.stack, 0x10020, 64, 0x400, true, false, [⟨63, 0, .ro, .num 0⟩]⟩,
   -- VC_REFRESHES
   ⟨.stack, 0x10028, 64, 0x400, true, false, [⟨63, 0, .ro, .num 0⟩]⟩,
   -- VC_VALID_MISS
   ⟨.stack, 0x10030, 64, 0x400, true, false, [⟨63, 0, .ro, .num 0⟩]⟩,
   -- VC_ZERO_READS
   ⟨.stack, 0x10038, 64, 0x400, true, false, [⟨63, 0, .ro, .num 0⟩]⟩,
   -- VC_RMW
   ⟨.stack, 0x10040, 64, 0x400, true, false, [⟨63, 0, .ro, .num 0⟩]⟩,
   -- SLOW_STATUS
   ⟨.stack, 0x70000, 1, 0x0, false, false, [⟨12, 8, .ro, .num 0⟩, ⟨3, 3, .ro, .num 0⟩, ⟨2, 2, .ro, .num 0⟩, ⟨1, 1, .ro, .num 0⟩, ⟨0, 0, .ro, .num 0⟩]⟩,
   -- SLOW_CLEAR
   ⟨.stack, 0x70004, 1, 0x0, false, false, [⟨31, 31, .w1s, .num 0⟩]⟩,
   -- SLOW_LINK_RETRY
   ⟨.stack, 0x70008, 1, 0x0, false, false, [⟨31, 0, .ro, .num 0⟩]⟩,
   -- SLOW_READS
   ⟨.stack, 0x70010, 1, 0x0, true, false, [⟨63, 0, .ro, .num 0⟩]⟩,
   -- SLOW_WRITES
   ⟨.stack, 0x70018, 1, 0x0, true, false, [⟨63, 0, .ro, .num 0⟩]⟩,
   -- SLOW_CHECK_MISS
   ⟨.stack, 0x70020, 1, 0x0, true, false, [⟨63, 0, .ro, .num 0⟩]⟩]

/-- Scrubber (R290). -/
def rows11 : List RegRow :=
  [-- SCRUB_CONTROL
   ⟨.stack, 0x30000, 1, 0x0, false, false, [⟨31, 31, .rw, .num 1⟩, ⟨30, 30, .rw, .num 1⟩, ⟨13, 0, .rw, .num 0x5a0⟩]⟩,
   -- SCRUB_STATUS
   ⟨.stack, 0x30004, 1, 0x0, false, false, [⟨11, 8, .ro, .num 0⟩, ⟨1, 1, .w1c, .num 0⟩, ⟨0, 0, .ro, .num 0⟩]⟩,
   -- SCRUB_PASSES
   ⟨.stack, 0x30008, 1, 0x0, false, false, [⟨31, 0, .ro, .num 0⟩]⟩,
   -- SCRUB_DIAG
   ⟨.stack, 0x3000c, 1, 0x0, false, false, [⟨31, 31, .w1c, .num 0⟩, ⟨9, 4, .rw, .num 0⟩, ⟨1, 0, .rw, .num 0⟩]⟩,
   -- SCRUB_CORRECTED
   ⟨.stack, 0x30010, 1, 0x0, true, false, [⟨63, 0, .ro, .num 0⟩]⟩,
   -- SCRUB_UNCORR
   ⟨.stack, 0x30018, 1, 0x0, true, false, [⟨63, 0, .ro, .num 0⟩]⟩,
   -- SCRUB_SKIPPED
   ⟨.stack, 0x30020, 1, 0x0, true, false, [⟨63, 0, .ro, .num 0⟩]⟩,
   -- SCRUB_LAST
   ⟨.stack, 0x30028, 1, 0x0, true, false, [⟨63, 63, .ro, .num 0⟩, ⟨62, 62, .w1c, .num 0⟩, ⟨52, 46, .ro, .num 0⟩, ⟨45, 0, .ro, .num 0⟩]⟩]

/-- Near-bank (R316). -/
def rows12 : List RegRow :=
  [-- NB_MODE
   ⟨.stack, 0x20000, 64, 0x400, false, false, [⟨0, 0, .rw, .num 0⟩]⟩,
   -- NB_STATUS
   ⟨.stack, 0x20004, 64, 0x400, false, false, [⟨24, 16, .ro, .num 0⟩, ⟨13, 8, .ro, .num 0⟩, ⟨2, 2, .ro, .num 0⟩, ⟨1, 1, .ro, .num 0⟩, ⟨0, 0, .ro, .num 0⟩]⟩,
   -- NB_CONFIG
   ⟨.stack, 0x20008, 64, 0x400, false, false, [⟨21, 16, .rw, .num 0x20⟩, ⟨0, 0, .rw, .num 1⟩]⟩,
   -- NB_THROTTLE
   ⟨.stack, 0x2000c, 64, 0x400, false, false, [⟨15, 0, .ro, .num 0⟩]⟩,
   -- NB_FLAGS
   ⟨.stack, 0x20010, 64, 0x400, false, false, [⟨3, 3, .w1c, .num 0⟩, ⟨2, 2, .w1c, .num 0⟩, ⟨1, 1, .w1c, .num 0⟩, ⟨0, 0, .w1c, .num 0⟩]⟩,
   -- NB_REFUSED
   ⟨.stack, 0x20014, 64, 0x400, false, false, [⟨31, 16, .ro, .num 0⟩, ⟨15, 0, .ro, .num 0⟩]⟩,
   -- NB_BAD
   ⟨.stack, 0x20018, 64, 0x400, false, false, [⟨31, 0, .ro, .num 0⟩]⟩,
   -- NB_COMMANDS
   ⟨.stack, 0x20020, 64, 0x400, true, false, [⟨63, 0, .ro, .num 0⟩]⟩,
   -- NB_HOLDS
   ⟨.stack, 0x20028, 64, 0x400, true, false, [⟨63, 0, .ro, .num 0⟩]⟩,
   -- NB_HOLD_TIME
   ⟨.stack, 0x20030, 64, 0x400, true, false, [⟨63, 0, .ro, .num 0⟩]⟩,
   -- NB_REBUILDS
   ⟨.stack, 0x20038, 64, 0x400, true, false, [⟨63, 0, .ro, .num 0⟩]⟩,
   -- NB_YIELD_WAIT
   ⟨.stack, 0x20040, 64, 0x400, true, false, [⟨63, 0, .ro, .num 0⟩]⟩,
   -- NB_LAST_LONG
   ⟨.stack, 0x20048, 64, 0x400, true, false, [⟨63, 48, .ro, .num 0⟩, ⟨47, 47, .w1c, .num 0⟩, ⟨45, 0, .ro, .num 0⟩]⟩]

/-- Update unit (R362). -/
def rows14 : List RegRow :=
  [-- UPD_STATUS
   ⟨.stack, 0x40000, 1, 0x0, false, false, [⟨24, 16, .ro, .num 0⟩, ⟨14, 8, .ro, .num 0⟩, ⟨2, 2, .ro, .num 0⟩, ⟨1, 1, .ro, .num 0⟩, ⟨0, 0, .ro, .num 0⟩]⟩,
   -- UPD_CONFIG
   ⟨.stack, 0x40004, 1, 0x0, false, false, [⟨31, 31, .w1c, .num 0⟩, ⟨2, 0, .rw, .num 1⟩]⟩,
   -- UPD_TABLE
   ⟨.stack, 0x40008, 1, 0x0, true, false, [⟨45, 16, .rw, .num 0⟩]⟩,
   -- UPD_LENT
   ⟨.stack, 0x40010, 1, 0x0, true, false, [⟨63, 0, .ro, .num 0⟩]⟩,
   -- UPD_FAULT
   ⟨.stack, 0x40018, 1, 0x0, true, false, [⟨63, 32, .ro, .num 0⟩, ⟨31, 22, .ro, .num 0⟩, ⟨15, 8, .ro, .num 0⟩, ⟨7, 4, .ro, .num 0⟩, ⟨0, 0, .w1c, .num 0⟩]⟩,
   -- UPD_FOLDS
   ⟨.stack, 0x40020, 1, 0x0, false, false, [⟨31, 0, .ro, .num 0⟩]⟩,
   -- UPD_STALLS
   ⟨.stack, 0x40024, 1, 0x0, false, false, [⟨31, 0, .ro, .num 0⟩]⟩,
   -- UPD_RECONS
   ⟨.stack, 0x40028, 1, 0x0, true, false, [⟨63, 0, .ro, .num 0⟩]⟩,
   -- UPD_DRIFT_LAST
   ⟨.stack, 0x40030, 1, 0x0, true, false, [⟨63, 56, .ro, .num 0⟩, ⟨55, 46, .ro, .num 0⟩, ⟨32, 32, .w1c, .num 0⟩, ⟨31, 0, .ro, .num 0⟩]⟩,
   -- UPD_ELEMENTS
   ⟨.stack, 0x40038, 1, 0x0, true, false, [⟨63, 0, .ro, .num 0⟩]⟩,
   -- UPD_LR
   ⟨.stack, 0x40100, 8, 0x80, false, false, [⟨31, 0, .rw, .num 0⟩]⟩,
   -- UPD_PLR
   ⟨.stack, 0x40104, 8, 0x80, false, false, [⟨31, 0, .rw, .num 0⟩]⟩,
   -- UPD_BETA1
   ⟨.stack, 0x40108, 8, 0x80, false, false, [⟨31, 0, .rw, .num 0⟩]⟩,
   -- UPD_BETA2
   ⟨.stack, 0x4010c, 8, 0x80, false, false, [⟨31, 0, .rw, .num 0⟩]⟩,
   -- UPD_DECAY
   ⟨.stack, 0x40110, 8, 0x80, false, false, [⟨31, 0, .rw, .num 0⟩]⟩,
   -- UPD_GAMMA
   ⟨.stack, 0x40114, 8, 0x80, false, false, [⟨31, 0, .rw, .num 0⟩]⟩,
   -- UPD_EPS
   ⟨.stack, 0x40118, 8, 0x80, false, false, [⟨31, 0, .rw, .num 0⟩]⟩,
   -- UPD_ITER
   ⟨.stack, 0x4011c, 8, 0x80, false, false, [⟨31, 16, .rw, .num 1⟩, ⟨2, 0, .rw, .num 5⟩]⟩,
   -- UPD_SEED
   ⟨.stack, 0x40120, 8, 0x80, true, false, [⟨63, 0, .rw, .num 0⟩]⟩]

/-- Bilo (R389). -/
def rows15 : List RegRow :=
  [-- BILO_ID
   ⟨.package, 0x60000, 1, 0x0, false, false, [⟨31, 31, .rw, .num 0⟩, ⟨13, 0, .rw, .num 0⟩]⟩,
   -- BILO_STATUS
   ⟨.package, 0x60004, 1, 0x0, false, false, [⟨15, 8, .ro, .num 0⟩, ⟨7, 0, .ro, .num 0⟩]⟩,
   -- BILO_BARROW_BASE
   ⟨.package, 0x60008, 1, 0x0, true, false, [⟨45, 20, .rw, .num 0⟩]⟩,
   -- BILO_TIMEOUT
   ⟨.package, 0x60010, 1, 0x0, false, false, [⟨31, 0, .rw, .num 0x186a0⟩]⟩,
   -- BILO_COMMAND
   ⟨.package, 0x60014, 1, 0x0, false, false, [⟨31, 31, .w1s, .num 0⟩, ⟨30, 30, .ro, .num 0⟩, ⟨29, 26, .ro, .num 0⟩, ⟨25, 24, .rw, .num 0⟩, ⟨19, 8, .rw, .num 0⟩, ⟨7, 0, .rw, .num 0⟩]⟩,
   -- BILO_EXCUSE
   ⟨.package, 0x60018, 1, 0x0, true, false, [⟨63, 0, .rw, .num 0⟩]⟩,
   -- BILO_DUP
   ⟨.package, 0x60020, 1, 0x0, true, false, [⟨63, 0, .ro, .num 0⟩]⟩,
   -- BILO_SATURATED
   ⟨.package, 0x60028, 1, 0x0, false, false, [⟨31, 0, .ro, .num 0⟩]⟩,
   -- BILO_MISSING
   ⟨.package, 0x6002c, 1, 0x0, false, false, [⟨31, 0, .ro, .num 0⟩]⟩,
   -- BILO_LAST
   ⟨.package, 0x60030, 1, 0x0, true, false, [⟨63, 52, .ro, .num 0⟩, ⟨51, 44, .ro, .num 0⟩, ⟨43, 30, .ro, .num 0⟩, ⟨1, 1, .ro, .num 0⟩, ⟨0, 0, .w1c, .num 0⟩]⟩,
   -- BILO_NO_DEVICE
   ⟨.package, 0x60038, 1, 0x0, false, false, [⟨31, 0, .ro, .num 0⟩]⟩,
   -- BPORT_CONTROL
   ⟨.package, 0x60100, 8, 0x20, false, false, [⟨1, 1, .w1s, .num 0⟩, ⟨0, 0, .rw, .num 0⟩]⟩,
   -- BPORT_STATUS
   ⟨.package, 0x60104, 8, 0x20, false, false, [⟨31, 31, .ro, .num 0⟩, ⟨30, 30, .ro, .num 0⟩, ⟨29, 16, .ro, .num 0⟩, ⟨15, 15, .ro, .num 0⟩, ⟨14, 14, .ro, .num 0⟩, ⟨3, 0, .ro, .num 0⟩]⟩,
   -- BPORT_CODEWORDS
   ⟨.package, 0x60108, 8, 0x20, true, false, [⟨63, 0, .ro, .num 0⟩]⟩,
   -- BPORT_CORRECTED
   ⟨.package, 0x60110, 8, 0x20, false, false, [⟨31, 0, .ro, .num 0⟩]⟩,
   -- BPORT_UNCORRECTED
   ⟨.package, 0x60114, 8, 0x20, false, false, [⟨31, 0, .ro, .num 0⟩]⟩,
   -- BPORT_RETRIES
   ⟨.package, 0x60118, 8, 0x20, false, false, [⟨31, 0, .ro, .num 0⟩]⟩,
   -- BPORT_DOWNS
   ⟨.package, 0x6011c, 8, 0x20, false, false, [⟨31, 0, .ro, .num 0⟩]⟩,
   -- BILO_ROUTE
   ⟨.package, 0x68000, 4096, 0x4, false, false, [⟨31, 0, .rw, .num 0⟩]⟩]

/-- Host interface (R408). -/
def rows16 : List RegRow :=
  [-- HIF_STATUS
   ⟨.package, 0x50000, 1, 0x0, false, false, [⟨12, 12, .w1c, .num 0⟩, ⟨11, 11, .w1c, .num 0⟩, ⟨10, 9, .ro, .num 0⟩, ⟨8, 8, .ro, .num 0⟩, ⟨7, 5, .ro, .num 0⟩, ⟨4, 4, .ro, .num 0⟩, ⟨3, 0, .ro, .num 0⟩]⟩,
   -- HIF_REST
   ⟨.package, 0x50004, 1, 0x0, false, false, [⟨1, 1, .w1c, .num 0⟩, ⟨0, 0, .w1s, .num 0⟩]⟩,
   -- HIF_BAR2_BASE
   ⟨.package, 0x50008, 1, 0x0, true, false, [⟨45, 30, .rw, .num 0⟩]⟩,
   -- HIF_HOLD_LIMIT
   ⟨.package, 0x50010, 1, 0x0, false, false, [⟨31, 0, .rw, .num 0xc350⟩]⟩,
   -- HIF_UNMAPPED
   ⟨.package, 0x50014, 1, 0x0, false, false, [⟨31, 0, .ro, .num 0⟩]⟩,
   -- HIF_ABORTS
   ⟨.package, 0x50018, 1, 0x0, false, false, [⟨31, 0, .ro, .num 0⟩]⟩,
   -- HIF_LAUNCHES
   ⟨.package, 0x50020, 1, 0x0, true, false, [⟨63, 0, .ro, .num 0⟩]⟩,
   -- Q_CONTROL
   ⟨.package, 0x50100, 64, 0x20, false, false, [⟨31, 31, .rw, .num 0⟩, ⟨30, 30, .w1c, .num 0⟩, ⟨10, 0, .rw, .num 0⟩]⟩,
   -- Q_HEAD
   ⟨.package, 0x50104, 64, 0x20, false, false, [⟨7, 0, .ro, .num 0⟩]⟩,
   -- Q_TAIL
   ⟨.package, 0x50108, 64, 0x20, false, false, [⟨7, 0, .rw, .num 0⟩]⟩,
   -- Q_CHEAD
   ⟨.package, 0x5010c, 64, 0x20, false, false, [⟨7, 0, .rw, .num 0⟩]⟩,
   -- Q_CTAIL
   ⟨.package, 0x50110, 64, 0x20, false, false, [⟨8, 8, .ro, .num 1⟩, ⟨7, 0, .ro, .num 0⟩]⟩,
   -- Q_REFUSED
   ⟨.package, 0x50114, 64, 0x20, false, false, [⟨31, 0, .ro, .num 0⟩]⟩,
   -- HIF_VECMAP
   ⟨.package, 0x51004, 1023, 0x4, false, false, [⟨31, 31, .rw, .num 0⟩, ⟨10, 0, .rw, .num 0⟩]⟩]

/-- Interrupt controllers (R422, R423). -/
def rows17 : List RegRow :=
  [-- ICC_STATUS
   ⟨.core, 0x3000, 1, 0x0, false, false, [⟨31, 31, .ro, .num 0⟩, ⟨19, 16, .ro, .num 0⟩, ⟨15, 12, .ro, .num 0⟩, ⟨5, 0, .ro, .num 0⟩]⟩,
   -- ICC_CLAIM
   ⟨.core, 0x3004, 1, 0x0, false, false, [⟨5, 0, .rw, .num 0⟩]⟩,
   -- ICC_EOI
   ⟨.core, 0x3008, 1, 0x0, false, false, [⟨5, 0, .wo, .num 0⟩]⟩,
   -- ICC_STACK_CTL
   ⟨.core, 0x300c, 1, 0x0, false, false, [⟨0, 0, .w1s, .num 0⟩]⟩,
   -- ICC_FAULT
   ⟨.core, 0x3010, 1, 0x0, false, false, [⟨31, 31, .w1c, .num 0⟩, ⟨23, 23, .ro, .num 0⟩, ⟨19, 16, .ro, .num 0⟩, ⟨13, 8, .ro, .num 0⟩, ⟨5, 0, .ro, .num 0⟩]⟩,
   -- ICC_SEND
   ⟨.core, 0x3014, 1, 0x0, false, false, [⟨9, 0, .wo, .num 0⟩]⟩,
   -- ICC_PENDING
   ⟨.core, 0x3018, 1, 0x0, true, false, [⟨63, 1, .w1c, .num 0⟩]⟩,
   -- ICC_ENABLE
   ⟨.core, 0x3020, 1, 0x0, true, false, [⟨63, 1, .rw, .num 0x7fff8000000003ff⟩]⟩,
   -- ICC_RAISE
   ⟨.core, 0x3028, 1, 0x0, true, false, [⟨63, 48, .w1s, .num 0⟩]⟩,
   -- ICC_STACK
   ⟨.core, 0x3040, 8, 0x4, false, false, [⟨31, 31, .ro, .num 0⟩, ⟨11, 8, .ro, .num 0⟩, ⟨5, 0, .ro, .num 0⟩]⟩,
   -- ICC_SRC
   ⟨.core, 0x3104, 63, 0x4, false, false, [⟨31, 31, .rw, .source⟩, ⟨3, 0, .rw, .source⟩]⟩,
   -- ICP_STATUS
   ⟨.package, 0x10000, 1, 0x0, false, false, [⟨31, 31, .ro, .num 0⟩, ⟨19, 16, .ro, .num 0⟩, ⟨15, 12, .ro, .num 0⟩, ⟨9, 0, .ro, .num 0⟩]⟩,
   -- ICP_CLAIM
   ⟨.package, 0x10004, 1, 0x0, false, false, [⟨9, 0, .rw, .num 0⟩]⟩,
   -- ICP_EOI
   ⟨.package, 0x10008, 1, 0x0, false, false, [⟨9, 0, .wo, .num 0⟩]⟩,
   -- ICP_STACK_CTL
   ⟨.package, 0x1000c, 1, 0x0, false, false, [⟨0, 0, .w1s, .num 0⟩]⟩,
   -- ICP_FAULT
   ⟨.package, 0x10010, 1, 0x0, true, false, [⟨63, 63, .w1c, .num 0⟩, ⟨55, 55, .ro, .num 0⟩, ⟨51, 48, .ro, .num 0⟩, ⟨41, 32, .ro, .num 0⟩, ⟨9, 0, .ro, .num 0⟩]⟩,
   -- ICP_STACK
   ⟨.package, 0x10040, 8, 0x4, false, false, [⟨31, 31, .ro, .num 0⟩, ⟨15, 12, .ro, .num 0⟩, ⟨9, 0, .ro, .num 0⟩]⟩,
   -- ICP_PENDING0
   ⟨.package, 0x10100, 1, 0x0, true, false, [⟨63, 1, .w1c, .num 0⟩]⟩,
   -- ICP_PENDING
   ⟨.package, 0x10108, 15, 0x8, true, false, [⟨63, 0, .w1c, .num 0⟩]⟩,
   -- ICP_ENABLE0
   ⟨.package, 0x10200, 1, 0x0, true, false, [⟨63, 1, .rw, .num 0x7fffffffffffffff⟩]⟩,
   -- ICP_ENABLE
   ⟨.package, 0x10208, 15, 0x8, true, false, [⟨63, 0, .rw, .num 0xffffffffffffffff⟩]⟩,
   -- ICP_RAISE
   ⟨.package, 0x10320, 12, 0x8, true, false, [⟨63, 0, .w1s, .num 0⟩]⟩,
   -- ICP_FWD
   ⟨.package, 0x10400, 16, 0x8, true, false, [⟨63, 0, .w1c, .num 0⟩]⟩,
   -- ICP_PRI
   ⟨.package, 0x11004, 1023, 0x4, false, false, [⟨3, 0, .rw, .priority⟩]⟩]

/-- Power and thermal (R447 to R449). -/
def rows18 : List RegRow :=
  [-- SPWR_STATUS
   ⟨.stack, 0x50000, 1, 0x0, false, false, [⟨31, 16, .ro, .num 0x258⟩, ⟨2, 0, .ro, .num 7⟩]⟩,
   -- SPWR_MIN_MV
   ⟨.stack, 0x50004, 1, 0x0, false, false, [⟨15, 0, .ro, .num 0⟩]⟩,
   -- SPWR_DROOPS
   ⟨.stack, 0x50008, 1, 0x0, true, false, [⟨63, 0, .ro, .num 0⟩]⟩,
   -- SPWR_CEIL
   ⟨.stack, 0x50010, 1, 0x0, false, false, [⟨6, 4, .ro, .num 0⟩, ⟨2, 0, .ro, .num 0⟩]⟩,
   -- STHM_BENCH
   ⟨.stack, 0x50400, 16, 0x4, false, false, [⟨31, 16, .ro, .num 0⟩, ⟨15, 0, .ro, .num 0⟩]⟩,
   -- STHM_SUSPECT
   ⟨.stack, 0x50440, 1, 0x0, false, false, [⟨15, 0, .w1c, .num 0⟩]⟩,
   -- STHM_MARKS
   ⟨.stack, 0x50444, 1, 0x0, false, false, [⟨15, 0, .ro, .num 0⟩]⟩,
   -- STHM_GAIN
   ⟨.stack, 0x50448, 1, 0x0, false, false, [⟨15, 0, .rw, .num 0⟩]⟩,
   -- STHM_CORE_HOT
   ⟨.stack, 0x5044c, 1, 0x0, false, false, [⟨21, 16, .ro, .num 0⟩, ⟨15, 0, .ro, .num 0⟩]⟩,
   -- PWR_STATUS
   ⟨.package, 0x30000, 1, 0x0, false, false, [⟨31, 16, .ro, .num 0⟩, ⟨15, 15, .ro, .num 0⟩, ⟨14, 14, .ro, .num 0⟩, ⟨6, 4, .ro, .num 0⟩, ⟨2, 0, .ro, .num 0⟩]⟩,
   -- PWR_CAP
   ⟨.package, 0x30004, 1, 0x0, false, false, [⟨10, 0, .rw, .num 0x44c⟩]⟩,
   -- PWR_HOST_STEP
   ⟨.package, 0x30008, 1, 0x0, false, false, [⟨2, 0, .rw, .num 0⟩]⟩,
   -- PWR_FRAME_SEQ
   ⟨.package, 0x3000c, 1, 0x0, false, false, [⟨31, 0, .ro, .num 0⟩]⟩,
   -- PWR_TIME_REF
   ⟨.package, 0x30010, 1, 0x0, true, false, [⟨63, 0, .rw, .num 0⟩]⟩,
   -- PWR_TIME_LATCH
   ⟨.package, 0x30018, 1, 0x0, true, false, [⟨63, 0, .ro, .num 0⟩]⟩,
   -- PWR_LIMIT
   ⟨.package, 0x30100, 26, 0x4, false, false, [⟨15, 0, .rw, .limit⟩]⟩,
   -- THM_HOT
   ⟨.package, 0x40000, 1, 0x0, false, false, [⟨31, 16, .ro, .num 0⟩, ⟨15, 0, .ro, .num 0⟩]⟩,
   -- THM_HOTID
   ⟨.package, 0x40004, 1, 0x0, false, false, [⟨25, 16, .ro, .num 0⟩, ⟨7, 4, .ro, .num 0⟩, ⟨3, 0, .ro, .num 0⟩]⟩,
   -- THM_COOLANT_T
   ⟨.package, 0x40008, 1, 0x0, false, false, [⟨31, 16, .ro, .num 0⟩, ⟨15, 0, .ro, .num 0⟩]⟩,
   -- THM_COOLANT_F
   ⟨.package, 0x4000c, 1, 0x0, false, false, [⟨31, 16, .ro, .num 0⟩, ⟨15, 0, .ro, .num 0⟩]⟩,
   -- THM_TRIP
   ⟨.package, 0x40010, 1, 0x0, false, true, [⟨31, 31, .w1c, .num 0⟩, ⟨30, 29, .ro, .num 0⟩, ⟨28, 25, .ro, .num 0⟩, ⟨24, 16, .ro, .num 0⟩, ⟨15, 0, .ro, .num 0⟩]⟩]

/-- Bring-up (R478). -/
def rows19 : List RegRow :=
  [-- BRG_STATUS
   ⟨.package, 0x20000, 1, 0x0, false, false, [⟨31, 31, .ro, .num 0⟩, ⟨30, 30, .ro, .num 0⟩, ⟨29, 29, .ro, .num 0⟩, ⟨28, 28, .w1c, .num 0⟩, ⟨27, 25, .ro, .num 0⟩, ⟨24, 24, .ro, .num 0⟩]⟩,
   -- BRG_COMMAND
   ⟨.package, 0x20004, 1, 0x0, false, false, [⟨31, 31, .w1s, .num 0⟩, ⟨8, 8, .rw, .num 0⟩, ⟨2, 0, .rw, .num 0⟩]⟩,
   -- BRG_RESULT
   ⟨.package, 0x20008, 1, 0x0, false, false, [⟨31, 29, .ro, .num 0⟩, ⟨28, 27, .ro, .num 0⟩, ⟨23, 20, .ro, .num 0⟩, ⟨15, 0, .ro, .num 0⟩]⟩,
   -- BRG_SLOT
   ⟨.package, 0x2000c, 1, 0x0, false, false, [⟨31, 0, .rw, .num 0⟩]⟩,
   -- BRG_RESET
   ⟨.package, 0x20010, 1, 0x0, false, false, [⟨31, 31, .w1s, .num 0⟩, ⟨30, 30, .ro, .num 0⟩, ⟨29, 29, .rw, .num 0⟩, ⟨28, 28, .w1s, .num 0⟩, ⟨27, 27, .w1c, .num 0⟩, ⟨25, 24, .rw, .num 0⟩, ⟨15, 0, .rw, .num 0⟩]⟩,
   -- BRG_STACK_DOWN
   ⟨.package, 0x20014, 1, 0x0, false, false, [⟨15, 0, .ro, .num 0⟩]⟩,
   -- BRG_RECORD
   ⟨.package, 0x20018, 1, 0x0, false, false, [⟨31, 31, .ro, .num 0⟩, ⟨30, 30, .ro, .num 0⟩, ⟨29, 29, .ro, .num 0⟩, ⟨17, 0, .ro, .num 0⟩]⟩,
   -- BRG_RECORD_SEQ
   ⟨.package, 0x2001c, 1, 0x0, false, false, [⟨31, 0, .ro, .num 0⟩]⟩,
   -- BRG_LAST_FULL
   ⟨.package, 0x20020, 1, 0x0, true, false, [⟨63, 0, .ro, .num 0⟩]⟩,
   -- BRG_VCSEL
   ⟨.package, 0x20028, 1, 0x0, false, false, [⟨10, 7, .rw, .num 0⟩, ⟨6, 0, .rw, .num 0⟩]⟩,
   -- BRG_PAIRS
   ⟨.package, 0x20040, 48, 0x4, false, false, [⟨31, 0, .ro, .num 0⟩]⟩]

/-- Security and debug (R492, R495, R496). -/
def rows20 : List RegRow :=
  [-- CDBG_CONTROL
   ⟨.core, 0x8000, 1, 0x0, false, false, [⟨2, 2, .w1s, .num 0⟩, ⟨1, 1, .ro, .num 0⟩, ⟨0, 0, .rw, .num 0⟩]⟩,
   -- CDBG_PC
   ⟨.core, 0x8008, 1, 0x0, true, false, [⟨63, 0, .rw, .num 0⟩]⟩,
   -- CDBG_G
   ⟨.core, 0x8100, 32, 0x8, true, false, [⟨63, 0, .rw, .num 0⟩]⟩,
   -- SEC_STATUS
   ⟨.package, 0x70000, 1, 0x0, false, false, [⟨6, 6, .ro, .num 0⟩, ⟨5, 5, .ro, .num 0⟩, ⟨4, 4, .ro, .num 0⟩, ⟨3, 3, .ro, .num 0⟩, ⟨2, 2, .ro, .num 0⟩, ⟨1, 1, .ro, .num 0⟩, ⟨0, 0, .ro, .num 0⟩]⟩,
   -- SEC_BOOTCOUNT
   ⟨.package, 0x70004, 1, 0x0, false, false, [⟨31, 0, .ro, .num 0⟩]⟩,
   -- SEC_SVN
   ⟨.package, 0x70008, 1, 0x0, false, false, [⟨31, 16, .ro, .num 0⟩, ⟨15, 0, .ro, .num 0⟩]⟩,
   -- SEC_CONFIG_SEQ
   ⟨.package, 0x7000c, 1, 0x0, false, false, [⟨31, 0, .ro, .num 0⟩]⟩,
   -- SEC_FLOOR
   ⟨.package, 0x70010, 1, 0x0, false, false, [⟨6, 0, .ro, .num 0⟩]⟩,
   -- SEC_ATTEST
   ⟨.package, 0x70014, 1, 0x0, false, false, [⟨31, 31, .w1s, .num 0⟩, ⟨30, 30, .ro, .num 0⟩, ⟨29, 29, .w1c, .num 0⟩]⟩,
   -- SEC_EXTEND
   ⟨.package, 0x70018, 1, 0x0, false, false, [⟨31, 31, .w1s, .num 0⟩, ⟨30, 30, .ro, .num 0⟩, ⟨29, 29, .w1c, .num 0⟩, ⟨2, 0, .rw, .num 0⟩]⟩,
   -- SEC_UPDATE
   ⟨.package, 0x7001c, 1, 0x0, false, false, [⟨31, 31, .w1s, .num 0⟩, ⟨30, 30, .ro, .num 0⟩, ⟨29, 26, .ro, .num 0⟩, ⟨25, 24, .rw, .num 0⟩, ⟨23, 23, .rw, .num 0⟩, ⟨15, 0, .rw, .num 0⟩]⟩,
   -- SEC_CERT_LEN
   ⟨.package, 0x70400, 1, 0x0, false, false, [⟨31, 0, .ro, .num 0⟩]⟩,
   -- DBG_STATUS
   ⟨.package, 0x80000, 1, 0x0, false, false, [⟨3, 3, .ro, .num 0⟩, ⟨2, 2, .ro, .num 0⟩, ⟨1, 0, .ro, .num 0⟩]⟩,
   -- DBG_CONTROL
   ⟨.package, 0x80004, 1, 0x0, false, false, [⟨2, 2, .w1s, .num 0⟩, ⟨1, 1, .w1s, .num 0⟩, ⟨0, 0, .w1s, .num 0⟩]⟩,
   -- DBG_RESULT
   ⟨.package, 0x80008, 1, 0x0, false, false, [⟨31, 31, .w1c, .num 0⟩, ⟨3, 0, .ro, .num 0⟩]⟩,
   -- DBG_EXPIRY
   ⟨.package, 0x8000c, 1, 0x0, false, false, [⟨31, 0, .ro, .num 0⟩]⟩,
   -- DBG_ADDR
   ⟨.package, 0x80200, 1, 0x0, true, false, [⟨45, 0, .rw, .num 0⟩]⟩,
   -- DBG_DATA
   ⟨.package, 0x80208, 1, 0x0, true, false, [⟨63, 0, .rw, .num 0⟩]⟩,
   -- DBG_OP
   ⟨.package, 0x80210, 1, 0x0, false, false, [⟨31, 31, .w1s, .num 0⟩, ⟨30, 30, .ro, .num 0⟩, ⟨29, 29, .w1c, .num 0⟩, ⟨2, 2, .rw, .num 0⟩, ⟨1, 0, .rw, .num 0⟩]⟩]

/-- Shutter (R517). -/
def rows21 : List RegRow :=
  [-- SHUT_STATUS
   ⟨.package, 0x100000, 1, 0x0, false, false, [⟨7, 7, .ro, .num 0⟩, ⟨6, 6, .w1c, .num 0⟩, ⟨5, 5, .w1c, .num 0⟩, ⟨4, 4, .ro, .num 0⟩, ⟨3, 2, .ro, .num 0⟩, ⟨1, 1, .ro, .num 0⟩, ⟨0, 0, .ro, .num 0⟩]⟩,
   -- SHUT_CONTROL
   ⟨.package, 0x100004, 1, 0x0, false, false, [⟨0, 0, .w1s, .num 0⟩]⟩,
   -- SHUT_INPUT
   ⟨.package, 0x100008, 1, 0x0, false, false, [⟨31, 16, .ro, .num 0⟩, ⟨15, 0, .ro, .num 0⟩]⟩,
   -- SHUT_HOLDCAP
   ⟨.package, 0x10000c, 1, 0x0, false, false, [⟨31, 16, .ro, .num 0⟩, ⟨15, 0, .ro, .num 0⟩]⟩,
   -- SHUT_SAVE_SEQ
   ⟨.package, 0x100010, 1, 0x0, false, false, [⟨31, 0, .ro, .num 0⟩]⟩,
   -- SHUT_SAGS
   ⟨.package, 0x100014, 1, 0x0, false, false, [⟨31, 0, .ro, .num 0⟩]⟩]

/-- Event ring (R526). -/
def rows22 : List RegRow :=
  [-- EVT_HEAD
   ⟨.package, 0x90000, 1, 0x0, false, false, [⟨16, 0, .ro, .num 0⟩]⟩,
   -- EVT_TAIL
   ⟨.package, 0x90004, 1, 0x0, false, false, [⟨16, 0, .rw, .num 0⟩]⟩,
   -- EVT_DROPPED
   ⟨.package, 0x90008, 1, 0x0, false, false, [⟨31, 0, .rc, .num 0⟩]⟩,
   -- EVT_SEQ
   ⟨.package, 0x9000c, 1, 0x0, false, false, [⟨31, 0, .ro, .num 0⟩]⟩]

/-- The 21 coefficients of each rule set of the update unit (R362). -/
def rowsCoef : List RegRow :=
  (List.range 21).map fun i => ⟨.stack, 0x40128 + 4 * i, 8, 0x80, false, false, [⟨31, 0, .rw, .num 0⟩]⟩

/-- Every register. -/
def regRows : List RegRow :=
  rows03 ++ rows04 ++ rows05 ++ rows06 ++ rows07 ++ rows08 ++ rows09 ++ rows10 ++ rows11 ++ rows12 ++ rows14 ++ rows15 ++ rows16 ++ rows17 ++ rows18 ++ rows19 ++ rows20 ++ rows21 ++ rows22 ++ rowsCoef

/-! Offsets within their regions -/

abbrev CORE_ID : Nat := 0x0
abbrev CORE_STATE : Nat := 0x4
abbrev CORE_CLOCK : Nat := 0x8
abbrev CORE_CYCLES : Nat := 0x10
abbrev CORE_ISSUE_STALL : Nat := 0x18
abbrev CORE_SP_CONFLICT : Nat := 0x20
abbrev CORE_SP_WAIT : Nat := 0x28
abbrev CORE_SP_STARVE : Nat := 0x30
abbrev CORE_XW_COLLIDE : Nat := 0x34
abbrev CORE_XW_LAST : Nat := 0x38
abbrev CORE_SP_ECC : Nat := 0x40
abbrev CORE_MOVE_FAULT : Nat := 0x48
abbrev CORE_HAUL_ROWS : Nat := 0x50
abbrev CORE_HAUL_TURN : Nat := 0x58
abbrev PITCH : Nat := 0x1000
abbrev PITCH_FAULT : Nat := 0x1100
abbrev PITCH_COUNT : Nat := 0x1108
abbrev TALLY_STATUS : Nat := 0x2000
abbrev TALLY_WAIT_LIMIT : Nat := 0x2004
abbrev TALLY_CONTROL : Nat := 0x2008
abbrev TALLY_POISON : Nat := 0x200c
abbrev TALLY_HEAD : Nat := 0x2010
abbrev TALLY_REPLAYS : Nat := 0x2018
abbrev TALLY_FAILED : Nat := 0x2020
abbrev TALLY_HOLDS : Nat := 0x2028
abbrev TALLY_SELECT : Nat := 0x2030
abbrev TALLY_ENTRY : Nat := 0x2038
abbrev TALLY_QHEAD : Nat := 0x2040
abbrev ICC_STATUS : Nat := 0x3000
abbrev ICC_CLAIM : Nat := 0x3004
abbrev ICC_EOI : Nat := 0x3008
abbrev ICC_STACK_CTL : Nat := 0x300c
abbrev ICC_FAULT : Nat := 0x3010
abbrev ICC_SEND : Nat := 0x3014
abbrev ICC_PENDING : Nat := 0x3018
abbrev ICC_ENABLE : Nat := 0x3020
abbrev ICC_RAISE : Nat := 0x3028
abbrev ICC_STACK : Nat := 0x3040
abbrev ICC_SRC : Nat := 0x3104
abbrev ENG0_STATUS : Nat := 0x4000
abbrev ENG0_FLAGS : Nat := 0x4004
abbrev ENG0_RES_COUNT : Nat := 0x4008
abbrev ENG0_RES_LIMIT : Nat := 0x400c
abbrev ENG0_SUSPECT : Nat := 0x4010
abbrev ENG0_FAULT : Nat := 0x4018
abbrev ENG0_BLOCKS : Nat := 0x4020
abbrev ENG0_STALLS : Nat := 0x4028
abbrev ENG0_INJECT : Nat := 0x4030
abbrev VU_STATUS : Nat := 0x5000
abbrev VU_FLAGS : Nat := 0x5004
abbrev VU_OPS : Nat := 0x5008
abbrev VU_FAULT : Nat := 0x5010
abbrev NI_STATUS : Nat := 0x6000
abbrev NI_RECV_LIMIT : Nat := 0x6004
abbrev NI_RECV_WAIT : Nat := 0x6008
abbrev NI_LINKS : Nat := 0x600c
abbrev NI_RETRIES : Nat := 0x6010
abbrev NI_QUAR : Nat := 0x6018
abbrev NI_QUAR_LAST : Nat := 0x6020
abbrev NI_MERGE_WAIT : Nat := 0x6028
abbrev NI_MERGE : Nat := 0x6040
abbrev TOK_COUNT : Nat := 0x7004
abbrev TOK_OVERFLOW : Nat := 0x7040
abbrev TOK_SENT : Nat := 0x7048
abbrev TOK_RECEIVED : Nat := 0x7050
abbrev TOK_SENT_DROP : Nat := 0x7058
abbrev TOK_TARGET : Nat := 0x7080
abbrev CDBG_CONTROL : Nat := 0x8000
abbrev CDBG_PC : Nat := 0x8008
abbrev CDBG_G : Nat := 0x8100
abbrev VC_STATUS : Nat := 0x10000
abbrev VC_BENCH_RATE : Nat := 0x10004
abbrev VC_REFRESH : Nat := 0x10008
abbrev VC_CLEAR : Nat := 0x1000c
abbrev VC_REPAIR : Nat := 0x10010
abbrev VC_SPARES : Nat := 0x10014
abbrev VC_HAUL_RETRY : Nat := 0x10018
abbrev VC_ROWS : Nat := 0x10020
abbrev VC_REFRESHES : Nat := 0x10028
abbrev VC_VALID_MISS : Nat := 0x10030
abbrev VC_ZERO_READS : Nat := 0x10038
abbrev VC_RMW : Nat := 0x10040
abbrev NB_MODE : Nat := 0x20000
abbrev NB_STATUS : Nat := 0x20004
abbrev NB_CONFIG : Nat := 0x20008
abbrev NB_THROTTLE : Nat := 0x2000c
abbrev NB_FLAGS : Nat := 0x20010
abbrev NB_REFUSED : Nat := 0x20014
abbrev NB_BAD : Nat := 0x20018
abbrev NB_COMMANDS : Nat := 0x20020
abbrev NB_HOLDS : Nat := 0x20028
abbrev NB_HOLD_TIME : Nat := 0x20030
abbrev NB_REBUILDS : Nat := 0x20038
abbrev NB_YIELD_WAIT : Nat := 0x20040
abbrev NB_LAST_LONG : Nat := 0x20048
abbrev SCRUB_CONTROL : Nat := 0x30000
abbrev SCRUB_STATUS : Nat := 0x30004
abbrev SCRUB_PASSES : Nat := 0x30008
abbrev SCRUB_DIAG : Nat := 0x3000c
abbrev SCRUB_CORRECTED : Nat := 0x30010
abbrev SCRUB_UNCORR : Nat := 0x30018
abbrev SCRUB_SKIPPED : Nat := 0x30020
abbrev SCRUB_LAST : Nat := 0x30028
abbrev UPD_STATUS : Nat := 0x40000
abbrev UPD_CONFIG : Nat := 0x40004
abbrev UPD_TABLE : Nat := 0x40008
abbrev UPD_LENT : Nat := 0x40010
abbrev UPD_FAULT : Nat := 0x40018
abbrev UPD_FOLDS : Nat := 0x40020
abbrev UPD_STALLS : Nat := 0x40024
abbrev UPD_RECONS : Nat := 0x40028
abbrev UPD_DRIFT_LAST : Nat := 0x40030
abbrev UPD_ELEMENTS : Nat := 0x40038
abbrev UPD_LR : Nat := 0x40100
abbrev UPD_PLR : Nat := 0x40104
abbrev UPD_BETA1 : Nat := 0x40108
abbrev UPD_BETA2 : Nat := 0x4010c
abbrev UPD_DECAY : Nat := 0x40110
abbrev UPD_GAMMA : Nat := 0x40114
abbrev UPD_EPS : Nat := 0x40118
abbrev UPD_ITER : Nat := 0x4011c
abbrev UPD_SEED : Nat := 0x40120
abbrev UPD_COEF : Nat := 0x40128
abbrev SPWR_STATUS : Nat := 0x50000
abbrev SPWR_MIN_MV : Nat := 0x50004
abbrev SPWR_DROOPS : Nat := 0x50008
abbrev SPWR_CEIL : Nat := 0x50010
abbrev STHM_BENCH : Nat := 0x50400
abbrev STHM_SUSPECT : Nat := 0x50440
abbrev STHM_MARKS : Nat := 0x50444
abbrev STHM_GAIN : Nat := 0x50448
abbrev STHM_CORE_HOT : Nat := 0x5044c
abbrev SLOW_STATUS : Nat := 0x70000
abbrev SLOW_CLEAR : Nat := 0x70004
abbrev SLOW_LINK_RETRY : Nat := 0x70008
abbrev SLOW_READS : Nat := 0x70010
abbrev SLOW_WRITES : Nat := 0x70018
abbrev SLOW_CHECK_MISS : Nat := 0x70020
abbrev ICP_STATUS : Nat := 0x10000
abbrev ICP_CLAIM : Nat := 0x10004
abbrev ICP_EOI : Nat := 0x10008
abbrev ICP_STACK_CTL : Nat := 0x1000c
abbrev ICP_FAULT : Nat := 0x10010
abbrev ICP_STACK : Nat := 0x10040
abbrev ICP_PENDING0 : Nat := 0x10100
abbrev ICP_PENDING : Nat := 0x10108
abbrev ICP_ENABLE0 : Nat := 0x10200
abbrev ICP_ENABLE : Nat := 0x10208
abbrev ICP_RAISE : Nat := 0x10320
abbrev ICP_FWD : Nat := 0x10400
abbrev ICP_PRI : Nat := 0x11004
abbrev BRG_STATUS : Nat := 0x20000
abbrev BRG_COMMAND : Nat := 0x20004
abbrev BRG_RESULT : Nat := 0x20008
abbrev BRG_SLOT : Nat := 0x2000c
abbrev BRG_RESET : Nat := 0x20010
abbrev BRG_STACK_DOWN : Nat := 0x20014
abbrev BRG_RECORD : Nat := 0x20018
abbrev BRG_RECORD_SEQ : Nat := 0x2001c
abbrev BRG_LAST_FULL : Nat := 0x20020
abbrev BRG_VCSEL : Nat := 0x20028
abbrev BRG_PAIRS : Nat := 0x20040
abbrev PWR_STATUS : Nat := 0x30000
abbrev PWR_CAP : Nat := 0x30004
abbrev PWR_HOST_STEP : Nat := 0x30008
abbrev PWR_FRAME_SEQ : Nat := 0x3000c
abbrev PWR_TIME_REF : Nat := 0x30010
abbrev PWR_TIME_LATCH : Nat := 0x30018
abbrev PWR_LIMIT : Nat := 0x30100
abbrev THM_HOT : Nat := 0x40000
abbrev THM_HOTID : Nat := 0x40004
abbrev THM_COOLANT_T : Nat := 0x40008
abbrev THM_COOLANT_F : Nat := 0x4000c
abbrev THM_TRIP : Nat := 0x40010
abbrev HIF_STATUS : Nat := 0x50000
abbrev HIF_REST : Nat := 0x50004
abbrev HIF_BAR2_BASE : Nat := 0x50008
abbrev HIF_HOLD_LIMIT : Nat := 0x50010
abbrev HIF_UNMAPPED : Nat := 0x50014
abbrev HIF_ABORTS : Nat := 0x50018
abbrev HIF_LAUNCHES : Nat := 0x50020
abbrev Q_CONTROL : Nat := 0x50100
abbrev Q_HEAD : Nat := 0x50104
abbrev Q_TAIL : Nat := 0x50108
abbrev Q_CHEAD : Nat := 0x5010c
abbrev Q_CTAIL : Nat := 0x50110
abbrev Q_REFUSED : Nat := 0x50114
abbrev HIF_VECMAP : Nat := 0x51004
abbrev BILO_ID : Nat := 0x60000
abbrev BILO_STATUS : Nat := 0x60004
abbrev BILO_BARROW_BASE : Nat := 0x60008
abbrev BILO_TIMEOUT : Nat := 0x60010
abbrev BILO_COMMAND : Nat := 0x60014
abbrev BILO_EXCUSE : Nat := 0x60018
abbrev BILO_DUP : Nat := 0x60020
abbrev BILO_SATURATED : Nat := 0x60028
abbrev BILO_MISSING : Nat := 0x6002c
abbrev BILO_LAST : Nat := 0x60030
abbrev BILO_NO_DEVICE : Nat := 0x60038
abbrev BPORT_CONTROL : Nat := 0x60100
abbrev BPORT_STATUS : Nat := 0x60104
abbrev BPORT_CODEWORDS : Nat := 0x60108
abbrev BPORT_CORRECTED : Nat := 0x60110
abbrev BPORT_UNCORRECTED : Nat := 0x60114
abbrev BPORT_RETRIES : Nat := 0x60118
abbrev BPORT_DOWNS : Nat := 0x6011c
abbrev BILO_ROUTE : Nat := 0x68000
abbrev SEC_STATUS : Nat := 0x70000
abbrev SEC_BOOTCOUNT : Nat := 0x70004
abbrev SEC_SVN : Nat := 0x70008
abbrev SEC_CONFIG_SEQ : Nat := 0x7000c
abbrev SEC_FLOOR : Nat := 0x70010
abbrev SEC_ATTEST : Nat := 0x70014
abbrev SEC_EXTEND : Nat := 0x70018
abbrev SEC_UPDATE : Nat := 0x7001c
abbrev SEC_CERT_LEN : Nat := 0x70400
abbrev DBG_STATUS : Nat := 0x80000
abbrev DBG_CONTROL : Nat := 0x80004
abbrev DBG_RESULT : Nat := 0x80008
abbrev DBG_EXPIRY : Nat := 0x8000c
abbrev DBG_ADDR : Nat := 0x80200
abbrev DBG_DATA : Nat := 0x80208
abbrev DBG_OP : Nat := 0x80210
abbrev EVT_HEAD : Nat := 0x90000
abbrev EVT_TAIL : Nat := 0x90004
abbrev EVT_DROPPED : Nat := 0x90008
abbrev EVT_SEQ : Nat := 0x9000c
abbrev MAP_SUB : Nat := 0xa0000
abbrev MAP_EPOCH : Nat := 0xa0040
abbrev MAP_COMMAND : Nat := 0xa0080
abbrev MAP_STATUS : Nat := 0xa0084
abbrev MAP_QUAR : Nat := 0xa0088
abbrev SHUT_STATUS : Nat := 0x100000
abbrev SHUT_CONTROL : Nat := 0x100004
abbrev SHUT_INPUT : Nat := 0x100008
abbrev SHUT_HOLDCAP : Nat := 0x10000c
abbrev SHUT_SAVE_SEQ : Nat := 0x100010
abbrev SHUT_SAGS : Nat := 0x100014

/-- The base of logical core c's control block (R8). -/
def coreBase (c : Nat) : Nat := 0x3F0000000000 + 0x10000 * c
/-- The base of stack s's block (R8). -/
def stackBase (s : Nat) : Nat := 0x3F0100000000 + 0x100000 * s
/-- The base of the package block (R8). -/
def pkgBase : Nat := 0x3F0200000000

/-- The reset value of a field in copy i of its register. -/
def RstVal.value (f : RegField) (i : Nat) : Nat :=
  match f.reset with
  | .num n => n
  | .pitch =>
    -- R102: pitch 0 of masters 0, 1, 2, 3 and 5 covers the whole scratchpad, read and write
    if i % 8 = 0 ∧ i / 8 ∈ [0, 1, 2, 3, 5] then (if f.hi = 28 then 0x1FFF else 1) else 0
  | .source =>
    -- R410; copy i is source i + 1
    let n := i + 1
    if f.hi = 31 then (if n ∈ [1, 2, 3, 4, 7, 9, 10] then 1 else 0)
    else if n ≤ 10 then [12, 12, 12, 10, 4, 6, 10, 4, 14, 15].getD i 0
    else if 48 ≤ n then 8 else 0
  | .priority => if i + 1 = 35 then 15 else 8
  | .limit => (if i < 4 then 9000 else if i < 20 then 6000 else if i = 20 then 11000 else if i < 25 then 5500 else 300)

/-- The reset value of copy i of a register (R11, R13). -/
def RegRow.resetValue (r : RegRow) (i : Nat) : W64 :=
  r.fields.foldl (fun a f => a ||| BitVec.ofNat 64 (RstVal.value f i * 2 ^ f.lo)) 0

/-- A register found at a device address: its row, the core or stack that owns it, the copy and the register's own
address. -/
structure RegHit where
  row : RegRow
  owner : Nat
  idx : Nat
  base : Nat
  deriving DecidableEq, Repr

/-- The copy of a row that holds an offset of its region. -/
def RegRow.covers (r : RegRow) (off : Nat) : Option Nat :=
  let bytes := if r.wide then 8 else 4
  if off < r.off then none
  else
    let i := if r.stride = 0 then 0 else (off - r.off) / r.stride
    if i < r.count ∧ off - r.off - i * r.stride < bytes then some i else none

/-- Region, owner and offset of a device address (R8). -/
def regionOf (a : Nat) : Option (Region × Nat × Nat) :=
  if 0x3F0000000000 ≤ a ∧ a < 0x3F0004000000 then
    some (.core, (a - 0x3F0000000000) / 0x10000, (a - 0x3F0000000000) % 0x10000)
  else if 0x3F0100000000 ≤ a ∧ a < 0x3F0101000000 then
    some (.stack, (a - 0x3F0100000000) / 0x100000, (a - 0x3F0100000000) % 0x100000)
  else if 0x3F0200000000 ≤ a ∧ a < 0x3F0201000000 then some (.package, 0, a - 0x3F0200000000)
  else none

/-- The base of a region's block. -/
def Region.base : Region → Nat → Nat
  | .core, c => coreBase c
  | .stack, s => stackBase s
  | .package, _ => pkgBase

/-- The register that occupies a device address, if one does (R10). -/
def findReg (a : Nat) : Option RegHit :=
  match regionOf a with
  | none => none
  | some (rg, o, off) =>
    regRows.findSome? fun r =>
      if r.region = rg then (r.covers off).map fun i => ⟨r, o, i, rg.base o + r.off + i * r.stride⟩ else none

/-- What a register unlisted in the state reads as: its reset value. -/
def regDefault (a : Nat) : W64 :=
  match findReg a with
  | some h => h.row.resetValue h.idx
  | none => 0

end Sys2Proof.Machine
end

