-- ==== Sys2Proof/Machine/SMap.lean ====
section
/-! DEFINITION. Sparse maps in canonical form: keys strictly rising, no entry equal to what its key reads as unlisted. -/

namespace Sys2Proof.Machine

/-- The value at a key; `d` is what an unlisted key reads as. -/
def smGet {α : Type} (d : α) : List (Nat × α) → Nat → α
  | [], _ => d
  | (k, v) :: m, a => if k = a then v else smGet d m a

/-- The map without a key. -/
def smErase {α : Type} : List (Nat × α) → Nat → List (Nat × α)
  | [], _ => []
  | (k, v) :: m, a => if k = a then smErase m a else (k, v) :: smErase m a

/-- The map with a key listed at a value. -/
def smInsert {α : Type} : List (Nat × α) → Nat → α → List (Nat × α)
  | [], a, x => [(a, x)]
  | (k, v) :: m, a, x =>
    if k = a then (a, x) :: m else if a < k then (a, x) :: (k, v) :: m else (k, v) :: smInsert m a x

/-- The map with a key at a value: unlisted where the value is what the key reads as unlisted. -/
def smSet {α : Type} [DecidableEq α] (d : α) (m : List (Nat × α)) (a : Nat) (x : α) : List (Nat × α) :=
  if x = d then smErase m a else smInsert m a x

/-- The map with every key from lo to below hi unlisted. -/
def smClear {α : Type} (m : List (Nat × α)) (lo hi : Nat) : List (Nat × α) :=
  m.filter fun p => p.1 < lo || hi ≤ p.1

/-- The entries of n keys from lo on, as entries of the keys from a on. -/
def smTake {α : Type} (m : List (Nat × α)) (lo n a : Nat) : List (Nat × α) :=
  (m.filter fun p => decide (lo ≤ p.1) && decide (p.1 < lo + n)).map fun p => (p.1 - lo + a, p.2)

/-- The map with entries listed. -/
def smPut {α : Type} (m es : List (Nat × α)) : List (Nat × α) := es.foldl (fun m p => smInsert m p.1 p.2) m

/-- Consecutive keys from `a` set to the listed values. -/
def smSetList {α : Type} [DecidableEq α] (d : α) (m : List (Nat × α)) : Nat → List α → List (Nat × α)
  | _, [] => m
  | a, x :: xs => smSetList d (smSet d m a x) (a + 1) xs

/-- The values of n consecutive keys. -/
def smGetList {α : Type} (d : α) (m : List (Nat × α)) (a n : Nat) : List α :=
  (List.range n).map fun i => smGet d m (a + i)

/-- Keys strictly rising from above a bound. -/
def smSorted {α : Type} : Option Nat → List (Nat × α) → Bool
  | _, [] => true
  | none, (k, _) :: m => smSorted (some k) m
  | some b, (k, _) :: m => decide (b < k) && smSorted (some k) m

/-- The canonical form, for one unlisted value. -/
def smWf {α : Type} [DecidableEq α] (d : α) (m : List (Nat × α)) : Bool :=
  smSorted none m && m.all fun p => decide (p.2 ≠ d)

end Sys2Proof.Machine
end

