-- ==== Sys2Proof/Machine/Ops.lean ====
section
/-! DEFINITION. The named operations over the state: parts of the module, registers as stored, counters, crier messages,
events (R524, R525) and interrupt requests (R412, R413, R405). -/

namespace Sys2Proof.Machine

/-! ### Parts -/

namespace State

/-- Logical core c. -/
def core (s : State) (c : Nat) : Core := smGet Core.reset s.cores c
def setCore (s : State) (c : Nat) (k : Core) : State := { s with cores := smSet Core.reset s.cores c k }
def modCore (s : State) (c : Nat) (f : Core → Core) : State := s.setCore c (f (s.core c))
/-- The logical vault of core c (R247). -/
def vault (s : State) (c : Nat) : Vault := smGet Vault.reset s.vaults c
def setVault (s : State) (c : Nat) (v : Vault) : State := { s with vaults := smSet Vault.reset s.vaults c v }
def modVault (s : State) (c : Nat) (f : Vault → Vault) : State := s.setVault c (f (s.vault c))
/-- Stack t. -/
def stack (s : State) (t : Nat) : Stack := smGet Stack.reset s.stackMap t
def setStack (s : State) (t : Nat) (v : Stack) : State := { s with stackMap := smSet Stack.reset s.stackMap t v }
def modStack (s : State) (t : Nat) (f : Stack → Stack) : State := s.setStack t (f (s.stack t))
/-- The accumulate segment of number n: device address over 4 KiB (R185). -/
def seg (s : State) (n : Nat) : Seg := smGet Seg.reset s.segs n
def setSeg (s : State) (n : Nat) (g : Seg) : State := { s with segs := smSet Seg.reset s.segs n g }
/-- Bilo port p's link layer. -/
def port (s : State) (p : Nat) : Port := smGet Port.reset s.bilo.ports p
def setPort (s : State) (p : Nat) (v : Port) : State :=
  { s with bilo := { s.bilo with ports := smSet Port.reset s.bilo.ports p v } }
def modNet (s : State) (f : Net → Net) : State := { s with net := f s.net }
def modBilo (s : State) (f : Bilo → Bilo) : State := { s with bilo := f s.bilo }
def modHost (s : State) (f : HostSide → HostSide) : State := { s with host := f s.host }
def modWarden (s : State) (f : Warden → Warden) : State := { s with warden := f s.warden }
def modFlash (s : State) (f : Flash → Flash) : State :=
  s.modWarden fun w => { w with flash := f w.flash }

/-- One byte of device memory as stored. -/
def byte (s : State) (a : Nat) : Byte := smGet 0 s.mem a
/-- n bytes as stored. -/
def bytes (s : State) (a n : Nat) : List Byte := smGetList 0 s.mem a n
/-- Bytes stored at consecutive addresses. -/
def setBytes (s : State) (a : Nat) (bs : List Byte) : State := { s with mem := smSetList 0 s.mem a bs }
/-- Bytes from lo to below hi made 0. -/
def zeroBytes (s : State) (lo hi : Nat) : State := { s with mem := smClear s.mem lo hi }

end State

/-- The engine of a core: engine 1 where `e`. -/
def Core.engine (k : Core) (e : Bool) : Engine := if e then k.e1 else k.e0
def Core.setEngine (k : Core) (e : Bool) (v : Engine) : Core := if e then { k with e1 := v } else { k with e0 := v }

/-- A free value: the manual gives none (log entry 3). -/
def State.takeFree (s : State) : W64 × State := (Config.freeValue s.freeCtr, { s with freeCtr := s.freeCtr + 1 })

/-! ### Registers as stored -/

/-- Bits hi to lo of a value. -/
def bits (v : W64) (hi lo : Nat) : Nat := (v.toNat / 2 ^ lo) % 2 ^ (hi - lo + 1)

/-- A value with bits hi to lo replaced. -/
def putBits (v : W64) (hi lo n : Nat) : W64 :=
  let m := 2 ^ (hi - lo + 1)
  BitVec.ofNat 64 (v.toNat - (v.toNat / 2 ^ lo % m) * 2 ^ lo + (n % m) * 2 ^ lo)

namespace State

/-- The stored value of the register at a device address. -/
def reg (s : State) (a : Nat) : W64 := smGet (regDefault a) s.regs a
def setReg (s : State) (a : Nat) (v : W64) : State := { s with regs := smSet (regDefault a) s.regs a v }
/-- A field of a stored register. -/
def fld (s : State) (a hi lo : Nat) : Nat := bits (s.reg a) hi lo
def setFld (s : State) (a hi lo n : Nat) : State := s.setReg a (putBits (s.reg a) hi lo n)
/-- Whether bit b of a register is set. -/
def bit (s : State) (a b : Nat) : Bool := s.fld a b b == 1
def setBit (s : State) (a b : Nat) (v : Bool) : State := s.setFld a b b (if v then 1 else 0)
/-- A counter field that saturates, advanced by n (R518). -/
def addSat (s : State) (a hi lo n : Nat) : State :=
  s.setFld a hi lo (min (s.fld a hi lo + n) (2 ^ (hi - lo + 1) - 1))
/-- A 64-bit counter advanced by n. -/
def count (s : State) (a : Nat) (n : Nat := 1) : State := s.setReg a (s.reg a + BitVec.ofNat 64 n)
/-- Bits or-ed into a register. -/
def orReg (s : State) (a : Nat) (v : W64) : State := s.setReg a (s.reg a ||| v)

/-- A register of core c, stack t or the package, by offset. -/
def cReg (s : State) (c off : Nat) : W64 := s.reg (coreBase c + off)
def sReg (s : State) (t off : Nat) : W64 := s.reg (stackBase t + off)
def pReg (s : State) (off : Nat) : W64 := s.reg (pkgBase + off)

end State

/-- The device address of a register of core c, stack t, the package; of vault v's window in a VC_ or NB_ block. -/
def cA (c off : Nat) : Nat := coreBase c + off
def sA (t off : Nat) : Nat := stackBase t + off
def pA (off : Nat) : Nat := pkgBase + off
/-- A register of the window of core c's vault (R269, R316). -/
def vA (c off : Nat) : Nat := stackBase (c / 64) + off + 0x400 * (c % 64)
/-- A register of engine `e` of core c (R75). -/
def eA (c : Nat) (e : Bool) (off : Nat) : Nat := coreBase c + off + if e then 0x800 else 0

/-! ### The map (R222, R223) -/

/-- The SUB word of stack t in the copies of the map that stack v holds (R237). -/
def State.subWord (s : State) (v t : Nat) : W32 := smGet (0xFFFFFFFF : W32) s.net.subs (v * 16 + t)

/-- SUB_r of a stack as its own routers hold it. -/
def State.sub (s : State) (t r : Nat) : Nat := (s.subWord t t).toNat / 16 ^ r % 16

/-- The physical core that serves a logical one, laid out as CORE_ID.PHYS: stack [10:7], row [6:4], column [3:0]. -/
def State.physOf (s : State) (c : Nat) : Nat :=
  let t := c / 64
  let r := c / 8 % 8
  let j := c % 8
  t * 128 + r * 16 + if s.sub t r = j then 8 else j

/-- Package coordinates of a logical core (R222). -/
def gridX (c : Nat) : Nat := c / 64 % 4 * 8 + c % 8
def gridY (c : Nat) : Nat := c / 256 * 8 + c / 8 % 8
/-- The logical core at package coordinates. -/
def gridCore (x y : Nat) : Nat := (y / 8 * 4 + x / 8) * 64 + y % 8 * 8 + x % 8

/-- The map epoch of stack t in the copies of the map that stack v holds (R237). -/
def State.epochAt (s : State) (v t : Nat) : Byte := smGet 0 s.net.epochs (v * 16 + t)
/-- The map epoch of a stack in its own copies. -/
def State.epoch (s : State) (t : Nat) : Byte := s.epochAt t t

/-- The map epoch of stack t in the copy that the router and network interface of a logical core hold: the new one where a change in
progress has reached them (R240). -/
def State.nodeEpoch (s : State) (c t : Nat) : Byte :=
  match s.net.change with
  | some (u, _) =>
    if u = t ∧ s.net.told.contains c then (s.reg (pA MAP_EPOCH + 4 * t)).setWidth 8 else s.epochAt (c / 64) t
  | none => s.epochAt (c / 64) t

/-- Stack t's SUB word and epoch in the copies that stack v holds. -/
def State.setMapCopy (s : State) (v t : Nat) (sub : W32) (epoch : Byte) : State :=
  s.modNet fun n => { n with subs := smSet 0xFFFFFFFF n.subs (v * 16 + t) sub, epochs := smSet 0 n.epochs (v * 16 + t) epoch }

/-- The same in every stack's copies. -/
def State.setMapCopies (s : State) (t : Nat) (sub : W32) (epoch : Byte) : State :=
  (List.range 16).foldl (fun s v => s.setMapCopy v t sub epoch) s

/-- A stack that is down: BRG_STACK_DOWN (R465). -/
def State.stackDown (s : State) (t : Nat) : Bool := s.bit (pA BRG_STACK_DOWN) t

/-! ### MSI-X (R405) -/

/-- What an unlisted byte of BAR0 reads as: vectors masked (log entry 6), else 0. -/
def bar0Default (a : Nat) : Byte := if 0x11C0000 ≤ a ∧ a < 0x11C8000 ∧ a % 16 = 12 then 1 else 0

def State.bar0 (s : State) (a n : Nat) : List Byte :=
  (List.range n).map fun i => smGet (bar0Default (a + i)) s.host.bar0 (a + i)

def State.setBar0 (s : State) (a : Nat) : List Byte → State
  | [] => s
  | b :: bs =>
    State.setBar0 (s.modHost fun h => { h with bar0 := smSet (bar0Default a) h.bar0 a b }) (a + 1) bs

/-- A trigger of R407: in Rest the wake begins; one that comes while the module enters Rest, once it rests. DESIGN CHOICE (log entry
146): the manual does not name that case. In D3hot WAKE# is asserted with it (R504). -/
def State.trigger (s : State) : State :=
  s.modHost fun h => { h with woken := h.woken || h.d3hot, restPhase := if h.restPhase = 1 then 3 else h.restPhase,
                              turn := h.turn || h.restPhase = 2 }

/-- The message of a vector: sent, or its pending bit set while the vector is masked; kept until D0 in D3hot (R407), and until the wake
is complete in Rest and wake (R421). -/
def State.sendMsix (s : State) (v : Nat) : State :=
  let e := 0x11C0000 + 16 * v
  if s.host.d3hot ∨ s.host.restPhase = 1 ∨ s.host.restPhase = 3 then s.modHost fun h => { h with deferred := h.deferred ++ [v] }
  else if (ofLeBytes (s.bar0 (e + 12) 4)) % 2 = 1 then
    s.modHost fun h => { h with pba := if v ∈ h.pba then h.pba else h.pba ++ [v] }
  else
    s.modHost fun h => { h with msix := h.msix ++
      [(v, BitVec.ofNat 64 (ofLeBytes (s.bar0 e 8)), BitVec.ofNat 32 (ofLeBytes (s.bar0 (e + 8) 4)))] }

/-- The register and bit of package source n in a bank of 64-bit words (R423). -/
def icpWord (first : Nat) (n : Nat) : Nat := pA first + 8 * (n / 64)

/-- A request to the package controller (R412): pending if enabled, one message if mapped (R405); it wakes the module, in D3hot with a
PME message (R407). -/
def State.raisePkg (s : State) (n : Nat) : State :=
  if n = 0 ∨ 1023 < n then s
  else if !s.bit (icpWord ICP_ENABLE0 n) (n % 64) then s
  else if s.bit (icpWord ICP_PENDING0 n) (n % 64) then s
  else
    let s := s.setBit (icpWord ICP_PENDING0 n) (n % 64) true
    let s : State := if s.host.d3hot then s.modHost fun h => { h with pme := h.pme + 1, pmeStatus := true } else s
    let s := s.trigger
    let m := pA HIF_VECMAP + 4 * (n - 1)
    if s.bit m 31 then s.sendMsix (s.fld m 10 0) else s

/-! ### Crier messages and events -/

/-- A message handed to the crier network (R242). -/
def State.crier (s : State) (m : Crier) : State := s.modNet fun n => { n with msgs := n.msgs ++ [m] }

/-- Whether message i is the first of its source and destination in flight (R243). -/
def State.crierFirst (s : State) (i : Nat) : Bool :=
  match s.net.msgs[i]? with
  | none => false
  | some m => (s.net.msgs.take i).all fun n => !(n.src == m.src && n.dest == m.dest && n.kind == m.kind)

/-- The network without message i. -/
def State.dropMsg (s : State) (i : Nat) : State := s.modNet fun n => { n with msgs := n.msgs.eraseIdx i }

/-- The package source that an event raises (R411, R494). -/
def Event.raises (e : Event) : Option Nat :=
  if e.cls = 0x50 ∨ e.cls = 0x51 then some 38
  else if e.cls = 0x80 then some 40
  else if e.cls = 0x40 then some 35
  else if e.cls = 0x30 ∧ (e.code = 7 ∨ e.code = 8) then some 37
  else none

/-- An event record offered to the warden (R524, R525): a fault notice on the crier network, and its package source. -/
def State.offer (s : State) (e : Event) : State :=
  let s : State := match e.raises with
    | some n => s.raisePkg n
    | none => s
  s.crier { typ := 4, kind := 2, dest := 0, src := (if e.isStack then 0x3FF else e.source.toNat),
            arg := BitVec.ofNat 6 e.cls.toNat, payload := e.code.setWidth 32, event := some e }

/-- An event of a core (R82, R524). -/
def State.evCore (s : State) (c cls code : Nat) (payload : Nat := 0) : State :=
  s.offer { cls := BitVec.ofNat 8 cls, code := BitVec.ofNat 8 code, source := BitVec.ofNat 10 c, isStack := false,
            island := (s.cReg c CORE_CYCLES).setWidth 32, payload := BitVec.ofNat 128 payload }

/-- An event a base die raises of a core's vault: SOURCE names the core, the count is the base die's. -/
def State.evVault (s : State) (c cls code : Nat) (payload : Nat := 0) : State :=
  s.offer { cls := BitVec.ofNat 8 cls, code := BitVec.ofNat 8 code, source := BitVec.ofNat 10 c, isStack := false,
            island := (s.stack (c / 64)).cycles.setWidth 32, payload := BitVec.ofNat 128 payload }

/-- An event that names a stack, with the count of the island that raises it. -/
def State.evNaming (s : State) (t : Nat) (island : W64) (cls code payload : Nat) : State :=
  s.offer { cls := BitVec.ofNat 8 cls, code := BitVec.ofNat 8 code, source := BitVec.ofNat 10 t, isStack := true,
            island := island.setWidth 32, payload := BitVec.ofNat 128 payload }

/-- An event of a stack's base die or steward: SOURCE names the stack. -/
def State.evStack (s : State) (t cls code : Nat) (payload : Nat := 0) : State :=
  s.evNaming t (s.stack t).cycles cls code payload

/-- An event of the warden about a stack, stack 0 where it is about none. -/
def State.evWarden (s : State) (t cls code : Nat) (payload : Nat := 0) : State := s.evNaming t s.now cls code payload

/-! ### Interrupt requests -/

/-- A request to core c's controller (R412): pending if enabled; a forwarded source sends one TYPE 2 message each time it
becomes pending (R413). -/
def State.raiseCore (s : State) (c n : Nat) : State :=
  if n = 0 ∨ 63 < n then s
  else if !s.bit (cA c ICC_ENABLE) n then s
  else if s.bit (cA c ICC_PENDING) n then s
  else
    let s := s.setBit (cA c ICC_PENDING) n true
    if s.bit (cA c ICC_SRC + 4 * (n - 1)) 31 then
      s.crier { typ := 2, kind := 2, dest := 0, src := c, arg := 0, payload := BitVec.ofNat 32 (c / 64 + 1), event := none }
    else s

/-- Withdrawal of a core's request (R412). -/
def State.withdrawCore (s : State) (c n : Nat) : State := s.setBit (cA c ICC_PENDING) n false
/-- Withdrawal of a package request (R412). -/
def State.withdrawPkg (s : State) (n : Nat) : State := s.setBit (icpWord ICP_PENDING0 n) (n % 64) false

end Sys2Proof.Machine
end

