-- ==== Sys2Proof/Machine/Mem.lean ====
section
/-! DEFINITION. Reading and writing stored data with its protection: scratchpads (R85), the fast tier (R259, R260,
R271 to R278) and the slow tier (R265, R266, R279 to R281). Data travels as bytes each with its poison flag. -/

namespace Sys2Proof.Machine

/-- A byte with its poison flag. -/
abbrev PByte := Byte × Bool

def plain (bs : List Byte) : List PByte := bs.map (·, false)
def dataOf (ps : List PByte) : List Byte := ps.map (·.1)
def anyPoison (ps : List PByte) : Bool := ps.any (·.2)

/-- What a device address names (R246). -/
inductive Target where
  | fast (core : Nat)
  | slow (channel : Nat)
  | sp (core off : Nat)
  | nbWindow
  | register
  | nothing
  deriving DecidableEq, Repr

def spBase (c : Nat) : Nat := 0x3E0000000000 + 0x200000 * c

def classify (a : Nat) : Target :=
  if a < 0x020000000000 then .fast (a / 2 ^ 31)
  else if 0x040000000000 ≤ a ∧ a < 0x04F000000000 then .slow ((a - 0x040000000000) / 4096 % 16)
  else if 0x100000000000 ≤ a ∧ a < 0x120000000000 then .nbWindow
  else if 0x3E0000000000 ≤ a ∧ a < 0x3E0080000000 then .sp ((a - 0x3E0000000000) / 0x200000) (a % 0x200000)
  else if 0x3F0000000000 ≤ a ∧ a < 0x3F0004000000 then .register
  else if 0x3F0100000000 ≤ a ∧ a < 0x3F0101000000 then .register
  else if 0x3F0200000000 ≤ a ∧ a < 0x3F0201000000 then .register
  else .nothing

/-- The aligned units of `size` bytes that n bytes from a touch. -/
def unitsOf (size a n : Nat) : List Nat :=
  if n = 0 then []
  else (List.range ((a + n - 1) / size - a / size + 1)).map fun i => (a / size + i) * size

/-- The part of bytes at address a that lies in the unit at u: offset in the unit, bytes. -/
def partOf {α : Type} (size a : Nat) (ps : List α) (u : Nat) : Nat × List α :=
  if a ≤ u then (0, (ps.drop (u - a)).take size) else (a - u, ps.take (size - (a - u)))

/-! ### Scratchpads (R83 to R85) -/

/-- The mark of the unit at a device address: 0 good, 1 poisoned, 2 + b one flipped bit, from 100 two. -/
def State.spMarkAt (s : State) (u : Nat) : Nat := smGet 0 s.spMark u
def State.setSpMark (s : State) (u m : Nat) : State := { s with spMark := smSet 0 s.spMark u m }

/-- A scratchpad unit made poisoned (R275): zero data, its mark. -/
def State.poisonUnit (s : State) (u : Nat) : State := (s.zeroBytes u (u + 8)).setSpMark u 1

/-- The check of a unit on an access (R85): a corrected error is written back and reported, an uncorrectable one poisons
the unit and is reported; the unit's poison. -/
def State.checkUnit (s : State) (c u : Nat) : State × Bool :=
  let m := s.spMarkAt u
  if m = 0 then (s, false)
  else if m = 1 then (s, true)
  else if m < 100 then
    (((s.setSpMark u 0).addSat (cA c CORE_SP_ECC) 15 0 1).evCore c 0x01 0x20, false)
  else if Config.doubleLooksPoisoned (u % 0x200000) ((m - 100) / 72) ((m - 100) % 72) then (s.poisonUnit u, true)
  else (((s.poisonUnit u).addSat (cA c CORE_SP_ECC) 31 16 1).evCore c 0x02 0x20, true)

/-- n scratchpad bytes of core c from device address a. -/
def State.readUnits (s : State) (c a n : Nat) : State × List PByte :=
  let got := (unitsOf 8 a n).foldl (fun (acc : State × List PByte) u =>
    let got := acc.1.checkUnit c u
    let s := got.1
    let bad := got.2
    (s, acc.2 ++ (s.bytes u 8).map (·, bad))) (s, [])
  let s := got.1
  let ps := got.2
  (s, (ps.drop (a % 8)).take n)

/-- n bytes of core c's scratchpad. -/
def State.readSp (s : State) (c off n : Nat) : State × List PByte := s.readUnits c (spBase c + off) n

/-- Scratchpad bytes of core c written from device address a; true where a narrow write met a poisoned unit and wrote nothing
into it. -/
def State.writeUnits (s : State) (c a : Nat) (ps : List PByte) : State × Bool :=
  (unitsOf 8 a ps.length).foldl (fun (acc : State × Bool) u =>
    let got := acc
    let s := got.1
    let met := got.2
    let got := partOf 8 a ps u
    let o := got.1
    let part := got.2
    if part.length = 8 then
      if anyPoison part then (s.poisonUnit u, met) else ((s.setBytes u (dataOf part)).setSpMark u 0, met)
    else
      let got := s.checkUnit c u
      let s := got.1
      let bad := got.2
      if bad then (s, true)
      else if anyPoison part then (s.poisonUnit u, met)
      else (s.setBytes (u + o) (dataOf part), met)) (s, false)

/-- Bytes written into core c's scratchpad. -/
def State.writeSp (s : State) (c off : Nat) (ps : List PByte) : State × Bool := s.writeUnits c (spBase c + off) ps

/-! ### The fast tier -/

def rowBase (a : Nat) : Nat := a / 512 * 512
def wordBase (a : Nat) : Nat := a / 64 * 64

def State.rowValid (s : State) (a : Nat) : Bool := smGet false s.valid (rowBase a)
def State.setValid (s : State) (a : Nat) (v : Bool) : State := { s with valid := smSet false s.valid (rowBase a) v }
def State.rowSummary (s : State) (a : Nat) : Bool := smGet false s.summary (rowBase a)
def State.setSummary (s : State) (a : Nat) (v : Bool) : State :=
  { s with summary := smSet false s.summary (rowBase a) v }
def State.fastSynAt (s : State) (w : Nat) : Nat := (smGet (0 : W64) s.fastSyn w).toNat
def State.setFastSyn (s : State) (w syn : Nat) : State :=
  { s with fastSyn := smSet 0 s.fastSyn w (BitVec.ofNat 64 syn) }

/-- The vault (its owning core) of a fast-tier address, and bank (bench × 8 + bank) and row in it (R247). -/
def vaultOf (a : Nat) : Nat := a / 2 ^ 31
def bankOf (a : Nat) : Nat := a / 2 ^ 24 % 128
def rowOf (a : Nat) : Nat := a / 512 % 32768

/-- A lookup of a row's reserved row in the vault controller's cache (R259): least recently used of 128 displaced. -/
def State.reservedLookup (s : State) (a : Nat) (summaryRow : Bool) : State :=
  let c := vaultOf a
  let r := bankOf a * 16 + rowOf a / 4096 + if summaryRow then 8 else 0
  let hit := (s.vault c).cached.contains r
  let s := s.modVault c fun v => { v with cached := (r :: v.cached.filter (· ≠ r)).take 128 }
  if hit then s else s.count (vA c VC_VALID_MISS)

/-- The summary bit of a row set (R277). -/
def State.markSummary (s : State) (a : Nat) : State := (s.reservedLookup a true).setSummary a true

/-- A word's pending write-back dropped (R278). -/
def State.dropBack (s : State) (w : Nat) : State :=
  let v := s.vault (vaultOf w)
  if v.writeBacks.any (·.1 == w) then
    s.modVault (vaultOf w) fun v => { v with writeBacks := v.writeBacks.filter (·.1 ≠ w) }
  else s

/-- A word's write-back kept until its bank's queue is empty (R278): the corrected bytes, or none for a poisoned word. -/
def State.keepBack (s : State) (w : Nat) (fix : Option (List Byte)) : State :=
  s.modVault (vaultOf w) fun v => { v with writeBacks := v.writeBacks.filter (·.1 ≠ w) ++ [(w, fix)] }

/-- A word stored whole (R274, R275). -/
def State.storeWord (s : State) (w : Nat) (ps : List PByte) : State :=
  let s := s.dropBack w
  if anyPoison ps then ((s.zeroBytes w (w + 64)).setFastSyn w poisonQ).markSummary w
  else (s.setBytes w (dataOf ps)).setFastSyn w 0

/-- The payload of the memory events (R289). -/
def memPayload (a place : Nat) (scrub diag again : Bool) (phys : Nat) : Nat :=
  a + place * 2 ^ 46 + (if scrub then 2 ^ 53 else 0) + (if diag then 2 ^ 54 else 0) + (if again then 2 ^ 55 else 0)
    + phys * 2 ^ 64

/-- Why a word is read. -/
inductive ReadKind where
  | access | diag | scrub | repair
  deriving DecidableEq, Repr

/-- SCRUB_LAST (R284, R290). -/
def State.recordFix (s : State) (t a place : Nat) (uncorr : Bool) : State :=
  s.setReg (sA t SCRUB_LAST) (BitVec.ofNat 64 ((if uncorr then 2 ^ 63 else 0) + 2 ^ 62 + place * 2 ^ 46 + a))

/-- A word of a valid row, decoded (R273): an error is reported, and its fix written at once by the scrubber and a repair
and left pending after an access (R278, R284). `again` marks a row corrected while remembered (R285). -/
def State.readWord (s : State) (w : Nat) (kind : ReadKind) (again : Bool := false) : State × List PByte :=
  let c := vaultOf w
  let t := c / 64
  let scrub := kind == .scrub
  let code := if scrub then 2 else 1
  let now := kind == .scrub || kind == .repair
  let data := s.bytes w 64
  if (s.vault c).writeBacks.contains (w, none) then
    ((if now then s.storeWord w (List.replicate 64 (0, true)) else s), List.replicate 64 (0, true))
  else match decodeFast (s.fastSynAt w) with
    | .good => (s, plain data)
    | .poisoned => (s, List.replicate 64 (0, true))
    | .corrected j e =>
      let fixed := fixByte data j e
      let s := s.count (sA t SCRUB_CORRECTED)
      let s := s.evVault c 0x01 code (memPayload w j scrub (kind == .diag) again (s.physOf c))
      let s := if scrub then s.recordFix t w j false else s
      if now then (s.storeWord w (plain fixed), plain fixed)
      else (s.keepBack w (some fixed), plain fixed)
    | .bad =>
      let s := s.count (sA t SCRUB_UNCORR)
      let s := s.evVault c 0x02 code (memPayload w 0x7F scrub (kind == .diag) false (s.physOf c))
      let s := if scrub then s.recordFix t w 0x7F true else s
      if now then (s.storeWord w (List.replicate 64 (0, true)), List.replicate 64 (0, true))
      else (s.keepBack w none, List.replicate 64 (0, true))

/-- An unchecked row rebuilt (R308): its check bytes are those of whatever it holds. -/
def State.rebuildRow (s : State) (r : Nat) : State :=
  let c := vaultOf r
  let s := s.modVault c fun v => { v with unchecked := v.unchecked.filter (· ≠ r) }
  ({ s with fastSyn := smClear s.fastSyn r (r + 512) }).count (vA c NB_REBUILDS)

/-- The rebuild an access to a row needs first (R308). -/
def State.checkRow (s : State) (a : Nat) : State :=
  if (s.vault (vaultOf a)).unchecked.contains (rowBase a) then s.rebuildRow (rowBase a) else s

/-- The units that pieces of memory touch, each once. -/
def unitsIn (size : Nat) (ps : List (Nat × Nat)) : List Nat := (ps.flatMap fun p => unitsOf size p.1 p.2).dedup

/-- A unit's value in what was read of the units. -/
def unitData (got : List (Nat × List PByte)) (u : Nat) : List PByte := ((got.find? fun x => x.1 == u).map (·.2)).getD []

/-- The bytes of pieces of memory, from those of the 64-byte units that they touch. -/
def assemble (got : List (Nat × List PByte)) (ps : List (Nat × Nat)) : List PByte :=
  ps.flatMap fun p => (((unitsOf 64 p.1 p.2).flatMap (unitData got)).drop (p.1 % 64)).take p.2

/-- Pieces of the fast tier read: each row they touch once (R173), each word of it once. An invalid row reads as zeros without a
bank access (R260). -/
def State.readFastRows (s : State) (ps : List (Nat × Nat)) (kind : ReadKind := .access) : State × List PByte :=
  let s := (unitsIn 512 ps).foldl (fun s r =>
    let s := (s.reservedLookup r false).checkRow r
    if s.rowValid r then s.count (vA (vaultOf r) VC_ROWS) else s.count (vA (vaultOf r) VC_ZERO_READS)) s
  let got := (unitsIn 64 ps).foldl (fun (acc : State × List (Nat × List PByte)) w =>
    if acc.1.rowValid w then
      let got := acc.1.readWord w kind
      (got.1, acc.2 ++ [(w, got.2)])
    else (acc.1, acc.2 ++ [(w, List.replicate 64 (0, false))])) (s, [])
  (got.1, assemble got.2 ps)

/-- n bytes of the fast tier. -/
def State.readFast (s : State) (a n : Nat) (kind : ReadKind := .access) : State × List PByte := s.readFastRows [(a, n)] kind

/-- The parts of a write that lie in a unit: each with its first address. -/
def partsIn (size u : Nat) (parts : List (Nat × List PByte)) : List (Nat × List PByte) :=
  (parts.filter fun p => decide (p.1 < u + size) && decide (u < p.1 + p.2.length)).map fun p =>
    let got := partOf size p.1 p.2 u
    (u + got.1, got.2)

/-- What the parts of a write put into the 64 bytes of a word: later parts over earlier ones. -/
def overlay (w : Nat) (parts : List (Nat × List PByte)) : List (Option PByte) :=
  match parts with
  | [(a, ps)] => if a = w ∧ ps.length = 64 then ps.map some else pieceAt a ps
  | _ => (List.range 64).map fun i =>
      (parts.filterMap fun p => if p.1 ≤ w + i then p.2[w + i - p.1]? else none).getLast?
where
  pieceAt (a : Nat) (ps : List PByte) : List (Option PByte) :=
    List.replicate (a - w) none ++ ps.map some ++ List.replicate (64 - (a - w + ps.length)) none

/-- Bytes written into a word of a row that was valid or not (R260, R274); true where a narrow write met a poisoned word. -/
def State.writeWord (s : State) (w : Nat) (wasValid : Bool) (new : List (Option PByte)) : State × Bool :=
  if new.all Option.isSome then (s.storeWord w (new.filterMap id), false)
  else if !wasValid then
    if anyPoison (new.filterMap id) then (s.storeWord w (new.map fun b => b.getD (0, true)), false)
    else (s.setBytes w (new.map fun b => (b.getD (0, false)).1), false)
  else
    let got := (s.count (vA (vaultOf w) VC_RMW)).readWord w .access
    if anyPoison got.2 then (got.1, true)
    else (got.1.storeWord w (List.zipWith (fun (o : PByte) b => Option.getD b o) got.2 new), false)

/-- A write into one row of the fast tier, which its bank takes at once (R173, R260, R274, R277); true where a narrow write met a
poisoned word. -/
def State.writeRow (s : State) (r : Nat) (parts : List (Nat × List PByte)) : State × Bool :=
  let s := ((s.reservedLookup r false).checkRow r).count (vA (vaultOf r) VC_ROWS)
  let wasValid := s.rowValid r
  let s := if wasValid then s else (s.setValid r true).setSummary r false
  let words := (unitsIn 64 (parts.map fun p => (p.1, p.2.length))).map fun w => (w, overlay w (partsIn 64 w parts))
  let got := words.foldl (fun (acc : State × Bool) x =>
    let got := acc.1.writeWord x.1 wasValid x.2
    (got.1, acc.2 || got.2)) (s, false)
  let whole : Bool := words.length = 8 && words.all fun x => x.2.all fun b => match b with
    | some b => !b.2
    | none => false
  if wasValid && whole then (got.1.setSummary r false, got.2) else got

/-- Parts written into the fast tier, each row once. -/
def State.writeFastRows (s : State) (parts : List (Nat × List PByte)) : State × Bool :=
  (unitsIn 512 (parts.map fun p => (p.1, p.2.length))).foldl (fun (acc : State × Bool) r =>
    let got := acc.1.writeRow r (partsIn 512 r parts)
    (got.1, acc.2 || got.2)) (s, false)

/-- Bytes written into the fast tier. -/
def State.writeFast (s : State) (a : Nat) (ps : List PByte) : State × Bool := s.writeFastRows [(a, ps)]

/-- The valid bits, summary bits, data and row status of a range of rows of one vault cleared, with the write-backs that wait
for them (R260, R261): lo to below hi. -/
def State.invalidate (s : State) (lo hi : Nat) : State :=
  let s := s.modVault (vaultOf lo) fun v => { v with writeBacks := v.writeBacks.filter fun x => x.1 < lo || hi ≤ x.1 }
  { s with valid := smClear s.valid lo hi, summary := smClear s.summary lo hi, mem := smClear s.mem lo hi,
           fastSyn := smClear s.fastSyn lo hi }

/-! ### The slow tier -/

def slowBase : Nat := 0x040000000000
def channelOf (a : Nat) : Nat := (a - slowBase) / 4096 % 16
/-- The check block of a slow-tier address on its channel (R265). -/
def checkBlock (a : Nat) : Nat :=
  let o := a - slowBase
  (o / 65536 * 4096 + o % 4096) / 64 / 15

def State.slowSynAt (s : State) (l : Nat) : Nat := (smGet (0 : W32) s.slowSyn l).toNat
def State.setSlowSyn (s : State) (l syn : Nat) : State :=
  { s with slowSyn := smSet 0 s.slowSyn l (BitVec.ofNat 32 syn) }
def State.slowBits (s : State) (l : Nat) : Bool × Bool := (smGet false s.slowA l, smGet false s.slowB l)
def State.setSlowBits (s : State) (l : Nat) (a b : Bool) : State :=
  { s with slowA := smSet false s.slowA l a, slowB := smSet false s.slowB l b }

/-- A lookup of a line's check word in the controller's cache of 256 (R266). A miss displaces the word least recently used,
which R266 does not say (log entry 108). -/
def State.checkLookup (s : State) (l : Nat) : State :=
  let t := channelOf l
  let b := checkBlock l
  let hit := (s.stack t).slowCache.contains b
  let s := s.modStack t fun k => { k with slowCache := (b :: k.slowCache.filter (· ≠ b)).take 256 }
  if hit then s else s.count (sA t SLOW_CHECK_MISS)

/-- A line stored whole (R279, R281). -/
def State.storeLine (s : State) (l : Nat) (ps : List PByte) : State :=
  let t := channelOf l
  let s := s.modStack t fun k => { k with slowBack := k.slowBack.filter (·.1 ≠ l) }
  if anyPoison ps then ((s.zeroBytes l (l + 64)).setSlowSyn l 0).setSlowBits l true true
  else ((s.setBytes l (dataOf ps)).setSlowSyn l 0).setSlowBits l false false

/-- A line access that writes the whole line (R266, R270). -/
def State.writeLine (s : State) (l : Nat) (ps : List PByte) : State :=
  ((s.checkLookup l).count (sA (channelOf l) SLOW_WRITES)).storeLine l ps

/-- A line's write-back kept until its channel's queue is empty (R279). -/
def State.keepLine (s : State) (l : Nat) (fix : Option (List Byte)) : State :=
  s.modStack (channelOf l) fun k => { k with slowBack := k.slowBack.filter (·.1 ≠ l) ++ [(l, fix)] }

/-- A line decoded (R279, R281). DESIGN CHOICE (log entry 136): poison copies that disagree are no fix for SCRUB_LAST. -/
def State.readLine (s : State) (l : Nat) (kind : ReadKind) : State × List PByte :=
  let t := channelOf l
  let scrub := kind == .scrub
  let code := if scrub then 4 else 3
  let zeros : List PByte := List.replicate 64 (0, true)
  let s := s.checkLookup l
  let got := s.slowBits l
  let a := got.1
  let b := got.2
  if a != b then
    (((s.setSlowBits l true true).count (sA t SCRUB_UNCORR)).evStack t 0x02 0x05 (memPayload l 0x7F scrub false false 0),
      zeros)
  else if a || (s.stack t).slowBack.contains (l, none) then (s, zeros)
  else
    let data := s.bytes l 64
    match decodeSlow (s.slowSynAt l) with
    | .good | .poisoned => (s, plain data)
    | .corrected j e =>
      let fixed := fixByte data j e
      let s := (s.count (sA t SCRUB_CORRECTED)).evStack t 0x01 code (memPayload l j scrub false false 0)
      if scrub then ((s.recordFix t l j false).writeLine l (plain fixed), plain fixed)
      else (s.keepLine l (some fixed), plain fixed)
    | .bad =>
      let s := (s.count (sA t SCRUB_UNCORR)).evStack t 0x02 code (memPayload l 0x7F scrub false false 0)
      if scrub then ((s.recordFix t l 0x7F true).writeLine l zeros, zeros)
      else (s.keepLine l none, zeros)

/-- Pieces of the slow tier read, each line they touch once. -/
def State.readLines (s : State) (ps : List (Nat × Nat)) (kind : ReadKind := .access) : State × List PByte :=
  let got := (unitsIn 64 ps).foldl (fun (acc : State × List (Nat × List PByte)) l =>
    let got := (acc.1.count (sA (channelOf l) SLOW_READS)).readLine l kind
    (got.1, acc.2 ++ [(l, got.2)])) (s, [])
  (got.1, assemble got.2 ps)

/-- n bytes of the slow tier. -/
def State.readSlow (s : State) (a n : Nat) (kind : ReadKind := .access) : State × List PByte := s.readLines [(a, n)] kind

/-- Parts written into the slow tier, each line once; a narrow write is a read-modify-write of its line (R266, R274). -/
def State.writeLines (s : State) (parts : List (Nat × List PByte)) : State × Bool :=
  (unitsIn 64 (parts.map fun p => (p.1, p.2.length))).foldl (fun (acc : State × Bool) l =>
    let new := overlay l (partsIn 64 l parts)
    if new.all Option.isSome then (acc.1.writeLine l (new.filterMap id), acc.2)
    else
      let got := (acc.1.count (sA (channelOf l) SLOW_READS)).readLine l .access
      if anyPoison got.2 then (got.1, true)
      else (got.1.writeLine l (List.zipWith (fun (o : PByte) b => Option.getD b o) got.2 new), acc.2)) (s, false)

/-- Bytes written into the slow tier. -/
def State.writeSlow (s : State) (a : Nat) (ps : List PByte) : State × Bool := s.writeLines [(a, ps)]

/-! ### Any memory -/

/-- n bytes from a device address, all in one region; addresses of no memory read as zeros. -/
def State.readDev (s : State) (a n : Nat) (kind : ReadKind := .access) : State × List PByte :=
  match classify a with
  | .fast _ => s.readFast a n kind
  | .slow _ => s.readSlow a n kind
  | .sp c off => s.readSp c off n
  | _ => (s, List.replicate n (0, false))

/-- Bytes written at a device address, all in one region; true where poison stopped a narrow part. -/
def State.writeDev (s : State) (a : Nat) (ps : List PByte) : State × Bool :=
  match classify a with
  | .fast _ => s.writeFast a ps
  | .slow _ => s.writeSlow a ps
  | .sp c off => s.writeSp c off ps
  | _ => (s, false)

/-- Bytes made poisoned at the granularity of the memory that holds them (R212, R216). -/
def State.poisonRange (s : State) (lo hi : Nat) : State :=
  match classify lo with
  | .fast _ => (unitsOf 512 lo (hi - lo)).foldl (fun s r =>
      let s := (s.reservedLookup r false).checkRow r
      let s := if s.rowValid r then s else (s.setValid r true).setSummary r false
      ((unitsOf 64 lo (hi - lo)).filter fun w => rowBase w == r).foldl (fun s w => s.storeWord w (List.replicate 64 (0, true))) s) s
  | .slow _ => (unitsOf 64 lo (hi - lo)).foldl (fun s l => s.writeLine l (List.replicate 64 (0, true))) s
  | .sp _ _ => (unitsOf 8 lo (hi - lo)).foldl (fun s u => s.poisonUnit u) s
  | _ => s

/-- The units that bytes from lo to below hi touch and that are poisoned as stored, without reading them. -/
def State.poisonedIn (s : State) (lo hi : Nat) : List Nat :=
  match classify lo with
  | .fast _ => (unitsOf 64 lo (hi - lo)).filter fun w =>
      s.rowValid w && (decodeFast (s.fastSynAt w) == .poisoned || decodeFast (s.fastSynAt w) == .bad)
  | .slow _ => (unitsOf 64 lo (hi - lo)).filter fun l =>
      (s.slowBits l).1 || (s.slowBits l).2 || decodeSlow (s.slowSynAt l) == .bad
  | .sp _ _ => (unitsOf 8 lo (hi - lo)).filter fun u => s.spMarkAt u == 1 || 100 ≤ s.spMarkAt u
  | _ => []

/-! ### Upsets -/

/-- The buffer of an engine that a load fills: B where `b`. -/
def Engine.buffer (g : Engine) (b : Bool) : Tile := if b then g.bufB else g.bufA
def Engine.setBuffer (g : Engine) (b : Bool) (v : Tile) : Engine := if b then { g with bufB := v } else { g with bufA := v }

/-- A physical upset as it strikes: the stored bytes change, not what they should hold; a slow channel's write retry is
counted and its refresh-rate code shown (R264), a haul's half-rows sent again are counted (R249). A cached line of wrong parity
is invalid, so that it is fetched again (R275);
a collision is met by the access it belongs to. -/
def State.upset (s : State) : Upset → State
  | .sp c off bit =>
    let u := spBase c.toNat + off.toNat / 8 * 8
    let b := bit.toNat % 72
    let m := s.spMarkAt u
    if m = 0 then s.setSpMark u (2 + b)
    else if m = 1 ∨ 100 ≤ m then s
    else if m = 2 + b then s.setSpMark u 0
    else s.setSpMark u (100 + (m - 2) * 72 + b)
  | .fast a byte x =>
    let w := wordBase a.toNat
    let j := byte.toNat % 72
    if !s.rowValid w then s
    else
      let s := s.setFastSyn w (Nat.xor (s.fastSynAt w) (rsErr 8 j x.toNat))
      if j < 64 then s.setBytes (w + j) [s.byte (w + j) ^^^ x] else s
  | .slow a byte x =>
    let l := wordBase a.toNat
    let j := byte.toNat % 68
    let s := s.setSlowSyn l (Nat.xor (s.slowSynAt l) (rsErr 4 j x.toNat))
    if j < 64 then s.setBytes (l + j) [s.byte (l + j) ^^^ x] else s
  | .slowPoison a b =>
    let l := wordBase a.toNat
    let got := s.slowBits l
    let pa := got.1
    let pb := got.2
    if b then s.setSlowBits l pa (!pb) else s.setSlowBits l (!pa) pb
  | .acc c e lane depth =>
    s.modCore c.toNat fun k =>
      let g := k.engine e
      k.setEngine e { g with parity := smSet false g.parity (depth.toNat * 64 + lane.toNat) true }
  | .tile c e b elem bit =>
    s.modCore c.toNat fun k =>
      let g := k.engine e
      let x := g.buffer b
      let v := smGet 0 x.elems elem.toNat
      let x := { x with elems := smSet 0 x.elems elem.toNat (Nat.xor v (2 ^ (bit.toNat % x.fmt.width))) }
      -- an FP32 tile is one in both buffers, until a load replaces half of it
      k.setEngine e (if g.bufA.fmt = .fp32 ∧ g.bufB.fmt = .fp32 then { g with bufA := x, bufB := x } else g.setBuffer b x)
  | .icache c line => s.modCore c.toNat fun k => { k with icache := k.icache.filter fun x => x.1 ≠ line }
  | .collide _ => s
  | .haulRetry c n => s.addSat (vA c.toNat VC_HAUL_RETRY) 31 0 n
  | .slowRetry t => s.addSat (sA t.toNat SLOW_LINK_RETRY) 31 0 1
  | .slowRate t code => s.setFld (sA t.toNat SLOW_STATUS) 12 8 code.toNat

def State.upsets (s : State) (us : List Upset) : State := us.foldl State.upset s

end Sys2Proof.Machine
end

