-- ==== Sys2Proof/Machine/CoreOps.lean ====
section
/-! DEFINITION. Operations of one core: its control core's registers, traps (R125 to R127) and tokens (R118 to R121),
pitches (R93 to R95), and the clearing and resetting of its state (R98 to R100, R116, R146, R473). -/

namespace Sys2Proof.Machine

/-! ### The control core -/

/-- A general register; g0 reads as zero (R104). -/
def State.gpr (s : State) (c : Nat) (r : BitVec 5) : W64 := if r = 0 then 0 else smGet 0 (s.core c).g r.toNat

/-- A general register written; g0 discards (R104). -/
def State.setGpr (s : State) (c : Nat) (r : BitVec 5) (v : W64) : State :=
  if r = 0 then s else s.modCore c fun k => { k with g := smSet 0 k.g r.toNat v }

/-- STATUS.MODE: privileged (R115, R123). -/
def State.privileged (s : State) (c : Nat) : Bool := (s.core c).status.getLsbD 0
/-- STATUS.IE. -/
def State.intEnabled (s : State) (c : Nat) : Bool := (s.core c).status.getLsbD 1

/-- Whether the control core can take its next step: the core is On, its program runs, debug has not halted it and the
module's islands are not stopped (R441, R491, R508). -/
def State.fetching (s : State) (c : Nat) : Bool :=
  (s.core c).power == 2 && (s.core c).run == .running && !(s.core c).halted && s.warden.stopped == 0

/-- STATUS after trap entry (R126): TRAP set, PIE and PMODE from IE and MODE, IE clear, MODE set. -/
def trapStatus (st : W64) : W64 :=
  0x11 ||| (if st.getLsbD 1 then 8 else 0) ||| (if st.getLsbD 0 then 4 else 0)

/-- STATUS after eret (R124): MODE from PMODE, IE from PIE, TRAP clear; PIE and PMODE keep their values. -/
def eretStatus (st : W64) : W64 :=
  (st &&& 0xC) ||| (if st.getLsbD 3 then 2 else 0) ||| (if st.getLsbD 2 then 1 else 0)

/-- Trap or interrupt entry (R126): the state saved, the handler's address in pc. -/
def State.enterTrap (s : State) (c : Nat) (cause value : W64) : State :=
  s.modCore c fun k =>
    { k with tpc := k.pc.setWidth 64, cause := cause, tval := value, status := trapStatus k.status,
             pc := k.tvec.setWidth 46 }

/-- A synchronous trap (R125, R126): with STATUS.TRAP set, a double trap (R127), which overwrites no trap state, stops
fetching and raises source 10. -/
def State.trap (s : State) (c cause : Nat) (value : W64) : State :=
  if (s.core c).status.getLsbD 4 then (s.modCore c fun k => { k with run := .doubleTrapped }).raiseCore c 10
  else s.enterTrap c (BitVec.ofNat 64 cause) value

/-- The instruction at pc completed: pc past its bytes, RETIRED advanced (R115). -/
def State.retire (s : State) (c : Nat) (len : Nat := 4) : State :=
  s.modCore c fun k => { k with pc := k.pc + BitVec.ofNat 46 len, retired := k.retired + 1 }

/-- The instruction completed at another address. -/
def State.retireTo (s : State) (c : Nat) (pc : Addr) : State :=
  s.modCore c fun k => { k with pc := pc, retired := k.retired + 1 }

/-- Where instructions are fetched (R113): the device address of pc, in the core's own vault or own scratchpad. -/
def fetchAddr (c : Nat) (pc : Addr) : Option Nat :=
  let a := pc.toNat
  if a % 4 ≠ 0 then none
  else if 0x3E8000000000 ≤ a ∧ a < 0x3E8000200000 then some (spBase c + a % 0x200000)
  else if classify a = .fast c then some a
  else if spBase c ≤ a ∧ a < spBase c + 0x200000 then some a
  else none

/-- One instruction of core c (R113): where its control core cannot step nothing changes; a pc outside its memories or
off its alignment traps with cause 3; else the instruction's effect. -/
def State.instr (s : State) (c : Nat) (f : State → State) : State :=
  if !s.fetching c then s
  else match fetchAddr c (s.core c).pc with
    | none => s.trap c 3 ((s.core c).pc.setWidth 64)
    | some _ => f s

/-! ### Tokens (R118 to R121) -/

def tokA (c t : Nat) : Nat := cA c TOK_COUNT + 4 * (t - 1)

/-- Counter t; token 0 reads 0. -/
def State.token (s : State) (c t : Nat) : Nat := if t = 0 then 0 else s.fld (tokA c t) 7 0
def State.setToken (s : State) (c t v : Nat) : State := if t = 0 then s else s.setFld (tokA c t) 7 0 v

/-- An increment from a completion or the crier network (R119, R120): lost at 255, with TOK_OVERFLOW and source 7. -/
def State.incToken (s : State) (c t : Nat) : State :=
  if t = 0 then s
  else if s.token c t = 255 then (s.setBit (cA c TOK_OVERFLOW) t true).raiseCore c 7
  else s.setToken c t (s.token c t + 1)

/-- A decrement, where the counter is not zero. -/
def State.decToken (s : State) (c t : Nat) : State := s.setToken c t (s.token c t - 1)

/-- A logical id whose core is retired under the current map: no physical core serves it (R121, R465). -/
def State.unserved (s : State) (c : Nat) : Bool :=
  s.stackDown (c / 64) || s.warden.retired.contains (c / 64 * 72 + s.physOf c / 16 % 8 * 9 + s.physOf c % 16)

/-- One increment sent to a logical core of this package (R121, R188, R190): counted, or dropped and counted. -/
def State.sendToken (s : State) (c dest t : Nat) : State :=
  if s.unserved dest then s.addSat (cA c TOK_SENT_DROP) 31 0 1
  else (s.count (cA c TOK_SENT)).crier
    { typ := 1, kind := 0, dest := dest, src := c, arg := BitVec.ofNat 6 t, payload := 0, event := none }

/-! ### Pitches (R93 to R95) -/

/-- Whether pitch p of master m covers the bank words from w0 to w1 for the access. -/
def State.pitchCovers (s : State) (c m p w0 w1 : Nat) (write : Bool) : Bool :=
  let v := s.reg (cA c PITCH + m * 0x20 + p * 4)
  (if write then v.getLsbD 30 else v.getLsbD 31) && decide (bits v 12 0 ≤ w0) && decide (w1 ≤ bits v 28 16)

/-- Whether scratchpad bytes off to off + n lie within a single pitch of master m that grants the access (R94). -/
def State.pitchOk (s : State) (c m off n : Nat) (write : Bool) : Bool :=
  n = 0 || (List.range 8).any fun p => s.pitchCovers c m p (off / 256) ((off + n - 1) / 256) write

/-- The first byte that an access of scratchpad bytes off to off + n may not reach: each bank word of it must lie in a pitch of
master m that grants the access (R84, R95). -/
def State.pitchGap (s : State) (c m off n : Nat) (write : Bool) : Option Nat :=
  if n = 0 then none
  else ((List.range ((off + n - 1) / 256 - off / 256 + 1)).find? fun i => !s.pitchOk c m (256 * (off / 256 + i)) 1 write).map
    fun i => max off (256 * (off / 256 + i))

/-- An access's accesses of bank words (R84): first byte and number of bytes of each. -/
def wordParts (off n : Nat) : List (Nat × Nat) :=
  (unitsOf 256 off n).map fun w => (max off w, min (off + n) (w + 256) - max off w)

/-- A pitch failure recorded (R95): PITCH_FAULT, PITCH_COUNT and source 4. -/
def State.pitchFail (s : State) (c m off : Nat) (write : Bool) (tag : Nat) : State :=
  ((s.setReg (cA c PITCH_FAULT)
    (BitVec.ofNat 64 (tag * 2 ^ 48 + m * 2 ^ 45 + (if write then 2 ^ 44 else 0) + off * 2 ^ 20 + 1))).addSat
      (cA c PITCH_COUNT) 31 0 1).raiseCore c 4

/-- n words of 8 bytes that nothing fixes. -/
def State.freeBytes (s : State) : Nat → State × List Byte
  | 0 => (s, [])
  | n + 1 =>
    let rest := State.freeBytes s.takeFree.2 n
    (rest.1, leBytes 8 s.takeFree.1.toNat ++ rest.2)

/-! ### Clearing and resetting (R98 to R100, R116, R146, R473) -/

/-- The registers of a region's block put to their reset values, but for those kept (R13). -/
def State.resetRegs (s : State) (lo hi : Nat) : State :=
  { s with regs := s.regs.filter fun p =>
      p.1 < lo || hi ≤ p.1 || (match findReg p.1 with
        | some h => h.row.kept
        | none => false) }

/-- Held and captured halves of registers from lo to below hi discarded (R9). -/
def State.dropHalvesIn (s : State) (lo hi : Nat) : State :=
  { s with halves := s.halves.filter fun h => h.2.1 < lo || hi ≤ h.2.1 }

/-- Registers that a reset leaves as bring-up set them: CORE_ID, WIDTH and GROUP_OFF, NI_STATUS (R13). -/
def State.coreBringUpRegs (s : State) (c : Nat) : List (Nat × W64) :=
  [cA c CORE_ID, cA c NI_STATUS].map (fun a => (a, s.reg a)) ++
  [false, true].map fun e => (eA c e ENG0_STATUS, s.reg (eA c e ENG0_STATUS) &&& 0xFFFFFF00 ||| 0xC)

/-- A core's registers and state at their reset values, the values of bring-up kept. The scratchpad is cleared by the wake.
DESIGN CHOICE (log entry 98): the halves that the core itself holds or has captured are discarded with it, those of its
stack's registers too. -/
def State.resetCoreState (s : State) (c : Nat) : State :=
  let keep := s.coreBringUpRegs c
  let s := (s.resetRegs (cA c 0) (cA c 0x10000)).dropHalvesIn (cA c 0) (cA c 0x10000)
  let s := keep.foldl (fun s p => s.setReg p.1 p.2) s
  { s with halves := s.halves.filter fun h => h.1 ≠ .core (BitVec.ofNat 10 c) }

/-- The scratchpad written as zero with valid check bits (R99). -/
def State.clearScratchpad (s : State) (c : Nat) : State :=
  { s with mem := smClear s.mem (spBase c) (spBase c + 0x200000),
           spMark := smClear s.spMark (spBase c) (spBase c + 0x200000) }

/-- The clear of R99 on a wake from Off: scratchpad, accumulator files, buffers, instruction cache, tokens. -/
def State.clearCore (s : State) (c : Nat) : State :=
  let s := s.clearScratchpad c
  let s := (List.range 15).foldl (fun s t => s.setToken c (t + 1) 0) s
  (s.modCore c fun k => { k with e0 := Engine.reset, e1 := Engine.reset, icache := [], retired := 0 }).setReg
    (cA c CORE_CYCLES) 0

/-- Entry to Rest (R100): control-core state and instruction cache lost, accumulator files and buffers as after reset. RETIRED counts
from the wake (R115). -/
def Core.rest (k : Core) : Core :=
  { k with power := 3, run := .idle, halted := false, g := [], pc := 0, status := 1, cause := 0, tpc := 0, tval := 0,
           tvec := 0, scratch0 := 0, scratch1 := 0, retired := 0, seed := 0, stepNo := 0, idxBase := 0, vscalar := 0, td := [],
           icache := [], fills := 0, e0 := Engine.reset, e1 := Engine.reset }

end Sys2Proof.Machine
end

