-- ==== Sys2Proof/Machine/Tally.lean ====
section
/-! DEFINITION. Tile descriptors (R137 to R140, R169), tally entries and their tags (R199 to R203), holds (R205, R206),
refusal (R135), failure (R212, R213), settlement (R189, R208, R214) and the issue of bulk instructions (R77, R79, R117). -/

namespace Sys2Proof.Machine

/-! ### Descriptors (R137) -/

namespace Desc

def fmt (d : Desc) : Nat := bits d.w0 59 56
def kind (d : Desc) : Nat := bits d.w0 51 48
def base (d : Desc) : Nat := bits d.w0 45 0
def rowStride (d : Desc) : Nat := bits d.w1 31 0
def scaleStride (d : Desc) : Nat := bits d.w1 47 32
def rows (d : Desc) : Nat := bits d.w2 15 0
def cols (d : Desc) : Nat := bits d.w2 31 16
def scaleBase (d : Desc) : Nat := bits d.w3 45 0
/-- Depth and lane of an accumulator tile (R138). -/
def depth (d : Desc) : Nat := bits d.w0 8 0
def lane (d : Desc) : Nat := bits d.w0 14 9

/-- Bits per element (R138). -/
def elemBits (d : Desc) : Nat := [4, 6, 6, 8, 8, 8, 16, 32, 32].getD d.fmt 32
/-- A block format: FMT 0 to 5. -/
def blocky (d : Desc) : Bool := d.fmt ≤ 5
/-- Bytes of one row's elements. -/
def rowLen (d : Desc) : Nat := d.cols * d.elemBits / 8
/-- The element format, for FMT 0 to 7. -/
def format (d : Desc) : Fmt := [Fmt.e2m1, .e3m2, .e2m3, .e4m3, .e5m2, .int8, .bf16, .fp32].getD d.fmt .fp32
def elemEnd (d : Desc) : Nat := d.base + (d.rows - 1) * d.rowStride + d.rowLen
def scaleEnd (d : Desc) : Nat := d.scaleBase + (d.rows - 1) * d.scaleStride + d.cols / 32
def zero : Desc := ⟨0, 0, 0, 0⟩
/-- The tile of the first n rows. -/
def firstRows (d : Desc) (n : Nat) : Desc := { d with w2 := putBits d.w2 15 0 n }

/-- Reserved fields zero (R137, R139). -/
def reservedOk (d : Desc) : Bool :=
  bits d.w0 63 60 = 0 && bits d.w0 55 52 = 0 && bits d.w0 47 46 = 0 && bits d.w1 63 48 = 0 && bits d.w2 63 32 = 0
    && bits d.w3 63 46 = 0

/-- What R139 asks of the shape of a tile that has rows in memory. -/
def shapeOk (d : Desc) (align : Nat) : Bool :=
  decide (d.fmt ≤ 8) && decide (1 ≤ d.rows) && decide (1 ≤ d.cols) && d.reservedOk
    && (!d.blocky || (d.cols % 32 = 0 && (d.rows ≤ 1 || (d.scaleStride ≠ 0 && d.rowLen ≤ d.rowStride))))
    && d.base % align = 0 && d.rowStride % align = 0

/-- The alignment of BASE and ROW_STRIDE by format (R139, R169). -/
def align (d : Desc) : Nat := if d.fmt = 6 then 2 else if d.fmt = 7 ∨ d.fmt = 8 then 4 else 1

/-- A valid scratchpad tile (R139). -/
def spOk (d : Desc) : Bool :=
  d.kind = 0 && d.shapeOk d.align && decide (d.elemEnd ≤ 0x200000) && (!d.blocky || decide (d.scaleEnd ≤ 0x200000))

/-- A valid accumulator tile on an engine of a presented width (R139). -/
def accOk (d : Desc) (width : Nat) : Bool :=
  (d.kind = 2 || d.kind = 3) && d.fmt = 7 && d.w1 = 0 && d.w3 = 0 && decide (1 ≤ d.rows) && decide (1 ≤ d.cols)
    && d.reservedOk && bits d.w0 45 15 = 0 && decide (d.depth + d.rows ≤ 512) && decide (d.lane + d.cols ≤ width)

/-- The engine an accumulator tile names (R138). -/
def engine (d : Desc) : Bool := d.kind = 3

/-- The bytes a tile in memory takes, piece by piece in ascending row order, rows before scale rows. -/
def elemPieces (d : Desc) : List (Nat × Nat) := (List.range d.rows).map fun r => (d.base + r * d.rowStride, d.rowLen)
def scalePieces (d : Desc) : List (Nat × Nat) :=
  if d.blocky then (List.range d.rows).map fun r => (d.scaleBase + r * d.scaleStride, d.cols / 32) else []
def pieces (d : Desc) : List (Nat × Nat) := d.elemPieces ++ d.scalePieces

end Desc

/-- Device addresses of pieces that lie in core c's scratchpad. -/
def spPieces (c : Nat) (d : Desc) : List (Nat × Nat) := d.pieces.map fun p => (spBase c + p.1, p.2)

/-- A tile that an operation reads or writes: on this module or another, its rows, its scale rows or both. -/
structure Part where
  d : Desc
  dev : Option Nat
  elems : Bool
  scales : Bool
  deriving DecidableEq, Repr

def Part.whole (d : Desc) (dev : Option Nat) : Part := ⟨d, dev, true, true⟩

/-- Where a part lies, with `f` its element places and `g` its scale places as pairs of first byte and byte behind. -/
def Part.lies (p : Part) (c : Nat) (f g : List (Nat × Nat)) : List Rng :=
  if p.d.kind = 2 ∨ p.d.kind = 3 then [.acc p.d.engine p.d.depth p.d.rows p.d.lane p.d.cols]
  else
    let o := if p.d.kind = 0 then spBase c else 0
    let dev := if p.d.kind = 0 then none else p.dev
    ((if p.elems then f else []) ++ if p.scales && p.d.blocky then g else []).map fun x => .mem dev (o + x.1) (o + x.2)

/-- The bounding ranges of a part (R139, R140, R169): element range, scale range of a block format, or entries. -/
def Part.ranges (c : Nat) (p : Part) : List Rng := p.lies c [(p.d.base, p.d.elemEnd)] [(p.d.scaleBase, p.d.scaleEnd)]

/-- The bytes of a part row by row, or its entries. -/
def Part.places (c : Nat) (p : Part) : List Rng :=
  let ends (l : List (Nat × Nat)) := l.map fun x => (x.1, x.1 + x.2)
  p.lies c (ends p.d.elemPieces) (ends p.d.scalePieces)

/-- The bounding ranges of a tile. -/
def Desc.ranges (d : Desc) (c : Nat) (dev : Option Nat) : List Rng := (Part.whole d dev).ranges c

/-- Whether two ranges share a byte or an entry. -/
def Rng.overlaps : Rng → Rng → Bool
  | .mem d a b, .mem e x y => d = e && decide (a < y) && decide (x < b)
  | .acc e d r l n, .acc f x s m k =>
    e = f && decide (d < x + s) && decide (x < d + r) && decide (l < m + k) && decide (m < l + n)
  | _, _ => false

def overlapAny (xs ys : List Rng) : Bool := xs.any fun x => ys.any x.overlaps

/-! ### Entries -/

/-- The tally tag (R199). -/
def Entry.tag (e : Entry) : W16 := BitVec.ofNat 16 (e.slot * 128 + e.gen)

def Entry.isState (e : Entry) (t : TState) : Bool := e.state == t
/-- Started and not completed: counts toward its queue's figure (R77). -/
def Entry.inProgress (e : Entry) : Bool := e.state == .running || e.state == .replaying

def State.entry (s : State) (c slot : Nat) : Option Entry := (s.core c).tally.find? fun e => e.slot == slot

def State.modEntry (s : State) (c slot : Nat) (f : Entry → Entry) : State :=
  s.modCore c fun k => { k with tally := k.tally.map fun e => if e.slot = slot then f e else e }

/-- A slot freed (R199). -/
def State.freeEntry (s : State) (c slot : Nat) : State :=
  s.modCore c fun k => { k with tally := k.tally.filter fun e => e.slot ≠ slot }

/-- The entry a tag names, while its generation matches (R200). -/
def State.entryOf (s : State) (c : Nat) (tag : W16) : Option Entry := (s.core c).tally.find? fun e => e.tag == tag

/-- A producer that still counts: its entry is there and has neither settled nor failed (R203). -/
def State.openProducer (s : State) (c : Nat) (tag : W16) : Bool :=
  match s.entryOf c tag with
  | some e => !(e.state == .failed)
  | none => false

def State.openProducers (s : State) (c : Nat) (e : Entry) : Nat := (e.producers.filter (s.openProducer c)).length

/-- The first queued operation of a queue (R78). -/
def State.queueHead (s : State) (c q : Nat) : Option Entry :=
  (s.core c).tally.find? fun e => e.queue == q && e.state == .queued

def State.queued (s : State) (c q : Nat) : Nat :=
  ((s.core c).tally.filter fun e => e.queue == q && e.state == .queued).length

/-- Depths and figures of the queues (R77). -/
def queueDepth (q : Nat) : Nat := [32, 32, 32, 64, 64, 32, 16].getD q 0
def queueFigure (q : Nat) : Nat := [1, 1, 1, 16, 32, 32, 4].getD q 0

/-- Entries issued before one (R205). -/
def State.earlier (s : State) (c : Nat) (e : Entry) : List Entry := (s.core c).tally.takeWhile fun x => x.slot ≠ e.slot

/-- The entries an input range depends on (R202). -/
def State.producersOf (s : State) (c : Nat) (e : Entry) : List W16 :=
  ((s.earlier c e).filter fun x => !(x.state == .failed) && overlapAny x.outs e.ins).map Entry.tag

/-- Outputs that holds apply to (R206): not an MMA's entries, an RACC's or RMRG's segments, or a reducing receive. -/
def Entry.heldOuts (e : Entry) : List Rng :=
  if e.opcode = 0x02 ∨ e.opcode = 0x2A ∨ e.opcode = 0x2B ∨ (e.opcode = 0x25 ∧ e.mode.toNat % 4 ≠ 0) then [] else e.outs

/-- Read and write holds (R205), against every entry that has not settled. -/
def State.readHold (s : State) (c : Nat) (e : Entry) : Bool := (s.earlier c e).any fun x => overlapAny e.heldOuts x.ins
def State.writeHold (s : State) (c : Nat) (e : Entry) : Bool := (s.earlier c e).any fun x => overlapAny e.heldOuts x.outs

/-- Source-log records dropped because the core writes bytes of either range (R214). -/
def State.dropSources (s : State) (c : Nat) (outs : List Rng) : State :=
  if (s.core c).srcLog.isEmpty then s
  else s.modCore c fun k =>
    { k with srcLog := k.srcLog.filter fun r => !overlapAny outs r.src && !overlapAny outs r.dst }

/-- A range without the bytes of another span of memory. -/
def Rng.without (a n : Nat) : Rng → List Rng
  | .mem none lo hi =>
    if hi ≤ a ∨ a + n ≤ lo then [.mem none lo hi]
    else (if lo < a then [.mem none lo a] else []) ++ if a + n < hi then [.mem none (a + n) hi] else []
  | r => [r]

/-- n bytes at a device address written by no operation of the core that owns the scratchpad there: those that its completed operations
had written are no longer theirs (R214). -/
def State.overwrite (s : State) (a n : Nat) : State :=
  match classify a with
  | .sp c _ =>
    if (s.core c).tally.isEmpty then s
    else s.modCore c fun k => { k with tally := k.tally.map fun e =>
      if e.state == .completed then { e with written := e.written.flatMap (Rng.without a n) } else e }
  | _ => s

/-- Bytes that a core's own store writes: source-log records of them are dropped, and completed operations whose tiles they are in will
leave none (R214). -/
def State.storedOver (s : State) (c a n : Nat) : State :=
  let here : List Rng := [.mem none a (a + n)]
  let s := (s.overwrite a n).dropSources c here
  if (s.core c).tally.isEmpty then s
  else s.modCore c fun k => { k with tally := k.tally.map fun e =>
    if e.state == .completed && (overlapAny here e.ins || overlapAny here e.outs) then { e with changed := true } else e }

/-- Bytes an operation has written (R212, R214): noted in its entry, and the source records they change dropped. -/
def State.wrote (s : State) (c : Nat) (slot : Nat) (ps : List Rng) : State :=
  (s.modEntry c slot fun x => { x with written := x.written ++ ps }).dropSources c ps

/-! ### Bilo ports and the relay (R16, R371, R373) -/

/-- The stack that carries a Bilo port (R16). -/
def portStack (p : Nat) : Nat := [1, 2, 7, 11, 14, 13, 8, 4].getD p 0
/-- The port a stack carries. -/
def stackPort (t : Nat) : Option Nat := (List.range 8).find? fun p => portStack p = t

/-- This module's device id. -/
def State.ownId (s : State) : Nat := s.fld (pA BILO_ID) 13 0

/-- Whether a port is up and in use (R389). -/
def State.portUp (s : State) (p : Nat) : Bool := s.bit (pA BPORT_STATUS + 0x20 * p) 31 && s.bit (pA BPORT_CONTROL + 0x20 * p) 0

/-- The ports of a device's mask that are up, ascending (R371). -/
def State.upPorts (s : State) (dev : Nat) : List Nat :=
  let mask := s.fld (pA BILO_ROUTE + dev / 4 * 4) (dev % 4 * 8 + 7) (dev % 4 * 8)
  (List.range 8).filter fun p => mask.testBit p && s.portUp p

/-- The port a message to a device leaves on, by its flow key (R371). -/
def State.biloPort (s : State) (dev key : Nat) : Option Nat :=
  let ps := s.upPorts dev
  if ps.isEmpty then none else ps[Nat.xor dev key % ps.length]?

/-- A Bilo packet with nothing in it. -/
def BiloPacket.blank (typ cls dst src : Nat) : BiloPacket :=
  { typ := typ, cls := cls, dst := BitVec.ofNat 14 dst, src := BitVec.ofNat 14 src, srcCore := 0x3FF, tag := 0, addr := 0,
    gen := 0, contrib := 0, sat := false, fmt := 0, status := 0, barrow := 0, segment := 0, scale := 0, subtype := 0,
    max := 0, data := [], poison := [], len := 0, pieces := [], unit := 0, final := true, crcOk := true }

/-- A packet handed to a port. -/
def State.biloSend (s : State) (port : Nat) (p : BiloPacket) : State := s.modBilo fun b => { b with out := b.out ++ [(port, p)] }

/-- A crier message relayed to another module (R373): relayed type 1 or 3, the core or address it is for in ADDR (log
entry 9), the token or tag in TAG; none where no port leads there. -/
def State.relay (s : State) (c dev typ addr : Nat) (tag : W16) : Option State :=
  (s.biloPort dev c).map fun p =>
    s.biloSend p { BiloPacket.blank 11 2 dev s.ownId with
      srcCore := BitVec.ofNat 10 c, tag := tag, addr := BitVec.ofNat 46 addr, subtype := typ }

/-! ### Settle notices and open writes (R208) -/

/-- Whether two entries are those of one operation. -/
def OpenWrite.sameOp (w x : OpenWrite) : Bool := w.device == x.device && w.core == x.core && w.tag == x.tag

/-- A table with a write of an operation: one entry for each operation, whose range grows with its writes. -/
def addOpen (w : OpenWrite) : List OpenWrite → List OpenWrite
  | [] => [w]
  | x :: o => if w.sameOp x then { x with lo := min x.lo w.lo, hi := max x.hi w.hi } :: o else x :: addOpen w o

/-- An open write recorded for a device address: in the network interface, vault controller or slow-tier controller. -/
def State.recordOpen (s : State) (a : Nat) (w : OpenWrite) : State :=
  match classify a with
  | .fast c => s.modVault c fun v => { v with opens := addOpen w v.opens }
  | .slow t => s.modStack t fun k => { k with slowOpens := addOpen w k.slowOpens }
  | .sp c _ => s.modCore c fun k => { k with opens := addOpen w k.opens }
  | _ => s

/-- The open writes of the table that covers an address. -/
def State.opensAt (s : State) (a : Nat) : List OpenWrite :=
  match classify a with
  | .fast c => (s.vault c).opens
  | .slow t => (s.stack t).slowOpens
  | .sp c _ => (s.core c).opens
  | _ => []

/-- Whether a write finds its table full (R208). -/
def State.openFull (s : State) (a : Nat) (w : OpenWrite) : Bool :=
  64 ≤ (s.opensAt a).length && !(s.opensAt a).any w.sameOp

/-- Settle notices to the tables of this package that hold a write of an operation. -/
def State.localNotices (s : State) (c : Nat) (tag : W16) : State :=
  let has (o : List OpenWrite) := o.any fun w => w.device == none && w.core == c && w.tag == tag
  let note (s : State) (kind dest : Nat) : State :=
    s.crier { typ := 3, kind := kind, dest := dest, src := c, arg := 0, payload := tag.setWidth 32, event := none }
  let s := (s.cores.filter fun p => has p.2.opens).foldl (fun s p => note s 0 p.1) s
  let s := (s.vaults.filter fun p => has p.2.opens).foldl (fun s p => note s 1 p.1) s
  (s.stackMap.filter fun p => has p.2.slowOpens).foldl (fun s p => note s 1 (p.1 * 64)) s

/-- One address in each table that holds writes of a range: vaults, channels, or one scratchpad. -/
def tableAddrs (lo hi : Nat) : List Nat :=
  match classify lo with
  | .fast _ => (unitsOf (2 ^ 31) lo (hi - lo)).map (max lo)
  | .slow _ => ((unitsOf 4096 lo (hi - lo)).map (max lo)).take 16
  | _ => [lo]

/-- The tables of other modules that an operation's writes are in: device and an address of each. -/
def Entry.remotes (e : Entry) : List (Nat × Nat) :=
  e.outs.flatMap fun r => match r with
    | .mem (some d) lo hi => (tableAddrs lo hi).map fun a => (d, a)
    | _ => []

/-- Settle notices of an operation (R208): to every table that holds one of its writes, over the relay for a remote
module. -/
def State.settleNotices (s : State) (c : Nat) (e : Entry) : State :=
  e.remotes.dedup.foldl (fun s p => (s.relay c p.1 3 p.2 e.tag).getD s) (s.localNotices c e.tag)

/-! ### Refusal, failure and settlement -/

/-- Entries of an accumulator tile marked poisoned. -/
def Engine.poisonTile (g : Engine) (depth rows lane cols : Nat) : Engine :=
  let row (p : SMap Bool) (i : Nat) := smSetList false p ((depth + i) * 64 + lane) (List.replicate cols true)
  { g with poison := (List.range rows).foldl row g.poison }

/-- A refused operation (R135): its entry freed, settle notices for the open writes it made. -/
def State.refuse (s : State) (c : Nat) (e : Entry) : State := (s.freeEntry c e.slot).settleNotices c e

/-- The payload R528 gives classes 0x10 and 0x11. -/
def Entry.payload (e : Entry) : Nat := e.tag.toNat + e.opcode * 2 ^ 16 + e.queue * 2 ^ 22 + e.detail * 2 ^ 32

/-- TALLY_FAILED of an entry (R220). -/
def Entry.failedWord (e : Entry) : W64 :=
  BitVec.ofNat 64 (e.tag.toNat * 2 ^ 48 + e.opcode * 2 ^ 42 + e.fault * 2 ^ 32 + 1)

/-- Bytes or entries of this module made poisoned. -/
def State.poisonRng (s : State) (c : Nat) : Rng → State
  | .mem none lo hi => s.poisonRange lo hi
  | .mem (some _) _ _ => s
  | .acc g d n l m => s.modCore c fun k => k.setEngine g ((k.engine g).poisonTile d n l m)

/-- An operation ended as failed with the code and detail of its fault (R212): the output bytes it has written poisoned,
TALLY_FAILED unless one is held, event class 0x11 and source 9. Its outputs are committed (R213): DESIGN CHOICE (log entry 106),
its settle notices are sent at once. -/
def State.fail (s : State) (c : Nat) (e : Entry) : State :=
  let x := (s.entry c e.slot).getD e
  let s := x.written.foldl (fun s r => s.poisonRng c r) s
  let x := { x with state := .failed, fault := e.fault, detail := e.detail }
  let s := s.modEntry c e.slot fun _ => x
  let s := if s.bit (cA c TALLY_FAILED) 0 then s else s.setReg (cA c TALLY_FAILED) x.failedWord
  ((s.evCore c 0x11 x.fault x.payload).raiseCore c 9).settleNotices c x

/-- A fault met (R209, R212): the first starts a replay, with its event; a second fails the operation with the code of
the first. -/
def State.opFault (s : State) (c : Nat) (e : Entry) (code : Nat) (f : Entry → Entry) : State :=
  let x := (s.entry c e.slot).getD e
  if x.fault ≠ 0 then s.fail c x
  else
    let x := f { x with fault := code, state := .replaying }
    let s := s.modEntry c e.slot fun _ => x
    (s.count (cA c TALLY_REPLAYS)).evCore c 0x10 code x.payload

/-- Propagated poison (R216): once per operation. -/
def State.propagate (s : State) (c : Nat) (e : Entry) : State :=
  if ((s.entry c e.slot).getD e).propagated then s
  else
    let s := s.modEntry c e.slot fun x => { x with propagated := true }
    (s.addSat (cA c TALLY_POISON) 31 16 1).evCore c 0x02 0x30 (e.tag.toNat + e.opcode * 2 ^ 16)

/-- Whether an operation may settle (R203). -/
def State.canSettle (s : State) (c : Nat) (e : Entry) : Bool := e.state == .completed && s.openProducers c e = 0

/-- An operation completed (R134): its signal token incremented once; vector operations counted. -/
def State.complete (s : State) (c : Nat) (e : Entry) : State :=
  let s := s.modEntry c e.slot fun x => { x with state := .completed }
  let s := if e.queue = 2 then s.count (cA c VU_OPS) else s
  s.incToken c e.word.signal.toNat

/-! ### Ranges of an operation (R201) -/

/-- Whether VOP's function takes a second operand, and a third (R154). -/
def vopBinary (mode : Nat) : Bool := mode ∈ [1, 2, 3, 4, 5, 6, 8, 9, 0xA, 0xB, 0x10]
def vopTernary (mode : Nat) : Bool := mode = 6 || mode = 0xB

/-- The source of the latest stationary load issued to an engine before now (R147): of the last that has still to fill its buffer,
else of the buffer filled last. -/
def State.latestLoad (s : State) (c : Nat) (eng : Bool) : Option Desc :=
  match ((s.core c).tally.filter fun x => x.opcode = 1 && x.queue = (if eng then 1 else 0) &&
      (x.state == .queued || x.inProgress && !x.done)).getLast? with
  | some x => some x.a
  | none =>
    let g := (s.core c).engine eng
    (if g.latestB then g.bufB else g.bufA).src

/-- DEVICE of a GLOBAL operation, none where it names this module (R181). -/
def State.deviceOf (s : State) (w : BulkWord) : Option Nat :=
  let d := w.op.toNat % 16384
  if w.flags.getLsbD 2 && !(s.bit (pA BILO_ID) 31 && s.fld (pA BILO_ID) 13 0 = d) then some d else none

/-- The descriptor of accumulator entries (R138). -/
def Desc.entries (eng : Bool) (depth rows cols : Nat) : Desc :=
  ⟨BitVec.ofNat 64 (depth + (if eng then 3 else 2) * 2 ^ 48), 0, BitVec.ofNat 64 (rows + cols * 2 ^ 16), 0⟩

/-- The tiles an operation reads and writes (R201, R206). -/
def State.partsOf (s : State) (c : Nat) (e : Entry) : List Part × List Part :=
  let a := [Part.whole e.a none]
  let b := [Part.whole e.b none]
  let d := [Part.whole e.d none]
  let c3 := [Part.whole e.c none]
  let e2 := [Part.whole e.e none]
  let m := e.mode.toNat
  match e.opcode with
  | 0x01 => (a, [])
  | 0x02 =>
    let eng := e.queue = 1
    let load := match (e.tile.map (·.2)).getD (s.latestLoad c eng) with
      | some l => [Part.whole l none]
      | none => []
    (a ++ load, [Part.whole (.entries eng (e.word.op.toNat % 512) e.a.rows (if e.word.flags.getLsbD 2 then 32 else 64)) none])
  | 0x03 => (a, if e.word.flags.getLsbD 1 then d ++ a else d)
  | 0x08 =>
    let bm := e.word.flags.toNat % 4
    (a ++ (if vopBinary m && bm ≠ 3 then b else []) ++ (if vopTernary m then c3 else []), d)
  | 0x0A =>
    if e.mode.getLsbD 5 && e.d.blocky then (a ++ [⟨e.d, none, false, true⟩], [⟨e.d, none, true, false⟩]) else (a, d)
  | 0x0B => (a ++ (if e.mode.getLsbD 1 then [] else b), d ++ e2)
  | 0x0C => (a ++ (if e.mode.getLsbD 1 then b ++ c3 else []), d ++ e2)
  | 0x24 => (a, [])
  | 0x25 => ([], d)
  | 0x28 | 0x2A | 0x2B => (a, [Part.whole e.d (s.deviceOf e.word)])
  | 0x29 => ([Part.whole e.a (s.deviceOf e.word)], d)
  | 0x30 => ([], [])
  | 0x34 => (a, if e.word.flags.getLsbD 1 then b else [])
  | 0x38 => (a, [])
  | _ => (a, d)

/-- The input and output ranges of an operation. -/
def State.rangesOf (s : State) (c : Nat) (e : Entry) : List Rng × List Rng :=
  let p := s.partsOf c e
  (p.1.flatMap (·.ranges c), p.2.flatMap (·.ranges c))

/-- The bytes and entries an operation writes, row by row. -/
def State.outPlaces (s : State) (c : Nat) (e : Entry) : List Rng := (s.partsOf c e).2.flatMap (·.places c)

/-- The outputs of an operation written and checked: it may complete. -/
def State.finish (s : State) (c : Nat) (e : Entry) : State :=
  (s.modEntry c e.slot fun x => { x with done := true, written := [] }).wrote c e.slot (s.outPlaces c e)

/-- The master an operation's scratchpad accesses are made as (R76). -/
def Entry.master (e : Entry) : Nat :=
  if e.queue ≤ 1 then 1 else if e.queue = 2 then 2
  else if e.opcode = 0x20 ∨ e.opcode = 0x21 ∨ e.opcode = 0x34 ∨ e.opcode = 0x38 then 3 else 4

/-! ### Collisions in the exchange window (R90, R91) -/

/-- An access of a core's scratchpad: whether it is made at port B, the tag of the bulk operation it belongs to (0 for none),
and the spans of device addresses it reads and writes. An operation, named by its slot, may write fewer of them in one go. -/
structure PortUse where
  core : Nat
  portB : Bool
  tag : W16
  reads : List (Nat × Nat)
  writes : List (Nat × Nat)
  op : Option Nat

/-- Whether spans of bytes touch bank word w of core c. -/
def touchesWord (c w : Nat) (ps : List (Nat × Nat)) : Bool :=
  ps.any fun p => decide (p.2 ≠ 0) && decide (p.1 < spBase c + 256 * (w + 1)) && decide (spBase c + 256 * w < p.1 + p.2)

/-- The spans of ranges in memory of this module. -/
def spansOf (rs : List Rng) : List (Nat × Nat) :=
  rs.filterMap fun r => match r with
    | .mem none lo hi => some (lo, hi - lo)
    | _ => none

/-- The spans an operation reads and writes, row by row. -/
def State.useOf (s : State) (c : Nat) (e : Entry) : PortUse :=
  let p := s.partsOf c e
  ⟨c, e.master == 4, e.tag, spansOf (p.1.flatMap (·.places c)), spansOf (p.2.flatMap (·.places c)), some e.slot⟩

/-- Whether an operation in progress at port A, named by its tag, touches bank word w. -/
def State.atPortA (s : State) (c w : Nat) (tag : W16) : Bool :=
  match s.entryOf c tag with
  | some e => e.inProgress && e.master ≠ 4 && (touchesWord c w (s.useOf c e).reads || touchesWord c w (s.useOf c e).writes)
  | none => false

/-- The bytes of the bank word at device address u, but for those in the spans kept, as another state has them. -/
def State.wordFrom (s old : State) (u : Nat) (keep : List (Nat × Nat)) : State :=
  (List.range 256).foldl (fun s i =>
    let a := u + i
    let kept (b n : Nat) : Bool := keep.any fun p => decide (p.1 < b + n) && decide (b < p.1 + p.2)
    let s := if kept a 1 then s else s.setBytes a [old.byte a]
    if i % 8 = 0 && !kept a 8 then s.setSpMark a (old.spMarkAt a) else s) s

/-- The spans that an access has written, between two states: of an operation what its entry has noted in between. -/
def PortUse.done (p : PortUse) (before after : State) : List (Nat × Nat) :=
  match p.op with
  | none => p.writes
  | some slot =>
    let noted (s : State) : List Rng := ((s.entry p.core slot).map (·.written)).getD []
    let old := noted before
    let new := noted after
    spansOf (if new.take old.length = old then new.drop old.length else new)

/-- An access made while the other port meets it in one word of the exchange window. Where it is the reader it gets free
bytes; where both write and it came first, the word keeps what the other wrote. -/
def State.collide {α : Type} (s : State) (p : PortUse) (x : Collision) (f : State → State × α) : State × α :=
  let c := p.core
  let w := x.word.toNat
  let u := spBase c + 256 * w
  let reader : Bool := !x.bothWrite && x.readerB == p.portB
  if w < 0x1C00 ∨ !touchesWord c w (if reader then p.reads else p.writes) then f s
  else
    let tag : W16 := if !p.portB then p.tag else if s.atPortA c w x.tagA then x.tagA else 0
    let t :=
      if reader then
        let got := s.freeBytes 32
        let r := f (({ got.1 with spMark := smClear got.1.spMark u (u + 256) } : State).setBytes u got.2)
        (r.1.wordFrom s u (p.done s r.1), r.2)
      else if x.bothWrite && x.lateB ≠ p.portB then ((f s).1.wordFrom s u [], (f s).2)
      else f s
    let word := BitVec.ofNat 64 (tag.toNat * 2 ^ 48 + w * 2 ^ 28 + (if x.bothWrite then 8 else 0) + (if x.lateB then 4 else 0)
      + (if x.readerB then 2 else 0) + 1)
    (((t.1.addSat (cA c CORE_XW_COLLIDE) 31 0 1).setReg (cA c CORE_XW_LAST) word).raiseCore c 6, t.2)

/-- An access made amid the collisions that meet it, with what it reads. -/
def State.amidRead {α : Type} (s : State) (p : PortUse) (xs : List Collision) (f : State → State × α) : State × α :=
  xs.foldr (fun x f s => s.collide p x f) f s

/-- An access made amid the collisions that meet it. -/
def State.amid (s : State) (p : PortUse) (xs : List Collision) (f : State → State) : State :=
  (s.amidRead p xs fun s => (f s, ())).1

/-- The collisions among upsets. -/
def collisionsOf (us : List Upset) : List Collision :=
  us.filterMap fun u => match u with
    | .collide x => some x
    | _ => none

/-! ### Issue (R77, R79, R117, R132, R201) -/

def State.desc (s : State) (c : Nat) (n : BitVec 4) : Desc :=
  let g (w : Nat) := smGet (0 : W64) (s.core c).td (4 * n.toNat + w)
  ⟨g 0, g 1, g 2, g 3⟩

/-- The slot the next operation takes: DESIGN CHOICE (log entry 105), the lowest that is free. -/
def State.freeSlot (s : State) (c : Nat) : Nat :=
  ((List.range 512).find? fun n => ((s.core c).tally.all fun e => e.slot ≠ n)).getD 0

/-- Whether the control core stalls at a bulk instruction of queue q (R79): 16 entries are kept under a lend. -/
def State.issueStalls (s : State) (c q : Nat) : Bool :=
  let n := (s.core c).tally.length
  queueDepth q ≤ s.queued c q || 512 ≤ n ||
    ((s.core c).lentTo.isSome && 496 ≤ ((s.core c).tally.filter fun e => !e.unit).length)

/-- The entry of an operation at its issue (R117, R189, R190, R201). Descriptors C and E are those of op-specific [19:16]
and [15:12]; signal targets are those that TSIG and FWD name. -/
def State.newEntry (s : State) (c opcode queue : Nat) (mode : Byte) (w : BulkWord) : Entry :=
  let k := s.core c
  let slot := s.freeSlot c
  let g := smGet 0 k.gens slot
  let target (t : Nat) : W32 := (s.reg (cA c TOK_TARGET + 4 * t)).setWidth 32
  { slot := slot, gen := if g = 127 then 1 else g + 1, opcode := opcode, mode := mode, word := w, queue := queue,
    a := s.desc c w.a, b := s.desc c w.b, d := s.desc c w.d, c := s.desc c (BitVec.ofNat 4 (w.op.toNat / 65536)),
    e := s.desc c (BitVec.ofNat 4 (if opcode = 0x0B then w.op.toNat / 65536 else w.op.toNat / 4096)),
    seed := k.seed, stepNo := k.stepNo, idxBase := k.idxBase, vscalar := k.vscalar,
    target := target (w.op.toNat % 16), fwd := target w.signal.toNat, unit := false, state := .queued, ins := [], outs := [],
    producers := [], heldR := false, heldW := false, short := false, tokenTaken := false, tile := none, fault := 0,
    detail := 0, resume := (0, 0), again := false, waitFor := none, poisonAt := 0, repairDone := false, status := 0,
    done := false, propagated := false, sent := [], inbox := [], far := none, written := [], changed := false }

/-- A bulk instruction at pc (R79, R105, R106, R132): a misplaced or illegal one traps with cause 1; a full queue or tally
stalls the control core; else its entry enters the tally and its queue. -/
def State.issue (s : State) (c opcode queue : Nat) (mode : Byte) (w : BulkWord) (legal : Bool) : State :=
  s.instr c fun s =>
    if (s.core c).pc.toNat % 8 ≠ 0 ∨ !legal then s.trap c 1 ((wordB0 opcode mode w).setWidth 64)
    else if s.issueStalls c queue then s.count (cA c CORE_ISSUE_STALL)
    else
      let e := s.newEntry c opcode queue mode w
      let e := { e with ins := (s.rangesOf c e).1, outs := (s.rangesOf c e).2 }
      (s.modCore c fun k => { k with tally := k.tally ++ [e], gens := smSet 0 k.gens e.slot e.gen }).retire c 8

end Sys2Proof.Machine
end

