-- ==== Sys2Proof/Machine/Tiles.lean ====
section
/-! DEFINITION. Tiles read and written: elements with their poison (R216), accumulator entries with their parity (R69),
and the surviving source of a poisoned input (R214). -/

namespace Sys2Proof.Machine

/-- An FP32 value with its poison flag. -/
abbrev PVal := W32 × Bool
/-- Encoded element bits with their poison flag. -/
abbrev PElem := Nat × Bool

/-- Elements of bytes, each poisoned with any byte that holds part of it (R29, R216). -/
def elemsOf (ps : List PByte) (w n : Nat) : List PElem :=
  let bs := dataOf ps
  (List.range n).map fun i =>
    (streamElem bs w i, ((ps.drop (i * w / 8)).take ((i * w % 8 + w + 7) / 8)).any (·.2))

/-- A row of elements of a scratchpad tile, and its scale bytes. -/
structure PRow where
  elems : List PElem
  scales : List PElem
  deriving DecidableEq, Repr

/-- The scale of element i of a row: 127 for formats without. -/
def PRow.scaleOf (r : PRow) (i : Nat) : PElem := r.scales.getD (i / 32) (127, false)

/-- The rows of a scratchpad tile. -/
def State.readRows (s : State) (c : Nat) (d : Desc) : State × List PRow :=
  (List.range d.rows).foldl (fun (acc : State × List PRow) r =>
    let got := acc.1.readSp c (d.base + r * d.rowStride) d.rowLen
    let s := got.1
    let es := got.2
    let got := if d.blocky then s.readSp c (d.scaleBase + r * d.scaleStride) (d.cols / 32) else (s, [])
    let s := got.1
    let ss := got.2
    (s, acc.2 ++ [⟨elemsOf es d.elemBits d.cols, elemsOf ss 8 (d.cols / 32)⟩])) (s, [])

/-- The physical column group of a logical column or lane: groups from the disabled one on move up (R71). -/
def State.groupOf (s : State) (c : Nat) (g : Bool) (col : Nat) : Nat :=
  let off := s.fld (eA c g ENG0_STATUS) 23 16
  col / 8 + if off ≠ 0 ∧ off.log2 ≤ col / 8 then 1 else 0

/-- An accumulator entry read (R69): wrong parity poisons it, with its event and ENGn_FAULT; a poisoned entry is delivered as
zero (R275). -/
def State.readEntry (s : State) (c : Nat) (g : Bool) (depth lane : Nat) (tag : W16) : State × PVal :=
  let e := (s.core c).engine g
  let n := depth * 64 + lane
  if smGet false e.parity n then
    let s := s.modCore c fun k =>
      let e := k.engine g
      k.setEngine g { e with parity := smSet false e.parity n false, poison := smSet false e.poison n true }
    let s := s.setReg (eA c g ENG0_FAULT)
      (BitVec.ofNat 64 (tag.toNat * 2 ^ 48 + depth * 2 ^ 39 + 2 ^ (12 + s.groupOf c g lane) + 3 * 16 + 1))
    (s.evCore c 0x02 0x10 (tag.toNat + depth * 2 ^ 16 + lane * 2 ^ 32 + if g then 2 ^ 40 else 0),
      (0, true))
  else if smGet false e.poison n then (s, (0, true))
  else (s, (smGet 0 e.acc n, false))

/-- Rows of FP32 values of a tile a vector operation reads (R152, R153): BF16 widened exactly, FP32, or entries. -/
def State.readVals (s : State) (c : Nat) (d : Desc) (tag : W16) : State × List (List PVal) :=
  if d.kind = 2 ∨ d.kind = 3 then
    (List.range d.rows).foldl (fun (acc : State × List (List PVal)) r =>
      let got := (List.range d.cols).foldl (fun (p : State × List PVal) j =>
        let got := p.1.readEntry c d.engine (d.depth + r) (d.lane + j) tag
        let s := got.1
        let v := got.2
        (s, p.2 ++ [v])) (acc.1, [])
      let s := got.1
      let vs := got.2
      (s, acc.2 ++ [vs])) (s, [])
  else
    let got := s.readRows c d
    let s := got.1
    let rows := got.2
    (s, rows.map fun r => r.elems.map fun e =>
      (BitVec.ofNat 32 (if d.fmt = 6 then e.1 * 65536 else e.1), e.2))

/-- Bytes of encoded elements, each poisoned with any element in it. -/
def packPoison (w : Nat) (es : List PElem) : List PByte :=
  let bs := packElems w (es.map (·.1))
  bs.mapIdx fun i b => (b, (List.range es.length).any fun k =>
    decide (k * w < 8 * i + 8) && decide (8 * i < k * w + w) && (es.getD k (0, false)).2)

/-- Rows of encoded elements written into a scratchpad tile. -/
def State.writeElems (s : State) (c : Nat) (d : Desc) (rows : List (List PElem)) : State :=
  (rows.zipIdx).foldl (fun s p => (s.writeSp c (d.base + p.2 * d.rowStride) (packPoison d.elemBits p.1)).1) s

/-- Scale bytes written into a tile's scale rows. -/
def State.writeScales (s : State) (c : Nat) (d : Desc) (rows : List (List PElem)) : State :=
  (rows.zipIdx).foldl (fun s p => (s.writeSp c (d.scaleBase + p.2 * d.scaleStride) (packPoison 8 p.1)).1) s

/-- Rows of FP32 values written into an FP32 tile. -/
def State.writeVals (s : State) (c : Nat) (d : Desc) (rows : List (List PVal)) : State :=
  s.writeElems c d (rows.map fun r => r.map fun v => (v.1.toNat, v.2))

/-- The bytes of the pieces of a tile in device memory, in order: a device row or line that several pieces touch is read once
(R173). -/
def State.readPieces (s : State) (ps : List (Nat × Nat)) (kind : ReadKind := .access) : State × List PByte :=
  match (ps.head?.map fun p => classify p.1) with
  | some (.fast _) => s.readFastRows ps kind
  | some (.slow _) => s.readLines ps kind
  | _ => ps.foldl (fun (acc : State × List PByte) p =>
    let got := acc.1.readDev p.1 p.2 kind
    let s := got.1
    let bs := got.2
    (s, acc.2 ++ bs)) (s, [])

/-- Bytes that come piece by piece, as the parts they are. -/
def splitPieces : List (Nat × Nat) → List PByte → List (Nat × List PByte)
  | [], _ => []
  | (a, n) :: ps, bs => (a, bs.take n) :: splitPieces ps (bs.drop n)

/-- Parts of one write to device memory, all in one region: a row or line that several of them touch is written once (R173); true
where poison stopped a narrow part. -/
def State.writeParts (s : State) (parts : List (Nat × List PByte)) : State × Bool :=
  match (parts.head?.map fun p => classify p.1) with
  | some (.fast _) => s.writeFastRows parts
  | some (.slow _) => s.writeLines parts
  | _ => parts.foldl (fun (acc : State × Bool) p =>
      let got := acc.1.writeDev p.1 p.2
      (got.1, acc.2 || got.2)) (s, false)

/-- Bytes written over the pieces of a tile in device memory, in order. -/
def State.writePieces (s : State) (ps : List (Nat × Nat)) (bs : List PByte) : State × Bool := s.writeParts (splitPieces ps bs)

/-- The first byte of each poisoned unit that a list of pieces meets, as stored. -/
def State.poisonOf (s : State) (ps : List (Nat × Nat)) : List Nat :=
  ps.flatMap fun p => if p.2 = 0 then [] else (s.poisonedIn p.1 (p.1 + p.2)).map (max p.1)

/-! ### The surviving source (R214) -/

/-- Entries that rewrite their outputs from their own inputs alone: HMOV, SMOV, RRD, and vector operations whose inputs
lie in the scratchpad. -/
def Entry.rewrites (e : Entry) : Bool :=
  e.opcode = 0x20 || e.opcode = 0x21 || e.opcode = 0x29 ||
    (decide (8 ≤ e.opcode) && decide (e.opcode ≤ 0xC) && e.ins.all fun r => match r with
      | .mem .. => true
      | .acc .. => false)

/-- Where poisoned bytes can be had again. -/
inductive Source where
  | entry (slot : Nat)
  | log (r : SrcRec)
  deriving DecidableEq, Repr

/-- The surviving source of the byte at a device address (R214): the entry that wrote it last, or a source-log record whose copy
covers it. -/
def State.source (s : State) (c a : Nat) : Option Source :=
  let here : List Rng := [.mem none a (a + 1)]
  let logged : Option Source :=
    if !s.bit (cA c TALLY_CONTROL) 0 then none
    else (((s.core c).srcLog.filter fun r => overlapAny ((Part.whole r.d none).places c) here).getLast?).map .log
  match ((s.core c).tally.filter fun e => overlapAny e.written here).getLast? with
  | some e => if e.state == .completed && e.rewrites then some (.entry e.slot) else logged
  | none => logged

/-- A poisoned input whose source survives, at a byte (R209, R215): the operation stops and awaits the repair and its replay. -/
def State.poisonFault (s : State) (c : Nat) (e : Entry) (a : Nat) : State :=
  s.opFault c e 5 fun x => { x with poisonAt := a, detail := a * 2 ^ 32, repairDone := false }

/-- An operation that read its inputs, some poisoned where `bad` (R215, R216), in the units at `units`: where one of them has a
surviving source the operation stops; else it goes on, `f` its effect, and the propagation is reported. -/
def State.meetPoison (s : State) (c : Nat) (e : Entry) (units : List Nat) (bad : Bool) (f : State → State) : State :=
  if !bad then f s
  else match units.find? fun a => (s.source c a).isSome with
    | none => (f s).propagate c e
    | some a => s.poisonFault c e a

end Sys2Proof.Machine
end

