-- ==== Sys2Proof/Machine/EngineOps.lean ====
section
/-! DEFINITION. The matrix engine: stationary loads (R52, R56 to R58, R144 to R146), streams in both orientations (R53,
R59, R61, R73, R147 to R149), their checks and faults (R65 to R70), and accumulator read-out (R150, R151). -/

namespace Sys2Proof.Machine

/-- The presented width (R72). -/
def State.engWidth (s : State) (c : Nat) (g : Bool) : Nat := s.fld (eA c g ENG0_STATUS) 15 8

def Tile.elem (t : Tile) (k j : Nat) : Nat := smGet 0 t.elems (j * 32 + k)
def Tile.scale (t : Tile) (j : Nat) : Nat := smGet 0x7F t.scales j
def Tile.marked (t : Tile) (k j : Nat) : Bool := smGet false t.marks (j * 32 + k)
def Tile.val (t : Tile) (k j : Nat) : Val := t.fmt.val (t.elem k j)

/-- The square-scaled test of R58; BF16 and FP32 tiles count as square-scaled. -/
def Tile.square (t : Tile) (width : Nat) : Bool :=
  !t.fmt.blocked ||
    ((List.range 32).all fun j => t.scale j == t.scale 0) &&
      ((List.range (width - 32)).all fun j => t.scale (32 + j) == t.scale 32)

/-- The buffer the current stream uses: the one the latest load filled. -/
def Engine.current (g : Engine) : Tile := if g.latestB then g.bufB else g.bufA

/-! ### Stationary loads -/

/-- A tile read from its source (R145, R58): row r of the descriptor is column r; the columns beyond take zeros and the
scale of the highest loaded column of their half. Each element's residue is stored with it. A poisoned unit marks its cells, and
with a cell's mark both elements of a cell that holds two (R52); DESIGN CHOICE (log entry 101), a poisoned scale byte marks every
cell of its column. -/
def State.loadTile (s : State) (c : Nat) (d : Desc) (width : Nat) : State × Tile × Bool :=
  let got := s.readRows c d
  let s := got.1
  let rows := got.2
  let f := d.format
  let key (j k : Nat) := j * 32 + k
  let cells := rows.zipIdx.flatMap fun p => p.1.elems.zipIdx.map fun q => (key p.2 q.2, q.1)
  let elems := cells.foldl (fun m x => smSet 0 m x.1 x.2.1) ([] : SMap Nat)
  let res := cells.foldl (fun m x => smSet 0 m x.1 (f.residue x.2.1)) ([] : SMap Nat)
  let bad (j : Nat) := ((rows.getD j ⟨[], []⟩).scaleOf 0).2
  let cell (i : Nat) : List Nat := if f = .fp32 then [i] else [i, i / 32 * 32 + (i + 16) % 32]
  let marks := (cells.filter fun x => x.2.2 || bad (x.1 / 32)).foldl
    (fun m x => (cell x.1).foldl (fun m i => smSet false m i true) m) ([] : SMap Bool)
  let scaleOf (j : Nat) : Nat :=
    let top := if j < 32 then min d.rows 32 else d.rows
    if j < d.rows then ((rows.getD j ⟨[], []⟩).scaleOf 0).1
    else if j < 32 then ((rows.getD (top - 1) ⟨[], []⟩).scaleOf 0).1
    else if 32 < d.rows then ((rows.getD (top - 1) ⟨[], []⟩).scaleOf 0).1
    else 0x7F
  let scales := if f.blocked then
      (List.range width).foldl (fun m j => smSet 0x7F m j (scaleOf j)) ([] : SMap Nat)
    else []
  (s, ⟨f, d.rows, elems, scales, res, marks, some d⟩, !marks.isEmpty)

/-- A load into a buffer (R56, R57, R146): an FP32 tile occupies both and the load after it fills A. -/
def Engine.put (g : Engine) (t : Tile) : Engine :=
  if t.fmt = .fp32 then { g with bufA := t, bufB := t, latestB := true }
  else if g.latestB then { g with bufA := t, latestB := false }
  else { g with bufB := t, latestB := true }

/-- A tile put back into the buffer it was in; an FP32 tile is in both. -/
def Engine.reload (g : Engine) (b : Bool) (t : Tile) : Engine :=
  if t.fmt = .fp32 then { g with bufA := t, bufB := t } else g.setBuffer b t

/-- SQ_A, SQ_B and FP32_TILE after a load (R75). -/
def State.showTiles (s : State) (c : Nat) (g : Bool) : State :=
  let e := (s.core c).engine g
  let w := s.engWidth c g
  let a := eA c g ENG0_STATUS
  ((s.setBit a 2 (e.bufA.square w)).setBit a 3 (e.bufB.square w)).setBit a 4 (e.current.fmt == .fp32)

/-- What refuses an SLD (R72, R139, R144, R529). -/
def State.sldCause (s : State) (c : Nat) (e : Entry) : Option Nat :=
  if e.a.fmt = 8 then some 6
  else if !e.a.spOk || e.a.cols ≠ 32 || decide (s.engWidth c (e.queue = 1) < e.a.rows) then some 5
  else none

/-- The stationary load's effect. -/
def State.doSld (s : State) (c : Nat) (e : Entry) : State :=
  let g : Bool := e.queue = 1
  let got := s.loadTile c e.a (s.engWidth c g)
  let s := got.1
  let t := got.2.1
  let bad := got.2.2
  s.meetPoison c e (s.poisonOf (spPieces c e.a)) bad fun s =>
    ((s.modCore c fun k => k.setEngine g ((k.engine g).put t)).showTiles c g).finish c e

/-! ### Streams -/

/-- Whether a tile's format pairs with a streamed format (R31, R55). -/
def pairs (a b : Fmt) : Bool := (a.blocked && b.blocked) || a == b

/-- The blocks of a streamed row: one in normal orientation and on a 56-wide engine, two transposed (R53, R61, R73). -/
def blocksOf (trans : Bool) (width : Nat) : Nat := if trans && width = 64 then 2 else 1

/-- What one block step gives one output lane: the block or group value, the operands for the flags, whether a scale is
NaN, and whether a poisoned element takes part. DESIGN CHOICE (log entry 103): a filled column is an element of value zero, whose
product with an infinity or a NaN is NaN as R33 has it. -/
def stepValue (t : Tile) (trans : Bool) (row : PRow) (f : Fmt) (lane block : Nat) :
    Val × List (Val × Val) × Bool × Bool :=
  let idx := List.range 32
  let pairsOf := idx.map fun k =>
    if trans then (t.val lane (block * 32 + k), f.val ((row.elems.getD (block * 32 + k) (0, false)).1))
    else (t.val k lane, f.val ((row.elems.getD k (0, false)).1))
  let sa := t.scale (if trans then block * 32 else lane)
  let got := row.scaleOf (block * 32)
  let sb := got.1
  let sbad := got.2
  let bad := sbad || idx.any fun k =>
    (row.elems.getD (if trans then block * 32 + k else k) (0, false)).2
      || (if trans then t.marked lane (block * 32 + k) else t.marked k lane)
  let v := if t.fmt.blocked then blockValue sa sb pairsOf else groupValue t.fmt pairsOf
  (v, pairsOf, t.fmt.blocked && (sa == 0xFF || sb == 0xFF), bad)

/-- One entry updated by a block step (R34, R59, R66, R69, R216): its parity is checked, and the prior value is +0 and good where
the step initialises it. -/
def State.updateEntry (s : State) (c : Nat) (g : Bool) (depth lane : Nat) (init : Bool) (tag : W16)
    (v : Val × List (Val × Val) × Bool × Bool) : State :=
  let got := s.readEntry c g depth lane tag
  let s := got.1
  let prior : PVal := if init then (0, false) else got.2
  let out := fusedAdd prior.1 v.1
  let fl := stepFlags prior.1 v.2.2.1 v.2.1 v.1 out
  let n := depth * 64 + lane
  let s := s.modCore c fun k =>
    let e := k.engine g
    k.setEngine g { e with acc := smSet 0 e.acc n out, poison := smSet false e.poison n (prior.2 || v.2.2.2),
                           parity := smSet false e.parity n false }
  s.orReg (eA c g ENG0_FLAGS) (fl.setWidth 64)

/-- One block step: every output lane (R53, R61, R149). -/
def State.blockStep (s : State) (c : Nat) (g : Bool) (t : Tile) (trans init : Bool) (row : PRow) (f : Fmt)
    (depth block : Nat) (tag : W16) : State :=
  let lanes := if trans then 32 else t.loaded
  let s := (List.range lanes).foldl (fun s j =>
    s.updateEntry c g depth j (init && block == 0) tag (stepValue t trans row f j block)) s
  s.count (eA c g ENG0_BLOCKS)

/-- Steps in order until the list ends (R36). -/
def State.runSteps (s : State) (c : Nat) (g : Bool) (t : Tile) (trans init : Bool) (rows : List PRow) (f : Fmt)
    (base : Nat) (tag : W16) (steps : List (Nat × Nat)) : State :=
  steps.foldl (fun s p => s.blockStep c g t trans init (rows.getD p.1 ⟨[], []⟩) f (base + p.1) p.2 tag) s

/-- The group count of R67 and the report of R70. -/
def State.countGroup (s : State) (c : Nat) (g : Bool) (grp : Nat) : State :=
  let a := eA c g ENG0_RES_COUNT
  let old := s.fld a (4 * grp + 3) (4 * grp)
  let n := min (old + 1) 15
  let s := s.setFld a (4 * grp + 3) (4 * grp) n
  let limit := s.fld (eA c g ENG0_RES_LIMIT) 3 0
  if limit ≠ 0 ∧ old < limit ∧ limit ≤ n then
    (s.setBit (eA c g ENG0_SUSPECT) grp true).evCore c 0x10 0x03 (grp + if g then 256 else 0)
  else s

/-- A mismatch at a step of an MMA: which checker found it, row and block, the failing sum paths and the groups it counts for. -/
structure Mismatch where
  adder : Bool
  row : Nat
  block : Nat
  paths : Nat
  groups : List Nat

/-- A mismatch at a step (R67): ENGn_FAULT, the group counts, and the report to the tally; the steps before it are written. -/
def State.engineFault (s : State) (c : Nat) (e : Entry) (lanes : Nat) (m : Mismatch) : State :=
  let g : Bool := e.queue = 1
  let base := e.word.op.toNat % 512
  let rows := if m.block = 0 then m.row else m.row + 1
  let s := s.modEntry c e.slot fun x => { x with written := if rows = 0 then [] else [.acc g base rows 0 lanes] }
  let s := s.setReg (eA c g ENG0_FAULT) (BitVec.ofNat 64
    (e.tag.toNat * 2 ^ 48 + (base + m.row) * 2 ^ 39 + m.block * 2 ^ 28 + m.paths % 65536 * 2 ^ 12 + (if m.adder then 2 else 1) * 16
      + 1))
  let s := m.groups.foldl (fun s i => s.countGroup c g i) s
  s.opFault c e (if m.adder then 2 else 1) fun x =>
    { x with resume := (m.row, m.block),
             detail := m.paths % 65536 + (base + m.row) * 2 ^ 16 + (if g then 2 ^ 27 else 0) + m.block * 2 ^ 32 }

/-- The physical column groups an engine's n lanes lie in (R71). -/
def State.groupUsed (s : State) (c : Nat) (g : Bool) (lanes grp : Nat) : Bool :=
  let off := s.fld (eA c g ENG0_STATUS) 23 16
  if off = 0 then decide (8 * grp < lanes)
  else if off = 2 ^ grp then false
  else decide (8 * (if off.log2 < grp then grp - 1 else grp) < lanes)

/-- The columns whose elements in a block step's sum path for a lane differ from their stored residues, where the prediction
and the sum so differ modulo 3 (R65); none where the check passes. What R35's truncation discards is taken off both. -/
def residueCheck (t : Tile) (trans : Bool) (row : PRow) (f : Fmt) (lane block : Nat) : List Nat :=
  let terms := (List.range 32).filterMap fun k =>
    let key := if trans then (block * 32 + k) * 32 + lane else lane * 32 + k
    let want := smGet 0 t.res key
    let held := t.fmt.residue (smGet 0 t.elems key)
    let w := f.residue (row.elems.getD (if trans then block * 32 + k else k) (0, false)).1
    if want = held then none else some (key / 32, (want + 3 - held) * w)
  if (terms.map (·.2)).foldl (· + ·) 0 % 3 = 0 then [] else terms.map (·.1)

/-- The residue mismatch that stored elements give at a step (R65, R67): one checker for each column, or transposed for each cell
row, which serves outputs k and k + 16. DESIGN CHOICE (log entry 110): the groups counted are those of the columns in error. -/
def State.storedMismatch (s : State) (c : Nat) (g : Bool) (t : Tile) (trans : Bool) (row : PRow) (f : Fmt) (p : Nat × Nat) :
    Option Mismatch :=
  if (t.elems.map (·.1) ++ t.res.map (·.1)).all fun i => smGet 0 t.res i = t.fmt.residue (smGet 0 t.elems i) then none
  else
    let bad := (List.range (if trans then 32 else t.loaded)).map fun j => (j, residueCheck t trans row f j p.2)
    let bad := bad.filter fun x => !x.2.isEmpty
    let groups := ((bad.flatMap (·.2)).map (s.groupOf c g)).dedup
    let paths := if trans then (bad.map fun x => x.1 % 16).dedup else groups
    if bad.isEmpty then none else some ⟨false, p.1, p.2, (paths.map (2 ^ ·)).foldl (· + ·) 0, groups⟩

/-- What refuses an MMA (R59, R63, R148, R529). -/
def State.mmaCause (s : State) (c : Nat) (e : Entry) : Option Nat :=
  let g : Bool := e.queue = 1
  let t := ((s.core c).engine g).current
  let w := s.engWidth c g
  let trans := e.word.flags.getLsbD 2
  let cols := if trans && w = 64 then 64 else 32
  if e.a.fmt = 8 || (decide (e.a.fmt ≤ 7) && !pairs t.fmt e.a.format) then some 6
  else if !e.a.spOk || e.a.cols ≠ cols || decide (512 < e.word.op.toNat % 512 + e.a.rows) then some 5
  else if trans && !t.square w then some 4
  else none

/-- The stream's effect from a step on, through a tile, with the mismatch it meets. -/
def State.stream (s : State) (c : Nat) (e : Entry) (t : Tile) (start : Nat × Nat) (mis : Option StepFault) : State :=
  let g : Bool := e.queue = 1
  let trans := e.word.flags.getLsbD 2
  let init := e.word.flags.getLsbD 1
  let base := e.word.op.toNat % 512
  let nb := blocksOf trans (s.engWidth c g)
  let got := s.readRows c e.a
  let s := got.1
  let rows := got.2
  let badIn := rows.any fun r => r.elems.any (·.2) || r.scales.any (·.2)
  s.meetPoison c e (s.poisonOf (spPieces c e.a)) badIn fun s =>
    let lanes := if trans then 32 else t.loaded
    let all := (List.range e.a.rows).flatMap fun r => (List.range nb).map fun b => (r, b)
    let todo := all.filter fun p => start.1 < p.1 || (start.1 == p.1 && start.2 ≤ p.2)
    -- an armed injection strikes the first step that uses its group (R75); its cell rows are free
    let inj := eA c g ENG0_INJECT
    let grp := s.fld inj 10 8
    let uses (p : Nat × Nat) : Bool := if trans then
        s.groupUsed c g (32 * p.2 + 32) grp && !s.groupUsed c g (32 * p.2) grp
      else s.groupUsed c g t.loaded grp
    let strike := if s.bit inj 0 then todo.find? uses else none
    let found (p : Nat × Nat) : Option Mismatch :=
      if strike = some p then some ⟨false, p.1, p.2, if trans then s.takeFree.1.toNat % 65536 else 2 ^ grp, [grp]⟩
      else match s.storedMismatch c g t trans (rows.getD p.1 ⟨[], []⟩) e.a.format p, mis with
        | some m, _ => some m
        | none, some m =>
          if (m.row, m.block) = p then some ⟨m.adder, p.1, p.2, m.paths.toNat,
            if trans then [m.group.toNat] else (List.range 8).filter fun i => m.paths.getLsbD i⟩
          else none
        | none, none => none
    match todo.findSome? found with
    | none =>
      let s := (s.runSteps c g t trans init rows e.a.format base e.tag todo).finish c e
      if !badIn && t.marks ≠ [] then s.propagate c e else s
    | some m =>
      let s : State := if strike = some (m.row, m.block) then s.takeFree.2.setBit inj 0 false else s
      (s.runSteps c g t trans init rows e.a.format base e.tag (todo.takeWhile fun q => q ≠ (m.row, m.block))).engineFault c e lanes m

/-- MMA's effect (R147): through the buffer the latest load filled, whose source is an input from now on; ACTIVE shows it: DESIGN
CHOICE (log entry 102), B for an FP32
tile, which is in both. -/
def State.doMma (s : State) (c : Nat) (e : Entry) (mis : Option StepFault) : State :=
  let g : Bool := e.queue = 1
  let en := (s.core c).engine g
  let load := match en.current.src with
    | some d => d.ranges c none
    | none => []
  let s := (s.setBit (eA c g ENG0_STATUS) 1 en.latestB).modEntry c e.slot fun x =>
    { x with tile := some (en.latestB, en.current.src), ins := e.a.ranges c none ++ load }
  s.stream c { e with tile := some (en.latestB, en.current.src) } en.current (0, 0) mis

/-- The replay of an MMA (R67, R147): its tile reloaded from its source into its buffer, or the reset tile; the stream
resumes at the recorded step. -/
def State.replayMma (s : State) (c : Nat) (e : Entry) (mis : Option StepFault) : State :=
  let g : Bool := e.queue = 1
  match e.tile with
  | some (b, some d) =>
    let got := s.loadTile c d (s.engWidth c g)
    got.1.meetPoison c e (got.1.poisonOf (spPieces c d)) got.2.2 fun s =>
      (s.modCore c fun k => k.setEngine g ((k.engine g).reload b got.2.1)).stream c e got.2.1 e.resume mis
  | some (b, none) => (s.modCore c fun k => k.setEngine g ((k.engine g).reload b Tile.reset)).stream c e Tile.reset e.resume mis
  | none => s.stream c e Tile.reset e.resume mis

/-! ### Read-out -/

/-- What refuses an ARD (R150, R529). -/
def State.ardCause (s : State) (c : Nat) (e : Entry) : Option Nat :=
  let g : Bool := e.queue = 1
  if (decide (e.a.fmt ≤ 8) && e.a.fmt ≠ 7) || (decide (e.d.fmt ≤ 8) && e.d.fmt ≠ 7) then some 6
  else if !e.a.accOk (s.engWidth c g) || e.a.engine ≠ g || !e.d.spOk || e.a.rows ≠ e.d.rows || e.a.cols ≠ e.d.cols then
    some 5
  else none

/-- ARD's effect (R150, R151): values bit for bit, poison as poison; entries set to +0 under ZERO. -/
def State.doArd (s : State) (c : Nat) (e : Entry) : State :=
  let g : Bool := e.queue = 1
  let got := s.readVals c e.a e.tag
  let s := got.1
  let rows := got.2
  s.meetPoison c e [] (rows.any fun r => r.any (·.2)) fun s =>
    let s := s.writeVals c e.d rows
    let s := if e.word.flags.getLsbD 1 then
        (List.range e.a.rows).foldl (fun s i => s.modCore c fun k =>
          let en := k.engine g
          let lo := (e.a.depth + i) * 64 + e.a.lane
          k.setEngine g { en with acc := smClear en.acc lo (lo + e.a.cols), poison := smClear en.poison lo (lo + e.a.cols) }) s
      else s
    s.finish c e

/-- An engine refusal (R74): ENGn_FAULT and source 1. -/
def State.engineRefuse (s : State) (c : Nat) (e : Entry) (cause : Nat) : State :=
  let g : Bool := e.queue = 1
  ((s.setReg (eA c g ENG0_FAULT) (BitVec.ofNat 64 (e.tag.toNat * 2 ^ 48 + cause * 16 + 1))).refuse c e).raiseCore c 1

end Sys2Proof.Machine
end

