-- ==== Sys2Proof/Machine/NetOps.lean ====
section
/-! DEFINITION. Packets (R226, R227), their routing (R229), epoch checks (R238), answers (R187) and the choice of a Bilo
port (R371). -/

namespace Sys2Proof.Machine

/-- Poison flags of data, one for each 64 bytes (R276). -/
def flitPoison (ps : List PByte) : List Bool :=
  (List.range ((ps.length + 63) / 64)).map fun i => anyPoison ((ps.drop (64 * i)).take 64)

/-- A packet's bytes with their poison. -/
def Packet.pbytes (p : Packet) : List PByte := p.data.mapIdx fun i b => (b, p.poison.getD (i / 64) false)

/-- A packet with nothing in it, from a core to a core. -/
def Packet.blank (typ dest src : Nat) (tag : W16) : Packet :=
  { typ := typ, dest := dest, src := src, depoch := 0, sepoch := 0, tag := tag, channel := 0, red := 0, count := 1,
    arrive := 0, detour := false, addr := 0, first := false, contrib := 0, gen := 0, fmt := 0, shape := 0, final := true,
    status := 0, len := 0, pieces := [], unit := 0, data := [], poison := [], senders := [], phys := 0, checked := false, plan := none,
    held := 0, port := none, place := .injected }

/-- A packet handed to a core's network interface: stamped with the epochs of its copy of the map (R237). -/
def State.inject (s : State) (p : Packet) : State :=
  let p := { p with depoch := s.nodeEpoch p.src (p.dest / 64), sepoch := s.nodeEpoch p.src (p.src / 64), phys := s.physOf p.src }
  s.modNet fun n => { n with packets := n.packets ++ [p] }

/-- A packet a base die or vault controller puts on the network at a logical core; SEPOCH is not checked. -/
def State.injectAt (s : State) (core : Nat) (p : Packet) : State :=
  let p := { p with depoch := s.nodeEpoch core (p.dest / 64), sepoch := s.nodeEpoch core (core / 64), checked := true,
                    phys := s.physOf core, place := .router core }
  s.modNet fun n => { n with packets := n.packets ++ [p] }

/-- Packet i taken off the network. -/
def State.dropPacket (s : State) (i : Nat) : State := s.modNet fun n => { n with packets := n.packets.eraseIdx i }

def State.modPacket (s : State) (i : Nat) (f : Packet → Packet) : State :=
  s.modNet fun n => { n with packets := n.packets.modify i f }

/-- The response class holds types 3 and 6 (R228). -/
def Packet.response (p : Packet) : Bool := p.typ == 3 || p.typ == 6

/-- Whether a packet in router c waits in the buffer of the link that p entered by: not one that a merge plan holds or has made. -/
def Packet.sharesLink (p q : Packet) (c : Nat) : Bool :=
  q.response == p.response && q.arrive == p.arrive && q.arrive ≠ 5 && q.plan.isNone &&
    (q.place == .router c || (q.place == .delivered c && q.typ == 0))

/-- Whether packet i may go on: no earlier packet of the same class, source and destination stands at the same place (R228), and
in a router none is ahead of it on its link; a send that no receive takes holds back everything behind it (R179). -/
def State.packetFirst (s : State) (i : Nat) : Bool :=
  match s.net.packets[i]? with
  | none => false
  | some p =>
    ((s.net.packets.take i).all fun q =>
      !(q.src == p.src && q.dest == p.dest && q.response == p.response && q.place == p.place && q.held ≠ 3)) &&
    match p.place with
    | .router c => p.plan.isSome || p.arrive = 5 || ((s.net.packets.take i).all fun q => !(p.sharesLink q c && q.place == .router c)) &&
        s.net.packets.all fun q => !(p.sharesLink q c && q.place == .delivered c)
    | _ => true

/-- Flits of a packet (R226). -/
def Packet.flits (p : Packet) : Nat := max 1 ((p.data.length + 63) / 64)

/-- Whether the buffer of eight flits of a link into router h has room for a packet (R228). DESIGN CHOICE (log entry 111): packets
move whole, one at a time while fewer than eight flits are in the buffer. -/
def State.linkRoom (s : State) (p : Packet) (h arrive : Nat) : Bool :=
  let q := { p with arrive := arrive }
  (((s.net.packets.filter fun x => q.sharesLink x h).map Packet.flits).foldl (· + ·) 0) < 8

/-- Packet i, delivered at a core and first of its kind there (R226, R228). -/
def State.delivered (s : State) (i : Nat) (typ : Nat) : Option (Packet × Nat) :=
  match s.net.packets[i]? with
  | none => none
  | some p =>
    match p.place with
    | .delivered c => if p.typ = typ ∧ s.packetFirst i then some (p, c) else none
    | _ => none

/-- Where the answers to a request go: its issuing core, or the base die of the port it came in by or of its forwarder
(R227); ports from 8 on are the forwarders of stacks 0 to 15. -/
def Packet.answerDest (p : Packet) : Nat :=
  match p.port with
  | some (q, _) => 64 * if q < 8 then portStack q else q - 8
  | none => p.src

/-- The status answer to a request packet from the core it reached (R187): it names what it answers in ADDR. Of the parts of a
contribution the last is answered. -/
def State.answer (s : State) (p : Packet) (atCore : Nat) (status : Nat) (data : List Byte := []) : State :=
  if !p.final then s
  else s.injectAt atCore { Packet.blank 6 p.answerDest atCore p.tag with
    status := status, addr := p.addr, len := if p.typ = 2 then p.len else p.data.length, data := data, port := p.port }

/-- The answer given to every sender combined in a packet of a send (R178, R180, R236). -/
def State.answerSenders (s : State) (senders : List (Nat × W16)) (atCore status : Nat) : State :=
  senders.foldl (fun s x => s.injectAt atCore { Packet.blank 6 x.1 atCore x.2 with status := status }) s

/-- The next logical core of the route: along X, then along Y (R229); the port it is entered by (R226). -/
def nextHop (here dest : Nat) : Nat × Nat :=
  let x := gridX here
  let y := gridY here
  if x < gridX dest then (gridCore (x + 1) y, 1)
  else if gridX dest < x then (gridCore (x - 1) y, 3)
  else if y < gridY dest then (gridCore x (y + 1), 2)
  else (gridCore x (y - 1), 4)

/-- Row and column of the physical core that serves a logical one. -/
def State.place (s : State) (c : Nat) : Nat × Nat := (s.physOf c / 16 % 8, s.physOf c % 16)

/-- The links left by on the way from one physical place of a die to another: along the row, then along the column (R229);
ports W 0, N 1, E 2, S 3. -/
def diePath (t : Nat) (a b : Nat × Nat) : List (Nat × Nat × Nat) :=
  let cols := if a.2 ≤ b.2 then (List.range (b.2 - a.2)).map fun i => (t, a.1 * 9 + a.2 + i, 2)
    else (List.range (a.2 - b.2)).map fun i => (t, a.1 * 9 + a.2 - i, 0)
  let rows := if a.1 ≤ b.1 then (List.range (b.1 - a.1)).map fun i => (t, (a.1 + i) * 9 + b.2, 3)
    else (List.range (a.1 - b.1)).map fun i => (t, (a.1 - i) * 9 + b.2, 1)
  cols ++ rows

/-- The physical links of one logical hop: stack, physical index, port left by (R224, R229). -/
def State.hopLinks (s : State) (a b : Nat) : List (Nat × Nat × Nat) :=
  let t := a / 64
  let u := b / 64
  let p := s.place a
  let q := s.place b
  if t = u then diePath t p q
  else
    let r := a / 8 % 8
    let j := a % 8
    if gridX a < gridX b then diePath t p (r, 8) ++ (t, r * 9 + 8, 2) :: diePath u (r, 0) q
    else if gridX b < gridX a then diePath t p (r, 0) ++ (t, r * 9, 0) :: diePath u (r, 8) q
    else if gridY a < gridY b then diePath t p (7, j) ++ (t, 63 + j, 3) :: diePath u (0, j) q
    else diePath t p (0, j) ++ (t, j, 1) :: diePath u (7, j) q

/-! ### Links and detours (R232, R233) -/

/-- The router at the other end of a port's link, and the port there. -/
def linkEnd (t phys port : Nat) : Option (Nat × Nat × Nat) :=
  let r := phys / 9
  let j := phys % 9
  match port with
  | 0 => if 0 < j then some (t, phys - 1, 2) else if t % 4 = 0 then none else some (t - 1, r * 9 + 8, 2)
  | 1 => if 0 < r then some (t, phys - 9, 3) else if t < 4 ∨ j = 8 then none else some (t - 4, 63 + j, 3)
  | 2 => if j < 8 then some (t, phys + 1, 0) else if t % 4 = 3 then none else some (t + 1, r * 9, 0)
  | _ => if r < 7 then some (t, phys + 9, 1) else if 11 < t ∨ j = 8 then none else some (t + 4, j, 1)

def State.linkIsDown (s : State) (x : Nat × Nat × Nat) : Bool :=
  s.net.down.any fun l => l.stack = x.1 && l.phys = x.2.1 && l.port = x.2.2

/-- The links of the parallel paths one row or column aside of a link inside a die. -/
def asidePaths (t phys port : Nat) : List (List (Nat × Nat × Nat)) :=
  let r := phys / 9
  let j := phys % 9
  let path (out back aside : Nat) : List (Nat × Nat × Nat) :=
    let far := (linkEnd t aside port).getD (t, aside, port)
    [(t, phys, out), (t, aside, port), (far.1, far.2.1, back)]
  if port % 2 = 0 then (if 0 < r then [path 1 3 (phys - 9)] else []) ++ if r < 7 then [path 3 1 (phys + 9)] else []
  else (if 0 < j then [path 0 2 (phys - 1)] else []) ++ if j < 8 then [path 2 0 (phys + 1)] else []

/-- The place and port of edge link k of the side that a port leaves by. -/
def edgeAt (port k : Nat) : Nat := if port = 0 then k * 9 else if port = 2 then k * 9 + 8 else if port = 1 then k else 63 + k

/-- The paths round an edge link: another edge link of its side, with the border links of both dies between the two. -/
def edgePaths (t phys port : Nat) : List (List (Nat × Nat × Nat)) :=
  let pos := if port % 2 = 0 then phys / 9 else phys % 9
  match linkEnd t phys port with
  | none => []
  | some (u, _, back) =>
    ((List.range 8).filter (· ≠ pos)).map fun k =>
      let between := (List.range (max k pos - min k pos)).map (min k pos + ·)
      (t, edgeAt port k, port) :: between.flatMap fun x =>
        [(t, edgeAt port x, if port % 2 = 0 then 3 else 2), (u, edgeAt back x, if port % 2 = 0 then 3 else 2)]

/-- The links of the detour round a link, where one exists (R233): the parallel path one row or column aside, of an edge link through
another edge link of its side (log entry 37). -/
def State.detourOf (s : State) (t phys port : Nat) : Option (List (Nat × Nat × Nat)) :=
  match linkEnd t phys port with
  | none => none
  | some (u, _, _) => (if u = t then asidePaths t phys port else edgePaths t phys port).find? fun p => !p.any s.linkIsDown

def State.detourOk (s : State) (t phys port : Nat) : Bool := (s.detourOf t phys port).isSome

/-- Whether a link that is down lets packets pass: its detour is installed and whole. -/
def State.detours (s : State) (l : DownLink) : Bool := l.detoured && s.detourOk l.stack l.phys l.port

/-- The links of a hop that are down. -/
def State.downOn (s : State) (a b : Nat) : List DownLink :=
  let ls := s.hopLinks a b
  s.net.down.filter fun l => ls.contains (l.stack, l.phys, l.port)

/-- The links that a hop crosses: of a link that is down those of its detour (R233). -/
def State.linksTaken (s : State) (a b : Nat) : List (Nat × Nat × Nat) :=
  (s.hopLinks a b).flatMap fun l => if s.linkIsDown l then (s.detourOf l.1 l.2.1 l.2.2).getD [l] else [l]

/-- Whether every hop of the route between two logical cores can be made; at most 62 hops. -/
def State.routeUp (s : State) : Nat → Nat → Nat → Bool
  | 0, _, _ => true
  | n + 1, a, b =>
    if a = b then true
    else
      let h := (nextHop a b).1
      (s.downOn a h).all s.detours && s.routeUp n h b

/-- The valid merge plan of a router for a send, if it has one (R234, R235): the plan's number. -/
def State.planFor (s : State) (core : Nat) (p : Packet) : Option Nat :=
  if p.typ ≠ 0 ∨ p.red = 3 then none
  else (List.range 16).find? fun m =>
    let a := cA core NI_MERGE + 4 * m
    s.bit a 31 && (s.fld a 30 29 = 1 || s.fld a 30 29 = 2) && s.fld a 9 0 = p.dest && s.fld a 17 10 = p.channel.toNat

/-- Traffic between stacks under one reset drains instead of being absorbed (R476). -/
def State.drains (s : State) (p : Packet) (t : Nat) : Bool :=
  (s.stack t).fence && p.port.isNone && (s.stack (p.src / 64)).fence

/-- Whether a packet bound into or through stack t meets its fence (R474). -/
def State.fenced (s : State) (p : Packet) (t : Nat) : Bool := (s.stack t).fence && !s.drains p t

/-- Traffic a stack or core under reset absorbs (R187, R470, R474). -/
def State.absorbing (s : State) (c : Nat) : Bool := (s.stack (c / 64)).fence || (s.core c).resetting || (s.core c).held

end Sys2Proof.Machine
end

