-- ==== Sys2Proof/Machine/MoveOps.lean ====
section
/-! DEFINITION. The bulk operations of movement and messaging (R166 to R192): their start checks, their local effects and
the packets they send. -/

namespace Sys2Proof.Machine

/-! ### Start checks (R168 to R170, R172, R177, R181, R182, R184, R191, R192, R529) -/

/-- A valid tile in device memory (R169). -/
def Desc.devOk (d : Desc) : Bool := d.kind = 1 && d.shapeOk d.align

/-- The element and scale ranges of a tile in device memory: lowest and past-highest byte. -/
def Desc.spans (d : Desc) : List (Nat × Nat) :=
  (d.base, d.elemEnd) :: if d.blocky then [(d.scaleBase, d.scaleEnd)] else []

def inFast (lo hi : Nat) : Bool := decide (lo < hi) && decide (hi ≤ 0x020000000000)
def inSlow (lo hi : Nat) : Bool := decide (slowBase ≤ lo) && decide (hi ≤ 0x04F000000000)
def inScratch (lo hi : Nat) : Bool :=
  decide (0x3E0000000000 ≤ lo) && decide (hi ≤ 0x3E0080000000) && lo / 0x200000 == (hi - 1) / 0x200000
/-- A span in the scratchpad that holds an address. -/
def sameScratch (a lo hi : Nat) : Bool := inScratch lo hi && lo / 0x200000 == a / 0x200000
def inWindow (lo hi : Nat) : Bool := decide (0x100000000000 ≤ lo) && decide (lo < hi) && decide (hi ≤ 0x120000000000)
/-- Both ranges of a tile within one region (R169). -/
def Desc.within (d : Desc) (region : Nat → Nat → Bool) : Bool := d.spans.all fun p => region p.1 p.2
def inOwnVault (c lo hi : Nat) : Bool := inFast lo hi && lo / 2 ^ 31 == c && (hi - 1) / 2 ^ 31 == c

/-- Whether a span touches the fast tier or a scratchpad of a stack that is down (R465). -/
def State.spanDown (s : State) (lo hi : Nat) : Bool :=
  if inFast lo hi then (List.range ((hi - 1) / 2 ^ 37 - lo / 2 ^ 37 + 1)).any fun i => s.stackDown (lo / 2 ^ 37 + i)
  else if inScratch lo hi then s.stackDown ((lo - 0x3E0000000000) / 0x200000 / 64)
  else false

/-- Whether a remote tile of this module is one the operation may address (R182); on another module its target checks. -/
def State.remoteOk (s : State) (e : Entry) (d : Desc) (fastOnly : Bool) : Bool :=
  (s.deviceOf e.word).isSome || ((d.within inFast || (!fastOnly && (d.within inSlow || d.within (sameScratch d.base)))) &&
    d.spans.all fun p => !s.spanDown p.1 p.2)

def sameShape (a b : Desc) : Bool := a.rows = b.rows && a.cols = b.cols
/-- Formats in range that differ: a format fault (R170, R529). -/
def fmtClash (a b : Desc) : Bool := decide (a.fmt ≤ 8) && decide (b.fmt ≤ 8) && a.fmt ≠ b.fmt
/-- A format in range that the operation does not accept (R529). -/
def Desc.fmtFault (d : Desc) (ok : Nat → Bool) : Bool := decide (d.fmt ≤ 8) && !ok d.fmt
/-- The 64-byte command tile of NBD and UDD. -/
def Desc.cmdTile (d : Desc) : Bool := d.spOk && d.rows = 1 && d.cols = 16

def pickCause (six five : Bool) : Option Nat := if six then some 6 else if five then some 5 else none

/-- The receive mode of a send or receive (R177). -/
def Entry.red (e : Entry) : Nat := e.mode.toNat % 4
def Entry.destCore (e : Entry) : Nat := e.word.op.toNat / 1024
def Entry.channel (e : Entry) : Nat := e.word.op.toNat / 4 % 256
def Entry.fanin (e : Entry) : Nat := e.word.op.toNat / 1024 % 64 + 1

/-- What refuses a movement operation at its start. -/
def State.moveCause (s : State) (c : Nat) (e : Entry) : Option Nat :=
  match e.opcode with
  | 0x20 =>
    let sp := if e.a.kind = 0 then e.a else e.d
    let dev := if e.a.kind = 0 then e.d else e.a
    pickCause (fmtClash e.a e.d)
      (!sp.spOk || !dev.devOk || !sameShape e.a e.d ||
        !(dev.within (inOwnVault c) || dev.within inSlow))
  | 0x21 =>
    pickCause (fmtClash e.a e.d) (!e.a.spOk || !e.d.spOk || !sameShape e.a e.d || overlapAny e.ins e.outs)
  | 0x24 =>
    pickCause (e.red ≠ 0 && e.a.fmtFault (· = 7))
      (!e.a.spOk || (e.red = 2 && decide (e.a.cols < 3)) || s.stackDown (e.destCore / 64))
  | 0x25 =>
    pickCause (e.red ≠ 0 && e.d.fmtFault (· = 7))
      (!e.d.spOk || (e.red = 2 && decide (e.d.cols < 3)) || (e.red = 0 && e.fanin ≠ 1))
  | 0x28 => pickCause (fmtClash e.a e.d)
      (!e.a.spOk || !e.d.devOk || !sameShape e.a e.d || !s.remoteOk e e.d false || overlapAny e.ins e.outs)
  | 0x29 => pickCause (fmtClash e.a e.d)
      (!e.d.spOk || !e.a.devOk || !sameShape e.a e.d || !s.remoteOk e e.a false || overlapAny e.ins e.outs)
  | 0x2A =>
    pickCause (e.a.fmtFault (fun f => f = 5 || f = 6 || f = 7) || e.d.fmtFault (fun f => f = 7 || f = 8) ||
        (decide (e.a.fmt ≤ 8) && decide (e.d.fmt ≤ 8) && (e.a.fmt = 5) ≠ (e.d.fmt = 8)))
      (!e.a.spOk || !e.d.devOk || !sameShape e.a e.d || !s.remoteOk e e.d true)
  | 0x2B =>
    pickCause (e.a.fmtFault (· = 7) || e.d.fmtFault (· = 7))
      (!e.a.spOk || !e.d.devOk || !sameShape e.a e.d || decide (e.a.cols < 3) || !s.remoteOk e e.d true)
  | 0x34 =>
    let result := e.word.flags.getLsbD 1
    pickCause (e.a.fmtFault (· = 8) || (result && e.b.fmtFault (· = 8)))
      (!e.a.cmdTile || !e.d.devOk || e.d.rows ≠ 1 || e.d.base % 512 ≠ 0 || !e.d.within inWindow
        || s.stackDown ((e.d.base - 0x100000000000) / 2 ^ 37)
        || (result && (!e.b.cmdTile || overlapAny e.ins e.outs)))
  | 0x38 => pickCause (e.a.fmtFault (· = 8)) (!e.a.cmdTile)
  | _ => none

/-- A movement refusal (R168): CORE_MOVE_FAULT and source 3. -/
def State.moveRefuse (s : State) (c : Nat) (e : Entry) (cause status : Nat) : State :=
  ((s.setReg (cA c CORE_MOVE_FAULT) (BitVec.ofNat 64
    (e.tag.toNat * 2 ^ 48 + e.opcode * 2 ^ 42 + status * 2 ^ 32 + cause * 16 + 1))).refuse c e).raiseCore c 3

/-! ### Pieces -/

/-- A run of bytes cut at every multiple of `size` of its first address: address, offset from the run's start, length. -/
def cutAt (size a n : Nat) : List (Nat × Nat × Nat) :=
  (unitsOf size a n).map fun u =>
    let lo := max a u
    (lo, lo - a, min (a + n) (u + size) - lo)

/-- The transfers of a copy between two tiles of one shape: source address, destination address, length, cut so that
neither a 4 KiB unit of the device side is crossed. `devSrc`: the device side is the source. -/
def copyRuns (src dst : Desc) (so do_ : Nat) (devSrc : Bool) : List (Nat × Nat × Nat) :=
  (List.zip src.pieces dst.pieces).flatMap fun p =>
    let a := p.1.1 + so
    let b := p.2.1 + do_
    (cutAt 4096 (if devSrc then a else b) p.1.2).map fun x => (a + x.2.1, b + x.2.1, x.2.2)

/-- Transfers but for those whose whole destination a later one writes again. -/
def lastWrites : List (Nat × Nat × Nat) → List (Nat × Nat × Nat)
  | [] => []
  | r :: rs =>
    if rs.any fun q => decide (q.2.1 ≤ r.2.1) && decide (r.2.1 + r.2.2 ≤ q.2.1 + q.2.2) then lastWrites rs else r :: lastWrites rs

/-- Transfers with those that follow on from one another made one. -/
def joinRuns (rs : List (Nat × Nat × Nat)) : List (Nat × Nat × Nat) :=
  rs.foldl (fun acc r => match acc.getLast? with
    | some q => if q.1 + q.2.2 = r.1 ∧ q.2.1 + q.2.2 = r.2.1 then acc.dropLast ++ [(q.1, q.2.1, q.2.2 + r.2.2)] else acc ++ [r]
    | none => [r]) []

/-- The places on the device side of transfers, each once: of a read its sources, of a write its destinations. -/
def deviceSpans (devSrc : Bool) (rs : List (Nat × Nat × Nat)) : List (Nat × Nat) :=
  (rs.map fun r => (if devSrc then r.1 else r.2.1, r.2.2)).dedup

/-- The transfers of a copy as packets carry them (R171, R226): all that touch one 64-byte word of the device side in one packet, at
most 4 KiB in one 4 KiB unit. -/
def packetRuns (devSrc : Bool) (runs : List (Nat × Nat × Nat)) : List (List (Nat × Nat × Nat)) :=
  let dev (r : Nat × Nat × Nat) : Nat := if devSrc then r.1 else r.2.1
  let cut := runs.flatMap fun r => (cutAt 64 (dev r) r.2.2).map fun x => (r.1 + x.2.1, r.2.1 + x.2.1, x.2.2)
  let words := ((cut.map fun r => dev r / 64).dedup).map fun w =>
    let mine := cut.filter fun r => dev r / 64 = w
    if devSrc then mine else lastWrites mine
  let page (u : List (Nat × Nat × Nat)) : Nat := dev (u.headD (0, 0, 0)) / 4096
  let size (u : List (Nat × Nat × Nat)) : Nat := ((deviceSpans devSrc u).map (·.2)).foldl (· + ·) 0
  let units := words.foldl (fun us w => match us.getLast? with
    | some u => if page u = page w ∧ size u + size w ≤ 4096 then us.dropLast ++ [u ++ w] else us ++ [w]
    | none => [w]) ([] : List (List (Nat × Nat × Nat)))
  units.map joinRuns

/-- The part of bytes that come span by span which belongs to one of the spans. -/
def spanData {α : Type} : List (Nat × Nat) → List α → Nat × Nat → List α
  | [], _, _ => []
  | y :: ys, bs, x => if y = x then bs.take y.2 else spanData ys (bs.drop y.2) x

/-- The entry of an operation's open writes. -/
def Entry.openWrite (c : Nat) (e : Entry) (lo hi : Nat) : OpenWrite := ⟨lo, hi, none, none, c, e.tag, none⟩

/-! ### Haul transfers (R172 to R175) -/

/-- The rows a list of device runs touches, each once (R173). -/
def rowsOf (runs : List (Nat × Nat)) : List Nat := (runs.flatMap fun p => unitsOf 512 p.1 p.2).dedup

/-- A row taken over a haul (R174, R251): a change of direction from the row before it is counted. -/
def State.haulTurn (s : State) (c : Nat) (write : Bool) : State :=
  let was := (s.core c).haulWrite
  if was = some write then s
  else
    let s := s.modCore c fun k => { k with haulWrite := some write }
    if was.isNone then s else s.count (cA c CORE_HAUL_TURN)

/-- The haul taken by an access to a device address: that of its vault, where it has one. -/
def State.haulAt (s : State) (a : Nat) (write : Bool) : State :=
  match classify a with
  | .fast c => s.haulTurn c write
  | _ => s

/-- Rows moved over a haul by HMOV (R173, R174): counted, with a change of direction. -/
def State.haulCount (s : State) (c : Nat) (write : Bool) (rows : Nat) : State :=
  if rows = 0 then s else (s.count (cA c CORE_HAUL_ROWS) rows).haulTurn c write

/-- Whether a device address is reached over the core's own haul: its vault, or the channel of its own stack (R175). -/
def overHaul (c a : Nat) : Bool :=
  match classify a with
  | .fast v => v == c
  | .slow t => t == c / 64
  | _ => false

/-- A request packet of an operation. -/
def Entry.packet (c : Nat) (e : Entry) (typ dest addr : Nat) (ps : List PByte) : Packet :=
  { Packet.blank typ dest c e.tag with addr := BitVec.ofNat 46 addr, data := dataOf ps, poison := flitPoison ps }

/-- An answer noted as due. -/
def State.await (s : State) (c : Nat) (e : Entry) (dest key len : Nat) : State :=
  s.modEntry c e.slot fun x => { x with sent := x.sent ++ [(dest, key, len)] }

/-- The operation finished if no answer is due. -/
def State.finishIf (s : State) (c : Nat) (e : Entry) : State :=
  match s.entry c e.slot with
  | some x => if x.sent.isEmpty then s.finish c x else s
  | none => s

/-- The fault of an operation that meets ABSORBED or LINK (R187, R210, R528). -/
def State.linkFault (s : State) (c : Nat) (e : Entry) (code target dev : Nat) (wait : Option Wait) : State :=
  s.opFault c e code fun x =>
    { x with detail := target * 2 ^ 32 + dev * 2 ^ 80, waitFor := wait,
             sent := if x.opcode = 0x24 ∨ x.opcode = 0x38 then [] else x.sent }

/-- The ranges that transfers of this module write. -/
def writtenBy (rs : List (Nat × Nat × Nat)) : List Rng := rs.map fun r => .mem none r.2.1 (r.2.1 + r.2.2)

/-- The transfers of an HMOV, those over the core's own haul and the packets of the others. -/
def hmovRuns (c : Nat) (e : Entry) : List (Nat × Nat × Nat) × List (List (Nat × Nat × Nat)) :=
  let isRead : Bool := e.a.kind = 1
  let runs := copyRuns e.a e.d (if isRead then 0 else spBase c) (if isRead then spBase c else 0) isRead
  let near (r : Nat × Nat × Nat) : Bool := overHaul c (if isRead then r.1 else r.2.1)
  (runs.filter near, packetRuns isRead (runs.filter fun r => !near r))

/-- A packet for transfers grouped by packetRuns: a request to read their sources, or a write of their destinations. -/
def Entry.unitPacket (c : Nat) (e : Entry) (devSrc : Bool) (dest : Nat) (u : List (Nat × Nat × Nat)) (ps : List PByte) : Packet :=
  let spans := deviceSpans devSrc u
  { e.packet c (if devSrc then 2 else 1) dest (spans.headD (0, 0)).1 ps with
    pieces := spans, len := (spans.map (·.2)).foldl (· + ·) 0 }

/-- The key an answer to grouped transfers bears: the first place they write. -/
def unitKey (u : List (Nat × Nat × Nat)) : Nat := (u.headD (0, 0, 0)).2.1

/-- The bytes that grouped transfers copy, read from their sources. -/
def State.readUnit (s : State) (u : List (Nat × Nat × Nat)) : State × List PByte := s.readPieces (u.map fun r => (r.1, r.2.2))

/-- HMOV's effect. -/
def State.doHmov (s : State) (c : Nat) (e : Entry) : State :=
  let isRead : Bool := e.a.kind = 1
  let got := hmovRuns c e
  let near := got.1
  let far := got.2
  let devOf (r : Nat × Nat × Nat) := if isRead then r.1 else r.2.1
  if !near.isEmpty && (s.vault c).haulDown then s.fail c { e with fault := if e.fault = 0 then 7 else e.fault }
  else if near.any (fun r => decide (slowBase ≤ devOf r)) && s.bit (sA (c / 64) SLOW_STATUS) 3 then
    s.linkFault c e 7 (devOf (near.headD (0, 0, 0))) 0 none
  else
    let src := (near ++ if isRead then [] else far.flatten).map fun r => (r.1, r.2.2)
    let got := s.readPieces src
    let ps := got.2
    got.1.meetPoison c e (got.1.poisonOf src) (anyPoison ps) fun s =>
      let s := s.haulCount c (!isRead) (rowsOf (near.map fun r => (devOf r, r.2.2))).length
      let s := ((s.writePieces (near.map fun r => (r.2.1, r.2.2)) ps).1).wrote c e.slot (writtenBy near)
      let s := if isRead then s else near.foldl (fun s r => s.recordOpen r.2.1 (e.openWrite c r.2.1 (r.2.1 + r.2.2))) s
      let s := far.foldl (fun s u =>
        let t := channelOf (devOf (u.headD (0, 0, 0))) * 64
        let got := if isRead then (s, []) else s.readUnit u
        let p := e.unitPacket c isRead t u got.2
        (got.1.await c e t (unitKey u) p.len).inject p) s
      s.finishIf c e

/-- SMOV's effect (R176). -/
def State.doSmov (s : State) (c : Nat) (e : Entry) : State :=
  let got := s.readPieces (spPieces c e.a)
  let s := got.1
  let ps := got.2
  s.meetPoison c e (s.poisonOf (spPieces c e.a)) (anyPoison ps) fun s =>
    ((s.writePieces (spPieces c e.d) ps).1).finish c e

/-! ### Sends and receives (R177, R178) -/

/-- The shape a send's first packet carries (R226): FMT, ROWS and COLS. -/
def Desc.shapeWord (d : Desc) : Nat := d.fmt * 2 ^ 32 + d.rows * 2 ^ 16 + d.cols

/-- NSEND's effect: the tile's bytes in packets of at most 4 KiB. -/
def State.doNsend (s : State) (c : Nat) (e : Entry) : State :=
  let got := s.readPieces (spPieces c e.a)
  let s := got.1
  let ps := got.2
  s.meetPoison c e (s.poisonOf (spPieces c e.a)) (anyPoison ps) fun s =>
    let n := ps.length
    let s := (List.range ((n + 4095) / 4096)).foldl (fun s k =>
      let part := (ps.drop (4096 * k)).take 4096
      s.inject { e.packet c 0 e.destCore (if k = 0 then 2 ^ 45 + e.a.shapeWord else 4096 * k) part with
        channel := BitVec.ofNat 8 e.channel, red := e.red, first := k == 0, final := decide (n ≤ 4096 * k + 4096),
        shape := e.a.shapeWord, senders := [(c, e.tag)], len := 4096 * k }) s
    s.await c e e.destCore 0 n

/-- NRECV's effect: the receive is posted. -/
def State.doNrecv (s : State) (c : Nat) (e : Entry) : State :=
  s.modCore c fun k => { k with posted := k.posted ++
    [{ slot := e.slot, channel := e.channel, red := e.red, fanin := e.fanin, refuse := false, senders := [], streams := [] }] }

/-! ### Remote operations (R181 to R186, R227) -/

/-- The core to which a packet about a device address of this module goes (R227, R247). -/
def ownerCore (a : Nat) : Nat :=
  match classify a with
  | .fast c => c
  | .slow t => t * 64
  | .sp c _ => c
  | .nbWindow => (a - 0x100000000000) / 2 ^ 31
  | _ => 0

/-- A request handed to the network toward its target: on this module at its owner, on another through the port that the
flow key gives, from the sender's own base die directly (R227); false where no port leads there. -/
def State.request (s : State) (dev : Option Nat) (p : Packet) : State × Bool :=
  match dev with
  | none => (s.inject p, true)
  | some d =>
    match s.biloPort d p.src with
    | none => (s.addSat (pA BILO_NO_DEVICE) 31 0 1, false)
    | some q =>
      let t := portStack q
      let p := { p with red := 3, channel := BitVec.ofNat 8 (d / 64), count := d % 64 + 1, dest := t * 64 }
      if t = p.src / 64 then
        let p := { p with phys := s.physOf p.src, place := .baseDie t }
        (s.modNet fun n => { n with packets := n.packets ++ [p] }, true)
      else (s.inject p, true)

/-- The requests of an operation, each with the key its answer bears, due once for the parts of one contribution; where no port
leads to the device the operation is refused with status NO_DEVICE. -/
def State.requests (s : State) (c : Nat) (e : Entry) (ps : List (Packet × Nat × Nat)) : State :=
  let r := ps.foldl (fun (acc : State × Bool) p =>
    if !acc.2 then acc
    else
      let got := acc.1.request (s.deviceOf e.word) p.1
      let s := got.1
      let ok := got.2
      (if ok && p.1.final then s.await c e p.1.dest p.2.1 p.2.2 else s, ok)) (s, true)
  if r.2 then r.1
  else match r.1.entry c e.slot with
    | some x => r.1.moveRefuse c x 7 8
    | none => r.1

/-- The destination of a request on this module; its answers come from there. -/
def State.targetCore (s : State) (e : Entry) (a : Nat) : Nat := if (s.deviceOf e.word).isSome then 0 else ownerCore a

/-- RWR's effect. -/
def State.doRwr (s : State) (c : Nat) (e : Entry) : State :=
  let units := packetRuns false (copyRuns e.a e.d (spBase c) 0 false)
  let src := spPieces c e.a
  let got := s.readPieces src
  got.1.meetPoison c e (got.1.poisonOf src) (anyPoison got.2) fun s =>
    s.requests c e (units.map fun u =>
      let p := e.unitPacket c false (s.targetCore e (unitKey u)) u (s.readUnit u).2
      (p, unitKey u, p.len))

/-- RRD's effect: each answer is due under the first local address its data goes to. -/
def State.doRrd (s : State) (c : Nat) (e : Entry) : State :=
  let units := packetRuns true (copyRuns e.a e.d 0 (spBase c) true)
  s.requests c e (units.map fun u =>
    let p := e.unitPacket c true (s.targetCore e (u.headD (0, 0, 0)).1) u []
    (p, unitKey u, p.len))

/-- The parts of a contribution by accumulate segment: each run of destination bytes and the bytes of A for it. -/
def segRuns (a d : Desc) : List (Nat × Nat × Nat) :=
  (List.range d.rows).flatMap fun r =>
    (cutAt 4096 (d.base + r * d.rowStride) d.rowLen).map fun x => (x.1, r * a.rowLen + x.2.1 * a.elemBits / d.elemBits, x.2.2)

/-- The triple rows of RMRG's contribution: each place and the offset of its bytes in A. -/
def mergeRuns (a d : Desc) : List (Nat × Nat × Nat) :=
  (List.range a.rows).map fun r => (d.base + r * d.rowStride, r * a.rowLen, a.rowLen)

/-- One contribution to a segment, in packets of at most 4 KiB (R226), of which the last is marked. -/
def State.contribution (s : State) (c : Nat) (e : Entry) (typ : Nat) (mine : List (Nat × Nat × Nat)) (ps : List PByte) :
    List (Packet × Nat × Nat) :=
  let at0 := (mine.headD (0, 0, 0)).1
  let parts := max 1 ((ps.length + 4095) / 4096)
  (List.range parts).map fun k =>
    let p := e.packet c typ (s.targetCore e at0) at0 ((ps.drop (4096 * k)).take 4096)
    ({ p with fmt := e.a.fmt, contrib := e.word.op.toNat / 2 ^ 14 % 64, gen := e.mode, pieces := mine.map fun r => (r.1, r.2.2),
              len := 4096 * k, unit := BitVec.ofNat 46 at0, final := k + 1 == parts }, at0, ps.length)

/-- RACC's and RMRG's effect: a contribution for each segment that holds first bytes of the runs (R185). -/
def State.contributions (s : State) (c : Nat) (e : Entry) (typ : Nat) (src : List (Nat × Nat)) (runs : List (Nat × Nat × Nat)) :
    State :=
  let got := s.readPieces src
  let ps := got.2
  got.1.meetPoison c e (got.1.poisonOf src) (anyPoison ps) fun s =>
    let segs := (runs.map fun r => r.1 / 4096).dedup
    s.requests c e (segs.flatMap fun g =>
      let mine := runs.filter fun r => r.1 / 4096 = g
      s.contribution c e typ mine (mine.flatMap fun r => (ps.drop r.2.1).take (r.2.2 * e.a.elemBits / e.d.elemBits)))

def State.doRacc (s : State) (c : Nat) (e : Entry) : State :=
  s.contributions c e 4 (e.a.elemPieces.map fun p => (spBase c + p.1, p.2)) (segRuns e.a e.d)

def State.doRmrg (s : State) (c : Nat) (e : Entry) : State := s.contributions c e 5 (spPieces c e.a) (mergeRuns e.a e.d)

/-! ### Token messages (R188 to R190) -/

/-- One increment to a signal target; false where the target's device cannot be reached. -/
def State.sendSignal (s : State) (c : Nat) (t : W32) : State × Bool :=
  let tok := t.toNat % 16
  let dst := t.toNat / 2 ^ 7 % 1024
  let dev := t.toNat / 2 ^ 17 % 2 ^ 14
  if tok = 0 then (s, true)
  else if t.getLsbD 31 && !(s.bit (pA BILO_ID) 31 && s.ownId = dev) then
    match s.relay c dev 1 dst (BitVec.ofNat 16 tok) with
    | some s => (s.count (cA c TOK_SENT), true)
    | none => (s.addSat (pA BILO_NO_DEVICE) 31 0 1, false)
  else (s.sendToken c dst tok, true)

/-- TSIG's effect. -/
def State.doTsig (s : State) (c : Nat) (e : Entry) : State :=
  let got := s.sendSignal c e.target
  let s := got.1
  let ok := got.2
  if ok then s.finish c e else s.moveRefuse c e 7 8

/-! ### Dispatch (R191, R192) -/

/-- A command packet that is poisoned and has no surviving source is not sent: the operation fails with code 5. -/
def State.cmdPoison (s : State) (c : Nat) (e : Entry) (bad : Bool) (f : State → State) : State :=
  let units := s.poisonOf (spPieces c e.a)
  if bad && !(units.any fun a => (s.source c a).isSome) then
    s.fail c { e with fault := if e.fault = 0 then 5 else e.fault, detail := units.headD 0 * 2 ^ 32 }
  else s.meetPoison c e units bad f

/-- NBD's effect: the command packet to the vault that holds D. -/
def State.doNbd (s : State) (c : Nat) (e : Entry) : State :=
  let got := s.readPieces (spPieces c e.a)
  let s := got.1
  let ps := got.2
  s.cmdPoison c e (anyPoison ps) fun s =>
    let v := ownerCore e.d.base
    (s.await c e v e.d.base 64).inject (e.packet c 7 v e.d.base ps)

/-- UDD's effect: the command block to the update unit of the core's stack (R226, R356). -/
def State.doUdd (s : State) (c : Nat) (e : Entry) : State :=
  let got := s.readPieces (spPieces c e.a)
  let s := got.1
  let ps := got.2
  s.cmdPoison c e (anyPoison ps) fun s =>
    (s.await c e (c / 64 * 64) 0 64).inject (e.packet c 8 (c / 64 * 64) 0 ps)

end Sys2Proof.Machine
end

