-- ==== Sys2Proof/Machine/NbOps.lean ====
section
/-! DEFINITION. Near-bank computing: the command packet (R296, R297), acceptance (R294, R298), locks (R311), row logic and
bank-edge units (R291, R292, R300 to R304, R308 to R310), result records (R305) and the waits of ordinary accesses (R313). -/

namespace Sys2Proof.Machine

/-! ### The packet (R296) -/

namespace NbCmd

/-- Word i of the packet. -/
def word (k : NbCmd) (i : Nat) : Nat := ofLeBytes ((k.bytes.drop (8 * i)).take 8)
def field (k : NbCmd) (i hi lo : Nat) : Nat := k.word i / 2 ^ lo % 2 ^ (hi - lo + 1)
def op (k : NbCmd) : Nat := k.field 0 7 0
def flags (k : NbCmd) : Nat := k.field 0 15 8
def fmt (k : NbCmd) : Nat := k.field 0 19 16
def seg (k : NbCmd) : Nat := k.field 0 23 20
def count (k : NbCmd) : Nat := k.field 0 46 32 + 1
def stride (k : NbCmd) : Nat := k.field 0 55 48
def rowB (k : NbCmd) : Nat := k.field 1 14 0
def rowC (k : NbCmd) : Nat := k.field 1 30 16
def rowD (k : NbCmd) : Nat := k.field 1 46 32
def xd (k : NbCmd) : Nat := k.field 2 7 0
def xq (k : NbCmd) : Nat := k.field 2 15 8
def fval (k : NbCmd) : W32 := BitVec.ofNat 32 (k.field 2 63 32)
def cmdId (k : NbCmd) : Nat := k.field 3 31 0
/-- The fast-tier row A is named by: the window's alias (R293, R295). -/
def rowAddrA (k : NbCmd) : Nat := rowBase (k.addr - 0x100000000000)
def rowA (k : NbCmd) : Nat := rowOf k.rowAddrA
/-- The bank: bench × 8 + bank. -/
def bank (k : NbCmd) : Nat := bankOf k.rowAddrA
/-- The address of a row of the command's bank (R293). -/
def rowAddr (k : NbCmd) (r : Nat) : Nat := 2 ^ 24 * (k.rowAddrA / 2 ^ 24) + 512 * r
/-- The segment length L, the segments S in a row and the elements E of a vector. -/
def segLen (k : NbCmd) : Nat := 64 * 2 ^ k.seg
def segs (k : NbCmd) : Nat := 512 / k.segLen
def elems (k : NbCmd) : Nat := if k.fmt = 0 then 2 * k.segLen else k.segLen
def rowLogic (k : NbCmd) : Bool := decide (1 ≤ k.op) && decide (k.op ≤ 6)
def known (k : NbCmd) : Bool := k.rowLogic || k.op = 0x10 || k.op = 0x11 || k.op = 0x12
def usesB (k : NbCmd) : Bool :=
  (decide (3 ≤ k.op) && decide (k.op ≤ 6)) || k.op = 0x10 || k.op = 0x11 || (k.op = 0x12 && k.flags.testBit 2)
def vectors (k : NbCmd) : Nat := k.count * k.segs
/-- Rows of 128 FP32 values. -/
def valueRows (k : NbCmd) : Nat := (k.vectors + 127) / 128
def steps (k : NbCmd) (first : Nat) : List Nat := (List.range k.count).map fun i => first + i * k.stride
/-- The row numbers a command reads, and writes. -/
def reads (k : NbCmd) : List Nat :=
  k.steps k.rowA ++
  (if k.op = 0x10 then [k.rowB]
   else if k.op = 0x11 then (List.range k.valueRows).map (k.rowB + ·)
   else if k.usesB then k.steps k.rowB else []) ++
  if k.op = 6 then k.steps k.rowC else []
def writes (k : NbCmd) : List Nat :=
  if k.rowLogic then k.steps k.rowD
  else if k.op = 0x10 then (List.range k.valueRows).map (k.rowD + ·)
  else if k.op = 0x11 then [k.rowD] else []

/-- The reason a command is refused (R297), the lowest that holds. -/
def reason (k : NbCmd) : Nat :=
  let beu : Bool := k.op = 0x10 || k.op = 0x11
  let flagsOk : Bool :=
    if k.op = 0x10 then k.flags % 256 = 0 || k.flags = 2
    else if k.op = 0x11 then k.flags = 0 || k.flags = 1
    else if k.op = 0x12 then k.flags = 0 || k.flags = 4 else k.flags = 0
  let reserved : Bool := k.field 0 63 56 ≠ 0 || k.field 0 47 47 ≠ 0 || k.field 0 31 24 ≠ 0 || k.field 1 63 47 ≠ 0
    || k.field 1 31 31 ≠ 0 || k.field 1 15 15 ≠ 0 || k.field 2 31 16 ≠ 0 || k.field 3 63 32 ≠ 0
    || (k.bytes.drop 32).any (· ≠ 0)
  if !k.known then 1
  else if (if beu then !(k.fmt = 0 || k.fmt = 3 || k.fmt = 4 || k.fmt = 5) || decide (3 < k.seg)
      else k.fmt ≠ 0 || k.seg ≠ 0) then 2
  else if k.stride = 0 || (k.reads ++ k.writes ++ [k.rowD]).any (fun r => decide (32767 < r)) then 3
  else if !k.rowLogic && k.writes.any (fun r => k.reads.contains r) then 4
  else if !flagsOk || (k.fval ≠ 0 && !(k.op = 0x10 && k.flags = 2)) || (k.xq ≠ 0 && k.op ≠ 0x10) || (k.xd ≠ 0 && !beu)
      || (k.rowB ≠ 0 && !k.usesB) || (k.rowC ≠ 0 && k.op ≠ 6) || reserved || (k.op = 0x11 && decide (128 < k.elems)) then 5
  else 0

/-- The result record (R305) of a command that ended. -/
def record (k : NbCmd) (status reason ran : Nat) : List Byte :=
  leBytes 4 (status + k.op * 2 ^ 8 + reason * 2 ^ 16 + if k.nan then 2 ^ 20 else 0) ++ leBytes 4 k.cmdId ++
  (k.body ++ List.replicate 20 0).take 20 ++ leBytes 4 (min k.waited (2 ^ 32 - 1)) ++ leBytes 4 (min ran (2 ^ 32 - 1)) ++
  List.replicate 28 0

end NbCmd

/-- A packet as it reaches a vault. -/
def nbArrived (bytes : List Byte) (addr : Nat) (core : Option Nat) (tag : W16) : NbCmd :=
  ⟨bytes, addr, core, tag, false, false, 0, 0, 0, 0, false, []⟩

/-! ### Locks and waits (R261, R258, R311, R313) -/

/-- The rows an accepted command writes or, for an ordinary write, names. -/
def NbCmd.named (k : NbCmd) : List Nat := (k.reads ++ k.writes).map k.rowAddr

/-- The command whose lock a read or write of a row meets (R311). -/
def State.lockOn (s : State) (row : Nat) (write : Bool) : Option NbCmd :=
  (s.vault (vaultOf row)).cmds.find? fun k =>
    k.rowAddrA / 2 ^ 24 = row / 2 ^ 24 && (if write then k.named.contains row else (k.writes.map k.rowAddr).contains row)

/-- Whether a clear or repair holds accesses to a row (R258, R261). -/
def State.rowHeld (s : State) (row : Nat) : Bool :=
  let v := s.vault (vaultOf row)
  let bench := bankOf row / 8
  v.repair == some row || (match v.clearing with
    | some (f, l) => decide (f ≤ bench) && decide (bench ≤ l)
    | none => false)

/-- Whether an ordinary access to n bytes of the fast tier must wait at its vault controller. -/
def State.fastWaits (s : State) (a n : Nat) (write : Bool) : Bool :=
  (unitsOf 512 a n).any fun r => s.rowHeld r || (s.lockOn r write).isSome

/-- The count of the base die that holds vault c (R19). -/
def State.dieTime (s : State) (c : Nat) : Nat := (s.stack (c / 64)).cycles.toNat

/-- An access at address a that waits at vault c for a near-bank command is noted, with the command and the time. -/
def State.noteBehind (s : State) (who : Accessor) (c a : Nat) : Option NbCmd → State
  | none => s
  | some k =>
    if (s.vault c).waits.any fun w => w.who == who && w.addr == a then s
    else s.modVault c fun v => { v with waits := v.waits ++ [⟨who, a, s.dieTime c, k.tag, k.core.getD 0x3FF⟩] }

/-- An access that a near-bank command's lock keeps waiting is noted. -/
def State.noteWait (s : State) (who : Accessor) (a n : Nat) (write : Bool) : State :=
  s.noteBehind who (vaultOf a) a ((unitsOf 512 a n).findSome? fun r => s.lockOn r write)

/-- An access at vault c that is served (R313): a wait over 2 µs is reported once. -/
def State.served (s : State) (who : Accessor) (c a : Nat) : State :=
  match (s.vault c).waits.find? fun w => w.who == who && w.addr == a with
  | none => s
  | some w =>
    let d := s.dieTime c - w.since
    let s := (s.modVault c fun v => { v with waits := v.waits.filter fun w => !(w.who == who && w.addr == a) }).count
      (vA c NB_YIELD_WAIT) d
    if d ≤ 2000 then s
    else
      (s.setReg (vA c NB_LAST_LONG) (BitVec.ofNat 64 (w.tag.toNat * 2 ^ 48 + 2 ^ 47 + a))).evVault c 0x03 0x01
        (a + w.tag.toNat * 2 ^ 48 + min d (2 ^ 32 - 1) * 2 ^ 64 + w.core * 2 ^ 96)

/-- An access that is served: its wait at a vault, where it waited, is over. -/
def State.endWait (s : State) (who : Accessor) (a : Nat) : State :=
  match classify a with
  | .fast c => s.served who c a
  | _ => s

/-- Whether an ordinary access to n bytes at a device address must wait: at its vault controller (R263), while a zero fill holds
its slow-tier channel (R268), or while its scratchpad is being cleared (R99). -/
def State.mustWait (s : State) (write : Bool) (p : Nat × Nat) : Bool :=
  match classify p.1 with
  | .fast _ => s.fastWaits p.1 p.2 write
  | .slow _ => (unitsOf 4096 p.1 p.2).any fun u => s.bit (sA (channelOf u) SLOW_STATUS) 2
  | .sp c _ => (s.core c).power == 1
  | _ => false

/-- Ordinary accesses that are served: their waits are over. -/
def State.endWaits (s : State) (who : Accessor) (ps : List (Nat × Nat)) : State := ps.foldl (fun s p => s.endWait who p.1) s

/-- Ordinary accesses to spans of memory, where none of them must wait; else the first that must is noted and nothing else
happens. -/
def State.whenFree (s : State) (who : Accessor) (write : Bool) (ps : List (Nat × Nat)) (f : State → State) : State :=
  match ps.find? (s.mustWait write) with
  | some p => s.noteWait who p.1 p.2 write
  | none => f (s.endWaits who ps)

/-! ### The active-bank cap (R299, R314) -/

/-- The first command of a bank that has not ended (R299). -/
def Vault.bankHead (v : Vault) (bank : Nat) : Option NbCmd := v.cmds.find? fun k => k.bank = bank

def Vault.modBankHead (v : Vault) (bank : Nat) (f : NbCmd → NbCmd) : Vault :=
  { v with cmds := v.cmds.modify (v.cmds.findIdx fun k => k.bank = bank) f }

/-- The cap in force (R314): 0 or more than 32 is taken as 32. -/
def State.nbCap (s : State) (c : Nat) : Nat :=
  let n := s.fld (vA c NB_CONFIG) 21 16
  if n = 0 ∨ 32 < n then 32 else n

/-- The first commands of the banks among commands in order of acceptance. -/
def bankHeads (seen : List Nat) : List NbCmd → List NbCmd
  | [] => []
  | k :: ks => if seen.contains k.bank then bankHeads seen ks else k :: bankHeads (k.bank :: seen) ks

/-- The commands whose banks are idle, oldest first. -/
def Vault.idleHeads (v : Vault) : List NbCmd := (bankHeads [] v.cmds).filter fun k => !k.running

/-- Whether the limits admit a command's bank. -/
def State.nbAdmits (s : State) (c bank : Nat) : Bool :=
  let act := (s.vault c).cmds.filter (·.running)
  act.length < s.nbCap c && !(s.bit (vA c NB_THROTTLE) (bank / 8) && act.any fun k => k.bank / 8 = bank / 8)

/-- In READY, the commands of idle banks that would pass a limit are held (R314). -/
def State.nbHolds (s : State) (c : Nat) : State :=
  if !s.bit (vA c NB_STATUS) 0 then s
  else (((s.vault c).idleHeads.filter fun k => !k.held && !s.nbAdmits c k.bank)).foldl (fun s k =>
    (s.modVault c fun v => v.modBankHead k.bank fun k => { k with held := true, heldAt := s.dieTime c }).count (vA c NB_HOLDS)) s

/-- The command that starts next: the oldest of an idle bank that the limits admit (R294, R314). -/
def State.nbNext (s : State) (c : Nat) : Option NbCmd :=
  if s.bit (vA c NB_STATUS) 0 then (s.vault c).idleHeads.find? fun k => s.nbAdmits c k.bank else none

/-! ### Acceptance (R294, R297, R298) -/

/-- A result record kept: the last 8 of its bank (R305). -/
def State.keepRecord (s : State) (c : Nat) (k : NbCmd) (rcd : List Byte) : State :=
  s.modVault c fun v =>
    let mine := v.results.filter fun r => r.bank = k.bank
    let others := v.results.filter fun r => r.bank ≠ k.bank
    { v with results := (⟨k.rowAddr k.rowD, k.bank, rcd⟩ :: mine).take 8 ++ others }

/-- The status a near-bank command is answered with, to the core that sent it; a host-written one is not answered. -/
def State.nbAnswer (s : State) (c : Nat) (k : NbCmd) (status : Nat) (rcd : List Byte) : State :=
  match k.core with
  | none => s
  | some to_ => s.injectAt c { Packet.blank 6 to_ c k.tag with
      status := status, addr := BitVec.ofNat 46 k.addr, len := 64, data := rcd, poison := [] }

def State.dropInput (s : State) (c i : Nat) : State := s.modVault c fun v => { v with input := v.input.eraseIdx i }

/-- The open-write entry of core x's command that a command repeats (R298). -/
def Vault.openOf (v : Vault) (k : NbCmd) : Option OpenWrite :=
  v.opens.find? fun w => w.rows.isSome && some w.core == k.core && w.tag == k.tag

/-- Whether a command is held at its vault's input: a clear or repair holds a row it names (R258, R261, R315), or it repeats a command
that has not ended. -/
def State.inputHolds (s : State) (c : Nat) (k : NbCmd) : Bool :=
  (k.rowAddrA :: k.named).any s.rowHeld ||
    match (s.vault c).openOf k with
    | some w => w.nbStatus.isNone
    | none => false

/-- The place of the first command at a vault's input that is not held there, nor behind one of its own core and bank that is
(R299). -/
def State.inputHead (s : State) (c : Nat) : Nat :=
  let q := (s.vault c).input
  ((List.range q.length).find? fun i => match q[i]? with
    | some k => !s.inputHolds c k && (q.take i).all fun x => !(x.core == k.core && x.bank == k.bank)
    | none => false).getD q.length

/-- The open-write entry of an NBD (R298). -/
def NbCmd.openWrite (k : NbCmd) (core : Nat) : OpenWrite :=
  let rows := k.writes.map k.rowAddr
  ⟨rows.foldl min (rows.headD 0), (rows.foldl max 0) + 512, some rows, none, core, k.tag, none⟩

/-- The first command at a vault's input that is not held there, where it is of operation `op`, or of none that exists, which every
acceptance refuses (log entry 10): answered, refused, or accepted where the tables have room. DESIGN CHOICE (log entry 137): a refused
command's record is one of its bank's last 8, and NB_COMMANDS does not count it. -/
def State.nbAccept (s : State) (c op : Nat) : State :=
  let i := s.inputHead c
  match (s.vault c).input[i]? with
  | none => s
  | some k =>
    let v := s.vault c
    if k.op ≠ op ∧ k.known then s
    else if (s.stack (c / 64)).fence then (s.dropInput c i).nbAnswer c k 2 []
    else if !s.bit (vA c NB_MODE) 0 ∨ v.draining then (s.dropInput c i).nbAnswer c k 7 []
    else if k.reason ≠ 0 then
      let rcd := k.record 2 k.reason 0
      (((s.dropInput c i).addSat (vA c NB_REFUSED) 15 0 1).keepRecord c k rcd).nbAnswer c k 1 rcd
    else match (v.openOf k).bind (·.nbStatus) with
      | some (st, rcd) => (s.dropInput c i).nbAnswer c k st rcd
      | none =>
        if 256 ≤ v.cmds.length ∨ (k.core.isSome ∧ 64 ≤ v.opens.length) then s
        else
          let s := (s.dropInput c i).modVault c fun v => { v with cmds := v.cmds ++ [k] }
          (match k.core with
            | none => s
            | some x => s.modVault c fun v => { v with opens := v.opens ++ [k.openWrite x] }).nbHolds c

/-! ### Rows -/

/-- An invalid row that row logic or a bank-edge unit names: written as zeros and set valid (R260). -/
def State.nbTouch (s : State) (r : Nat) : State :=
  let s := s.reservedLookup r false
  if s.rowValid r then s else (s.setValid r true).setSummary r false

/-- A row consumed through the decoder, rebuilt first where it is unchecked; its bytes with their poison. -/
def State.nbConsume (s : State) (r : Nat) : State × List PByte :=
  let s := (s.nbTouch r).checkRow r
  (unitsOf 64 r 512).foldl (fun (acc : State × List PByte) w =>
    let got := acc.1.readWord w .repair
    let s := got.1
    let ps := got.2
    (s, acc.2 ++ ps)) (s, [])

/-- A row written whole through the encoder. -/
def State.nbWrite (s : State) (r : Nat) (ps : List PByte) : State :=
  let s := ((s.reservedLookup r false).setValid r true).modVault (vaultOf r) fun v =>
    { v with unchecked := v.unchecked.filter (· ≠ r) }
  let s := s.setSummary r false
  (unitsOf 64 r 512).foldl (fun s w => s.storeWord w ((ps.drop (w - r)).take 64)) s

/-- A row written as poisoned words, its summary bit set (R310). -/
def State.nbPoisonRow (s : State) (r : Nat) : State := s.nbWrite r (List.replicate 512 (0, true))

/-- A row made unchecked; the oldest is rebuilt where the table of 512 is full (R308). -/
def State.uncheck (s : State) (r : Nat) : State :=
  let c := vaultOf r
  if (s.vault c).unchecked.contains r then s
  else
    let s := if 512 ≤ (s.vault c).unchecked.length then s.rebuildRow ((s.vault c).unchecked.headD 0) else s
    s.modVault c fun v => { v with unchecked := v.unchecked ++ [r] }

/-! ### Row logic (R300, R308, R309) -/

def maj (a b c : Byte) : Byte := (a &&& b) ||| (a &&& c) ||| (b &&& c)

/-- The data a row operation gives. -/
def rowOp (op : Nat) (a b c : Byte) : Byte :=
  match op with
  | 1 => a
  | 2 => ~~~a
  | 3 => a &&& b
  | 4 => a ||| b
  | 5 => a ^^^ b
  | _ => maj a b c

/-- One step: the destination row's address and its sources. COPY, NOT and XOR carry the errors of their sources along;
the others leave the destination unchecked. -/
def State.rowStep (s : State) (op d a b c : Nat) : State :=
  let v := vaultOf d
  let un := (s.vault v).unchecked
  let srcs := if op ≤ 2 then [a] else if op ≤ 5 then [a, b] else [a, b, c]
  let dirty := 3 ≤ op ∧ op ≠ 5 ∨ srcs.any (un.contains ·)
  let data := List.zipWith (fun x yz => rowOp op x yz.1 yz.2) (s.bytes a 512) ((s.bytes b 512).zip (s.bytes c 512))
  let syn (w : Nat) : Nat := if dirty then 0
    else if op = 5 then Nat.xor (s.fastSynAt (a + w)) (s.fastSynAt (b + w)) else s.fastSynAt (a + w)
  let syns := (List.range 8).map fun i => syn (64 * i)
  let s := (unitsOf 64 d 512).foldl State.dropBack ((s.setBytes d data).setSummary d false)
  let s := (syns.zipIdx).foldl (fun s p => s.setFastSyn (d + 64 * p.2) p.1) s
  if dirty then s.uncheck d else s.modVault v fun k => { k with unchecked := k.unchecked.filter (· ≠ d) }

/-- Row logic step by step: after a precheck finds poison, that step and every later one poison their rows. The status. -/
def State.runRowLogic (s : State) (k : NbCmd) : State × Nat :=
  let c := vaultOf k.rowAddrA
  (List.range k.count).foldl (fun (acc : State × Nat) i =>
    let got := acc
    let s := got.1
    let st := got.2
    let a := k.rowAddr (k.rowA + i * k.stride)
    let b := if k.usesB then k.rowAddr (k.rowB + i * k.stride) else a
    let m := if k.op = 6 then k.rowAddr (k.rowC + i * k.stride) else a
    let d := k.rowAddr (k.rowD + i * k.stride)
    if st = 3 then (s.nbPoisonRow d, 3)
    else
      let srcs := if k.op ≤ 2 then [a] else if k.op ≤ 5 then [a, b] else [a, b, m]
      let got :=
        if (k.op = 3 ∨ k.op = 4 ∨ k.op = 6) ∧ s.bit (vA c NB_CONFIG) 0 then
          srcs.dedup.foldl (fun (p : State × Bool) r =>
            if !p.1.rowValid r || (p.1.vault c).unchecked.contains r then p
            else
              let got := p.1.nbConsume r
              (got.1, p.2 || anyPoison got.2)) (s, false)
        else (s, false)
      let s := got.1
      let bad := got.2
      if bad then (s.nbPoisonRow d, 3)
      else
        let s := (srcs ++ [d]).dedup.foldl State.nbTouch s
        (s.rowStep k.op d a b m, st)) (s, 1)

/-! ### Bank-edge units (R301 to R304) -/

def NbCmd.format (k : NbCmd) : Fmt := [Fmt.e2m1, .e3m2, .e2m3, .e4m3, .e5m2, .int8].getD k.fmt .int8

/-- Rows consumed in order. -/
def State.nbRows (s : State) (k : NbCmd) (rows : List Nat) : State × List PByte :=
  rows.foldl (fun (acc : State × List PByte) r =>
    let got := acc.1.nbConsume (k.rowAddr r)
    let s := got.1
    let ps := got.2
    (s, acc.2 ++ ps)) (s, [])

/-- Vector v of the list rows. -/
def NbCmd.vec (k : NbCmd) (ps : List PByte) (v : Nat) : List PByte := (ps.drop (v * k.segLen)).take k.segLen

/-- One score (R301), its flags. -/
def NbCmd.score (k : NbCmd) (vec query : List Byte) : W32 × AFlags :=
  let f := k.format
  let xs := streamElems vec f.width k.elems
  let qs := streamElems query f.width k.elems
  let blocks := (List.range (k.elems / 32)).map fun b =>
    (List.range 32).map fun i => (f.val (xs.getD (32 * b + i) 0), f.val (qs.getD (32 * b + i) 0))
  let nanScale := k.xd = 0xFF ∨ k.xq = 0xFF
  let r := blocks.foldl (fun (acc : W32 × AFlags) ps =>
    let v := blockValue k.xd k.xq ps
    let out := fusedAdd acc.1 v
    (out, acc.2 ||| stepFlags acc.1 nanScale ps v out)) ((0 : W32), (0 : AFlags))
  if k.flags = 2 then
    let out := fmul r.1 k.fval
    (out, r.2 ||| resultFlags [f32Val r.1, f32Val k.fval] out)
  else r

/-- FP32 values as whole rows of 512 bytes, poisoned by the 64-byte word, the rest +0. -/
def valueRow (vs : List PVal) (r : Nat) : List PByte :=
  let row := (vs.drop (128 * r)).take 128
  let row := row ++ List.replicate (128 - row.length) ((0 : W32), false)
  (List.range 8).flatMap fun w =>
    let part := (row.drop (16 * w)).take 16
    let bad := part.any (·.2)
    (bytes32 (part.map (·.1))).map fun b => (b, bad)

/-- DOT: the state with the scores written, the status, the record's body, the flags and whether a score is NaN. -/
def State.runDot (s : State) (k : NbCmd) : State × Nat × List Byte × AFlags × Bool :=
  let got := s.nbConsume (k.rowAddr k.rowB)
  let s := got.1
  let q := got.2
  let q := q.take k.segLen
  let got := s.nbRows k (k.steps k.rowA)
  let s := got.1
  let list := got.2
  let res := (List.range k.vectors).map fun v =>
    let x := k.vec list v
    let got := k.score (dataOf x) (dataOf q)
    let sc := got.1
    let fl := got.2
    (((sc, anyPoison x || anyPoison q) : PVal), fl)
  let scores := res.map (·.1)
  let s := (List.range k.valueRows).foldl (fun s r => s.nbWrite (k.rowAddr (k.rowD + r)) (valueRow scores r)) s
  let best := (scores.zipIdx).foldl (fun (acc : Option (W32 × Nat)) p =>
    if (f32Val p.1.1).isNaN then acc
    else match acc with
      | none => some (p.1.1, p.2)
      | some (b, _) => match (f32Val b).cmp (f32Val p.1.1) with
        | some d => if d < 0 then some (p.1.1, p.2) else acc
        | none => acc) none
  let top := best.getD (canonNaN, 0)
  let nan := scores.any fun x => (f32Val x.1).isNaN
  (s, if scores.any (·.2) then 3 else 1, leBytes 8 k.vectors ++ leBytes 4 top.1.toNat ++ leBytes 4 top.2,
    orFlagList (res.map (·.2)), nan)
where
  orFlagList (fs : List AFlags) : AFlags := fs.foldl (· ||| ·) 0

/-- WSUM (R302): as for DOT. -/
def State.runWsum (s : State) (k : NbCmd) : State × Nat × List Byte × AFlags × Bool :=
  let soft := k.flags = 1
  let f := k.format
  let got := s.nbRows k ((List.range k.valueRows).map (k.rowB + ·))
  let s := got.1
  let wb := got.2
  let ws := (words32 (dataOf wb)).take k.vectors
  let got := s.nbRows k (k.steps k.rowA)
  let s := got.1
  let list := got.2
  let m := ws.foldl vmax (ws.headD 0)
  let weight (x : W32) : W32 × AFlags :=
    if !soft then (x, 0)
    else
      let e := if m = 0xFF800000 then 0 else fexp (fsub x m)
      -- the difference is formed inside the operation and sets no flag of its own (R48)
      (e, resultFlags [f32Val x, f32Val m] e)
  let wts := ws.map weight
  let vecs := (List.range k.vectors).map fun v => streamElems (dataOf (k.vec list v)) f.width k.elems
  let step (acc : List (W32 × AFlags)) (p : W32 × List Nat) : List (W32 × AFlags) :=
    List.zipWith (fun o b =>
      let e := elemToF32 f k.xd b
      let out := ffma p.1 e o.1
      (out, o.2 ||| widenFlags f k.xd b ||| resultFlags [f32Val p.1, f32Val e, f32Val o.1] out)) acc p.2
  let o := (List.zip (wts.map (·.1)) vecs).foldl step (List.replicate k.elems (0, 0))
  let l := wts.foldl (fun (acc : W32 × AFlags) w =>
    let out := fadd acc.1 w.1
    (out, acc.2 ||| resultFlags [f32Val acc.1, f32Val w.1] out)) (0, 0)
  let bad := anyPoison wb || anyPoison list
  let s := s.nbWrite (k.rowAddr k.rowD) ((valueRow (o.map fun x => (x.1, bad)) 0).map fun b => (b.1, bad))
  let nan := (o.map (·.1)).any (fun x => (f32Val x).isNaN) || ws.any fun x => (f32Val x).isNaN
  (s, if bad then 3 else 1,
    leBytes 8 k.vectors ++ leBytes 4 (if soft then m.toNat else 0) ++ leBytes 4 0 ++ leBytes 4 l.1.toNat,
    (wts.foldl (fun a w => a ||| w.2) 0) ||| (o.foldl (fun a x => a ||| x.2) 0) ||| l.2, nan)

def popByte (b : Byte) : Nat := ((List.range 8).filter fun i => b.getLsbD i).length

/-- POPC (R303). -/
def State.runPopc (s : State) (k : NbCmd) : State × Nat × List Byte :=
  let mask := k.flags.testBit 2
  let got := s.nbRows k (k.steps k.rowA)
  let s := got.1
  let a := got.2
  let got := if mask then s.nbRows k (k.steps k.rowB) else (s, [])
  let s := got.1
  let b := got.2
  let bs := if mask then List.zipWith (· &&& ·) (dataOf a) (dataOf b) else dataOf a
  (s, if anyPoison a || anyPoison b then 3 else 1, leBytes 8 (bs.foldl (fun n x => n + popByte x) 0))

/-! ### Start and end -/

/-- The effect of a command on its rows (R300 to R310): its status, the body of its record and whether NaN was seen. DESIGN CHOICE (log
entry 138): a row-logic command that poison ends names all its steps in the record, or none where a source was poisoned at its
start. -/
def State.nbRun (s : State) (k : NbCmd) : State × Nat × List Byte × Bool :=
  let c := vaultOf k.rowAddrA
  let s := (k.reads.map k.rowAddr).foldl (fun s r => s.reservedLookup r true) s
  if (k.reads.map k.rowAddr).any fun r => s.rowValid r && s.rowSummary r then
    ((k.writes.map k.rowAddr).foldl State.nbPoisonRow s, 3, leBytes 8 0, false)
  else if k.rowLogic then
    let got := s.runRowLogic k
    let s := got.1
    let st := got.2
    (s, st, leBytes 8 k.count, false)
  else if k.op = 0x12 then
    let got := s.runPopc k
    let s := got.1
    let st := got.2.1
    let body := got.2.2
    (s, st, body, false)
  else
    let got := if k.op = 0x10 then s.runDot k else s.runWsum k
    let s := got.1
    let st := got.2.1
    let body := got.2.2.1
    let fl := got.2.2.2.1
    let nan := got.2.2.2.2
    -- the unit never saturates (R304)
    let fl := fl &&& 0xB
    (s.orReg (vA c NB_FLAGS) (fl.setWidth 64), st, body, nan || fl.getLsbD 3)

/-- The command that starts next starts, where it is one of bank `bank`. DESIGN CHOICE (log entry 114): all its steps take effect at
once, so that nothing is served between them; its rows stay locked until it ends. -/
def State.nbStart (s : State) (c bank : Nat) (ups : List Upset) : State :=
  match s.nbNext c with
  | none => s
  | some k =>
    if k.bank ≠ bank then s
    else
      let w := if k.held then s.dieTime c - k.heldAt else 0
      let got := ((s.upsets ups).count (vA c NB_HOLD_TIME) w).nbRun k
      let s := got.1
      (s.modVault c fun v => v.modBankHead bank fun k =>
        { k with running := true, waited := w, startAt := s.dieTime c, status := got.2.1, body := got.2.2.1,
                 nan := got.2.2.2 }).nbHolds c

/-- A running command ends (R298, R305, R306): its record kept, its locks gone, its status stored in its open-write entry
and answered. -/
def State.nbEnd (s : State) (c bank : Nat) : State :=
  match (s.vault c).bankHead bank with
  | none => s
  | some k =>
    if !k.running then s
    else
      let rcd := k.record k.status 0 (s.dieTime c - k.startAt)
      let st := if k.status = 3 then 3 else 0
      let s := s.modVault c fun v =>
        { v with cmds := v.cmds.eraseIdx (v.cmds.findIdx fun k => k.bank = bank),
                 opens := v.opens.map fun w =>
                   if w.rows.isSome && some w.core == k.core && w.tag == k.tag then { w with nbStatus := some (st, rcd) } else w }
      let s := ((s.count (vA c NB_COMMANDS)).keepRecord c k rcd).nbHolds c
      let s := if k.status = 3 then s.addSat (vA c NB_REFUSED) 31 16 1 else s
      s.nbAnswer c k st rcd

/-- The commands at a vault's input, none of which is accepted, answered NO_NB as NB_MODE changes (R294); ABSORBED under a fence. -/
def State.nbTurnAway (s : State) (c : Nat) : State :=
  let status := if (s.stack (c / 64)).fence then 2 else 7
  (s.vault c).input.foldl (fun s k => s.nbAnswer c k status []) (s.modVault c fun v => { v with input := [] })

/-- The mode's end (R294): every unchecked row rebuilt, the logic powered down; powered up again where ENABLE was set
anew. -/
def State.nbPowerDown (s : State) (c : Nat) : State :=
  let s := s.nbTurnAway c
  let s := (s.vault c).unchecked.foldl State.rebuildRow s
  let on := s.bit (vA c NB_MODE) 0
  (s.setBit (vA c NB_STATUS) 0 false).modVault c fun v => { v with draining := false, powering := on }

/-- The newest record of a row, zeros where none is kept (R305). -/
def State.nbRecord (s : State) (c row : Nat) : List Byte :=
  match (s.vault c).results.find? fun r => r.addr = row with
  | some r => r.bytes
  | none => List.replicate 64 0

/-- The accepted command that has not ended for which a record read waits (R305, R311). -/
def State.nbRecordOf (s : State) (c row : Nat) : Option NbCmd := (s.vault c).cmds.find? fun k => k.rowAddr k.rowD = row

end Sys2Proof.Machine
end

