-- ==== Sys2Proof/Machine/VaultOps.lean ====
section
/-! DEFINITION. Vault controllers and slow-tier controllers apart from data accesses: hauls (R250), refresh (R254), row
repair (R258), clears (R261), the channel's link and zero fill (R268), write-backs (R278) and the scrubber (R282 to R285). -/

namespace Sys2Proof.Machine

/-- The payload of class 0x30 codes 3 and 4 (R528). -/
def State.rowPayload (s : State) (row : Nat) : Nat := row + s.physOf (vaultOf row) * 2 ^ 64

/-- The first fast-tier address of a logical vault. -/
def vaultBase (c : Nat) : Nat := 2 ^ 31 * c

/-! ### Haul and refresh -/

/-- The haul of a vault declared down after 8 repeats in a row have failed (R250). -/
def State.haulDown (s : State) (c : Nat) : State :=
  if (s.vault c).haulDown then s
  else (((s.modVault c fun v => { v with haulDown := true }).addSat (vA c VC_HAUL_RETRY) 31 0 8).setBit (vA c VC_STATUS) 0
    true).evVault c 0x30 0x05

/-- The interval code in force in a bench: 0 32 ms, 1 16 ms, 2 8 ms (R253); one for all benches where STRETCH overrides it
(R255). -/
def State.benchRate (s : State) (c bench : Nat) : Nat :=
  if s.fld (vA c VC_REFRESH) 31 16 ≠ 0 ∨ s.warden.pausing then 0 else s.fld (vA c VC_BENCH_RATE) (2 * bench + 1) (2 * bench)

/-- Whether a stack's benches refresh themselves: in Rest and under a stack reset (R255). -/
def State.selfRefresh (s : State) (t : Nat) : Bool := s.host.restPhase == 1 || (s.stack t).fence

/-- The refresh slot of a bank, where the next slot is for it (R254): slots go round bank by bank, through all benches for each,
and come at the shortest interval of the vault, so that a bench at a longer one uses one in 2 or in 4 of its bank's slots. -/
def State.refreshSlot (s : State) (c bench bank : Nat) : State :=
  let b := bench * 8 + bank
  let shortest := ((List.range 16).map (s.benchRate c)).foldl max 0
  let every := 2 ^ (shortest - s.benchRate c bench)
  let idle := smGet 0 (s.vault c).slots b
  let done (n : Nat) : State := s.modVault c fun v =>
    { v with slot := if bench < 15 then b + 8 else (bank + 1) % 8, slots := smSet 0 v.slots b n }
  if s.selfRefresh (c / 64) ∨ (s.vault c).slot ≠ b then s
  else if every ≤ idle + 1 then (done 0).count (vA c VC_REFRESHES)
  else done (idle + 1)

/-! ### Row repair (R256, R258) -/

/-- The physical vault of a logical one, as stack × 72 + row × 9 + column. -/
def State.physVault (s : State) (c : Nat) : Nat := c / 64 * 72 + s.physOf c / 16 % 8 * 9 + s.physOf c % 16

/-- The remap entries of a physical vault: row place bank × 32768 + row, and spare. -/
def State.remapsOf (s : State) (p : Nat) : List (Nat × Nat) := smGet [] s.warden.remaps p

def rowPlace (row : Nat) : Nat := 32768 * bankOf row + rowOf row

/-- USED and LEAST of VC_SPARES (R269): entries of a physical vault's remap table, and the fewest spare rows left in a bank. -/
def State.sparesOf (s : State) (p : Nat) : Nat × Nat :=
  let m := s.remapsOf p
  let used (b : Nat) := (m.filter fun e => e.1 / 32768 = b).length
  (min m.length 8192, 512 - ((List.range 128).map used).foldl max 0)

/-- VC_SPARES of a logical vault from its remap table. -/
def State.showSpares (s : State) (c : Nat) : State :=
  let n := s.sparesOf (s.physVault c)
  (s.setFld (vA c VC_SPARES) 29 16 n.1).setFld (vA c VC_SPARES) 9 0 n.2

/-- An entry of the repair record (R460): kind, stack, physical index and the bits below. -/
def defectWord (kind t x low : Nat) : W64 := BitVec.ofNat 64 (kind * 2 ^ 60 + t * 2 ^ 56 + x * 2 ^ 49 + low)
/-- A KIND 1 entry of a physical vault's row: its place bank × 32768 + row. -/
def rowDefect (p place : Nat) : W64 := defectWord 1 (p / 72) (p % 72) (place * 2 ^ 27)

def defectKind (w : W64) : Nat := bits w 63 60
/-- The physical vault or core of an entry, as stack × 72 + index. -/
def defectPair (w : W64) : Nat := bits w 59 56 * 72 + bits w 55 49
/-- The row place of a KIND 1 entry. -/
def defectPlace (w : W64) : Nat := bits w 48 27

/-- A defect put among those in force. -/
def State.addDefect (s : State) (e : W64) : State :=
  s.modWarden fun w => { w with defects := if w.defects.contains e then w.defects else w.defects ++ [e] }

/-- A row redirected to the next spare row of its bank (R256). -/
def State.addRemap (s : State) (p place : Nat) : State :=
  let n := ((s.remapsOf p).filter fun e => e.1 / 32768 = place / 32768).length
  s.modWarden fun w => { w with remaps := smSet [] w.remaps p (s.remapsOf p ++ [(place, n)]) }

/-- The row VC_REPAIR names. -/
def State.repairRow (s : State) (c : Nat) : Nat :=
  let a := vA c VC_REPAIR
  vaultBase c + 2 ^ 24 * (8 * s.fld a 21 18 + s.fld a 17 15) + 512 * s.fld a 14 0

/-- GO of VC_REPAIR: the row's accesses are held; refused where its bank has no spare left. -/
def State.repairGo (s : State) (c : Nat) : State :=
  let row := s.repairRow c
  let m := s.remapsOf (s.physVault c)
  if s.bit (vA c VC_REPAIR) 30 then s
  else if 512 ≤ (m.filter fun e => e.1 / 32768 = bankOf row).length ∨ 8192 ≤ m.length then
    (s.setBit (vA c VC_REPAIR) 29 true).evVault c 0x30 0x04 (s.rowPayload row)
  else ((s.setBit (vA c VC_REPAIR) 31 true).setBit (vA c VC_REPAIR) 30 true).modVault c fun v => { v with repair := some row }

/-- The repair's end: once no command names the row, it is rebuilt, read and decoded where valid, and lives in the spare. -/
def State.repairEnd (s : State) (c : Nat) : State :=
  match (s.vault c).repair with
  | none => s
  | some row =>
    if (s.lockOn row true).isSome then s
    else
      let s := (s.reservedLookup row false).checkRow row
      let s := if s.rowValid row then (unitsOf 64 row 512).foldl (fun s w => (s.readWord w .repair).1) s else s
      let p := s.physVault c
      let s := (s.addRemap p (rowPlace row)).addDefect (rowDefect p (rowPlace row))
      let s := (s.modVault c fun v => { v with repair := none }).showSpares c
      ((s.setBit (vA c VC_REPAIR) 31 false).setBit (vA c VC_REPAIR) 30 false).evVault c 0x30 0x03 (s.rowPayload row)

/-! ### Clears (R261) -/

/-- GO of VC_CLEAR: LAST below FIRST has no effect. -/
def State.clearGo (s : State) (c : Nat) : State :=
  let a := vA c VC_CLEAR
  let f := s.fld a 7 4
  let l := s.fld a 11 8
  if s.bit a 30 ∨ l < f then s
  else (((s.setBit a 31 true).setBit a 30 true).setBit (vA c VC_STATUS) 1 true).modVault c fun v =>
    { v with clearing := some (f, l) }

/-- The rows of benches f to l of a vault: lowest address and past the highest. -/
def benchRange (c f l : Nat) : Nat × Nat := (vaultBase c + 2 ^ 27 * f, vaultBase c + 2 ^ 27 * (l + 1))

/-- The bits of a range cleared, with its row status, pending write-backs and the generations of its segments (R185,
R261). -/
def State.clearRange (s : State) (c lo hi : Nat) : State :=
  let s := ((s.vault c).unchecked.filter fun r => decide (lo ≤ r) && decide (r < hi)).foldl State.rebuildRow s
  let s := s.invalidate lo hi
  { s with segs := smClear s.segs (lo / 4096) (hi / 4096) }

/-- An open-write entry that covers a byte from lo to below hi. -/
def OpenWrite.covers (w : OpenWrite) (lo hi : Nat) : Bool :=
  match w.rows with
  | some rs => rs.any fun r => decide (r < hi) && decide (lo < r + 512)
  | none => decide (w.lo < hi) && decide (lo < w.hi)

/-- The clear's end: once no open write and no near-bank command covers the range. -/
def State.clearEnd (s : State) (c : Nat) : State :=
  match (s.vault c).clearing with
  | none => s
  | some (f, l) =>
    let got := benchRange c f l
    let lo := got.1
    let hi := got.2
    let v := s.vault c
    if v.opens.any (fun w => w.covers lo hi) ∨ v.cmds.any (fun k => decide (f ≤ k.bank / 8) && decide (k.bank / 8 ≤ l)) then s
    else
      let s := (s.clearRange c lo hi).modVault c fun v => { v with clearing := none }
      ((s.setBit (vA c VC_CLEAR) 31 false).setBit (vA c VC_CLEAR) 30 false).setBit (vA c VC_STATUS) 1 false

/-! ### The slow tier (R268) -/

/-- A channel that loses its link. -/
def State.slowDown (s : State) (t : Nat) : State :=
  if s.bit (sA t SLOW_STATUS) 3 then s
  else ((s.setBit (sA t SLOW_STATUS) 3 true).setBit (sA t SLOW_STATUS) 0 false).evStack t 0x30 0x06

/-- GO of SLOW_CLEAR. -/
def State.slowClearGo (s : State) (t : Nat) : State :=
  if s.bit (sA t SLOW_STATUS) 2 then s
  else ((s.setBit (sA t SLOW_CLEAR) 31 true).setBit (sA t SLOW_STATUS) 2 true).modStack t fun k => { k with slowClearing := true }

/-- Keys of a channel of the slow tier dropped. -/
def dropChannel {α : Type} (t : Nat) (m : List (Nat × α)) : List (Nat × α) :=
  m.filter fun p => decide (p.1 < slowBase) || decide (0x04F000000000 ≤ p.1) || channelOf p.1 ≠ t

/-- A channel's lines as zeros with valid check words (R268). DESIGN CHOICE (log entry 134): SLOW_WRITES counts none of them. -/
def State.zeroChannel (s : State) (t : Nat) : State :=
  let s := { s with mem := dropChannel t s.mem, slowSyn := dropChannel t s.slowSyn, slowA := dropChannel t s.slowA,
                    slowB := dropChannel t s.slowB }
  s.modStack t fun k => { k with slowBack := [] }

/-- The zero fill's end. DESIGN CHOICE (log entry 109): SLOW_CLEAR.GO reads 1 until then, which R270 does not say. -/
def State.slowClearEnd (s : State) (t : Nat) : State :=
  if !(s.stack t).slowClearing then s
  else
    let s := (s.zeroChannel t).modStack t fun k => { k with slowClearing := false }
    (s.setBit (sA t SLOW_CLEAR) 31 false).setBit (sA t SLOW_STATUS) 2 false

/-! ### Write-backs (R278, R279) -/

/-- What a pending write-back stores: the corrected bytes, or poison. -/
def backBytes (fix : Option (List Byte)) : List PByte :=
  match fix with
  | some bs => plain bs
  | none => List.replicate 64 (0, true)

/-- The write-back of a word that a read corrected or found uncorrectable, where one is pending. -/
def State.writeBackFast (s : State) (w : Nat) : State :=
  match (s.vault (vaultOf w)).writeBacks.find? (·.1 == w) with
  | some x => if s.rowValid w then s.storeWord w (backBytes x.2) else s.dropBack w
  | none => s

/-- The same of a line of a channel whose link is up. -/
def State.writeBackSlow (s : State) (l : Nat) : State :=
  match (s.stack (channelOf l)).slowBack.find? (·.1 == l) with
  | some x => if s.bit (sA (channelOf l) SLOW_STATUS) 3 then s else s.writeLine l (backBytes x.2)
  | none => s

/-! ### The scrubber (R282 to R285) -/

def rowsPerVault : Nat := 128 * 32768
def linesPerChannel : Nat := 1006632960

/-- The first valid row of a vault from a place on, skipping the invalid ones without an access. -/
def State.nextValid (s : State) (c from_ : Nat) : Option Nat :=
  (s.valid.find? fun p => p.2 && decide (vaultBase c + from_ * 512 ≤ p.1) && decide (p.1 < vaultBase (c + 1))).map (·.1)

/-- Whether the scrubber skips a row (R282): unchecked, locked or under repair. DESIGN CHOICE (log entry 135): one of a bench that a
clear in progress holds is skipped too. -/
def State.scrubSkips (s : State) (row : Nat) : Bool :=
  (s.vault (vaultOf row)).unchecked.contains row || (s.lockOn row false).isSome || s.rowHeld row

/-- The valid bits of a vault's rows from place n to place m looked up (R259). -/
def State.lookupRows (s : State) (c n m : Nat) : State :=
  (List.range (m / 4096 - n / 4096 + 1)).foldl (fun s i =>
    s.reservedLookup (vaultBase c + 512 * 4096 * (n / 4096 + i)) false) s

/-- A pass begins with its first row or line (R283). -/
def State.scrubBegin (s : State) (t : Nat) : State :=
  if s.bit (sA t SCRUB_STATUS) 0 then s else s.modStack t fun k => { k with passStart := k.cycles.toNat }

/-- A row read by the scrubber: each word decoded and fixed, the row remembered where a word was corrected, its summary bit
cleared where no word is poisoned. -/
def State.scrubRowAt (s : State) (row : Nat) : State :=
  let t := vaultOf row / 64
  let again := (s.stack t).remembered.contains row
  let before := s.sReg t SCRUB_CORRECTED
  let s := s.reservedLookup row true
  let got := (unitsOf 64 row 512).foldl (fun (acc : State × List PByte) w =>
    let got := acc.1.readWord w .scrub again
    let s := got.1
    let ps := got.2
    (s, acc.2 ++ ps)) (s, [])
  let s := got.1
  let ps := got.2
  let s := if anyPoison ps then s else s.setSummary row false
  if s.sReg t SCRUB_CORRECTED = before then s
  else s.modStack t fun k => { k with remembered := (row :: k.remembered.filter (· ≠ row)).take 64 }

/-- Vaults of a stack in service: all of a stack that is not down. -/
def State.servedVaults (s : State) (t : Nat) : List Nat :=
  if s.stackDown t then [] else (List.range 64).map (t * 64 + ·)

/-- The pass's state shown, and its end: every vault, and with SLOW the channel, gone through (R282, R283, R290). -/
def State.scrubShow (s : State) (t : Nat) : State :=
  let vs := s.servedVaults t
  let slow := s.bit (sA t SCRUB_CONTROL) 30 && !s.bit (sA t SLOW_STATUS) 3
  let doneAll := vs.all (fun c => decide (rowsPerVault ≤ (s.vault c).scrub)) &&
    (!slow || decide (linesPerChannel ≤ (s.stack t).slowScrub))
  let low := (vs.map fun c => (s.vault c).scrub).foldl min rowsPerVault
  if doneAll then
    let s := vs.foldl (fun s c => s.modVault c fun v => { v with scrub := 0 }) s
    let s := (s.modStack t fun k => { k with slowScrub := 0 }).addSat (sA t SCRUB_PASSES) 31 0 1
    (s.setFld (sA t SCRUB_STATUS) 11 8 0).setBit (sA t SCRUB_STATUS) 0 false
  else (s.setFld (sA t SCRUB_STATUS) 11 8 (min (low / (8 * 32768)) 15)).setBit (sA t SCRUB_STATUS) 0 true

/-- One scrubber period of a vault. -/
def State.scrubFast (s : State) (c : Nat) : State :=
  let t := c / 64
  let n := (s.vault c).scrub
  if !s.bit (sA t SCRUB_CONTROL) 31 ∨ s.stackDown t ∨ rowsPerVault ≤ n then s
  else
    let s := s.scrubBegin t
    match s.nextValid c n with
    | none => ((s.lookupRows c n (rowsPerVault - 1)).modVault c fun v => { v with scrub := rowsPerVault }).scrubShow t
    | some row =>
      let s := s.lookupRows c n ((row - vaultBase c) / 512)
      let s := if s.scrubSkips row then s.count (sA t SCRUB_SKIPPED) else s.scrubRowAt row
      (s.modVault c fun v => { v with scrub := (row - vaultBase c) / 512 + 1 }).scrubShow t

/-- One scrubber period of a channel that is up: the next line. -/
def State.scrubSlow (s : State) (t : Nat) : State :=
  let n := (s.stack t).slowScrub
  if !s.bit (sA t SCRUB_CONTROL) 31 ∨ !s.bit (sA t SCRUB_CONTROL) 30 ∨ s.bit (sA t SLOW_STATUS) 3 ∨ s.bit (sA t SLOW_STATUS) 2 ∨
      linesPerChannel ≤ n then s
  else
    let s := s.scrubBegin t
    let line := slowBase + 4096 * (n / 64 * 16 + t) + n % 64 * 64
    let s := ((s.count (sA t SLOW_READS)).readLine line .scrub).1
    (s.modStack t fun k => { k with slowScrub := n + 1 }).scrubShow t

/-- PERIOD in minutes, taken at its nearest limit (R283). -/
def State.scrubPeriod (s : State) (t : Nat) : Nat := max 60 (min (s.fld (sA t SCRUB_CONTROL) 13 0) 10080)

/-- A pass that has not ended when PERIOD has run out. -/
def State.scrubLate (s : State) (t : Nat) : State :=
  if s.bit (sA t SCRUB_STATUS) 0 ∧ (s.stack t).passStart + 60000000000 * s.scrubPeriod t ≤ (s.stack t).cycles.toNat then
    s.setBit (sA t SCRUB_STATUS) 1 true
  else s

/-! ### Diagnostic accesses (R286) -/

/-- The diagnostic mode of host and debug accesses to a vault. -/
def State.diagMode (s : State) (c : Nat) : Nat :=
  if s.fld (sA (c / 64) SCRUB_DIAG) 9 4 = c % 64 then s.fld (sA (c / 64) SCRUB_DIAG) 1 0 else 0

def State.diagError (s : State) (c : Nat) : State := s.setBit (sA (c / 64) SCRUB_DIAG) 31 true

/-- A host or debug write to the fast tier under SCRUB_DIAG. -/
def State.writeDiag (s : State) (a : Nat) (ps : List PByte) : State :=
  let c := vaultOf a
  let m := s.diagMode c
  if m = 0 then (s.writeFast a ps).1
  else if m = 3 ∨ a % 64 ≠ 0 ∨ ps.length % 64 ≠ 0 then s.diagError c
  else (unitsOf 64 a ps.length).foldl (fun s w =>
    let s := if w % 512 = 0 ∨ w = a then s.reservedLookup w false else s
    let new := dataOf ((ps.drop (w - a)).take 64)
    let old := s.bytes w 64
    let s := (s.checkRow w).dropBack w
    let syn := s.fastSynAt w
    let s := if s.rowValid w then s else s.setValid w true
    if m = 1 then (s.setBytes w new).setFastSyn w (Nat.xor syn (Nat.xor (rsEncode 8 old) (rsEncode 8 new)))
    else s.setFastSyn w (Nat.xor (ofLeBytes (new.take 8)) (rsEncode 8 old))) s

/-- A host or debug read of the fast tier under SCRUB_DIAG: a raw one decodes nothing, of a row rebuilt first where it is unchecked
(R308). -/
def State.readDiag (s : State) (a n : Nat) : State × List PByte :=
  let m := s.diagMode (vaultOf a)
  if m = 3 then
    let s := (unitsOf 512 a n).foldl (fun s r => (s.reservedLookup r false).checkRow r) s
    let raw := (unitsOf 64 a n).flatMap fun w =>
      leBytes 8 (Nat.xor (rsEncode 8 (s.bytes w 64)) (s.fastSynAt w)) ++ List.replicate 56 0
    (s, (plain raw).drop (a % 64) |>.take n)
  else s.readFast a n (if m = 0 then .access else .diag)

end Sys2Proof.Machine
end

