-- ==== Sys2Proof/Machine/HopOps.lean ====
section
/-! DEFINITION. Packets on their way: hops with their epoch and link checks (R227 to R229, R232, R233, R237 to R239), merge
plans (R234 to R236), links down and detours, and map changes (R240). -/

namespace Sys2Proof.Machine

/-! ### What ends a packet early -/

/-- A status that reaches its issuing core at once: what stands for an answer that was itself lost (log entry 36). -/
def State.statusTo (s : State) (core : Nat) (tag : W16) (addr : Addr) (len status : Nat) : State :=
  s.modNet fun n => { n with packets := n.packets ++
    [{ Packet.blank 6 core core tag with status := status, addr := addr, len := len, place := .delivered core }] }

/-- A packet lost or turned back at a router with a status (R187): its sender, or every sender combined in it, is answered from
there; of a response that is lost, the core that waits for it is told LINK, and absorbed responses are discarded (R472). -/
def State.turnBack (s : State) (p : Packet) (here status : Nat) : State :=
  if p.response then (if p.port.isNone ∧ status = 5 then s.statusTo p.dest p.tag p.addr p.len 5 else s)
  else if p.typ = 0 then s.answerSenders p.senders here status
  else s.answer p here status

/-! ### Quarantine (R238, R239) -/

/-- The logical core of a stack that a physical core (CORE_ID.PHYS layout) serves. -/
def State.servedBy (s : State) (phys : Nat) : Option Nat :=
  ((List.range 64).map fun c => phys / 128 * 64 + c).find? fun c => s.physOf c = phys

/-- A drop or refusal at the router of a physical core, of what physical core `sender` sent: counted in MAP_QUAR of the router's
stack, and where it serves a logical core in its NI_QUAR too; one event per router per 1 ms. -/
def State.quarantine (s : State) (phys sender : Nat) (inj : Bool) (seen expected : Nat) : State :=
  let t := phys / 128
  let key := t * 72 + phys / 16 % 8 * 9 + phys % 16
  let last := smGet 0 s.net.quar key
  let now := (s.stack t).cycles.toNat
  let s := s.addSat (pA MAP_QUAR + 4 * t) 31 0 1
  let served := s.servedBy phys
  let s := match served with
    | some c =>
      let s := if inj then s.addSat (cA c NI_QUAR) 31 16 1 else s.addSat (cA c NI_QUAR) 15 0 1
      s.setReg (cA c NI_QUAR_LAST) (BitVec.ofNat 64 (sender * 2 ^ 53 + seen * 2 ^ 45 + expected * 2 ^ 37 + 1))
    | none => s
  if last = 0 ∨ last - 1 + 1000000 ≤ now then
    let s := s.modNet fun n => { n with quar := smSet 0 n.quar key (now + 1) }
    match served with
    | some c => s.evCore c 0x31 (if inj then 2 else 1)
    | none => s.evStack t 0x31 (if inj then 2 else 1)
  else s

/-! ### Merge plans (R234 to R236, R244) -/

/-- Fields of a merge plan as a packet met it: RED, and whether it names the port coded as ARRIVE (local 0, W 1, N 2, E 3, S 4). -/
def planRed (w : W32) : Nat := w.toNat / 2 ^ 29 % 4
def planInput (w : W32) (port : Nat) : Bool := w.getLsbD (24 + port)

/-- Packets a router holds for a plan that stood as w when they arrived. -/
def State.planHeld (s : State) (c m : Nat) (w : W32) : List Packet :=
  s.net.packets.filter fun p => p.place == .router c && p.plan == some (m, w)

/-- What R236 finds wrong with a packet that arrives at a plan router. -/
def State.planViolates (s : State) (c m : Nat) (w : W32) (p : Packet) : Bool :=
  let held := s.planHeld c m w
  !planInput w p.arrive || p.red ≠ planRed w || (held.any fun q => q.arrive = p.arrive && q.len = p.len)
    || (p.first && held.any fun q => q.first && q.shape ≠ p.shape)

/-- A stream refused at a router (R236): its senders answered, what is held of it dropped, and the rest of it when it comes. -/
def State.refuseStream (s : State) (c m : Nat) (w : W32) (p : Packet) : State :=
  (s.answerSenders p.senders c 1).modNet fun n =>
    { n with packets := n.packets.filter fun q => !(q.place == .router c && q.plan == some (m, w) && q.senders == p.senders),
             refused := if p.final then n.refused else n.refused ++ [(c, p.senders)] }

/-- A packet at a router it entered by a port: the plan that it meets is kept with it; refused where it breaks that plan. -/
def State.atRouter (s : State) (p : Packet) (c arrive : Nat) : State :=
  let p := { p with place := .router c, arrive := arrive, phys := s.physOf c }
  let put (s : State) (p : Packet) : State := s.modNet fun n => { n with packets := n.packets ++ [p] }
  if p.typ = 0 ∧ s.net.refused.contains (c, p.senders) ∧ !p.first then
    if p.final then s.modNet fun n => { n with refused := n.refused.erase (c, p.senders) } else s
  else match s.planFor c p with
    | some m =>
      let w : W32 := (s.reg (cA c NI_MERGE + 4 * m)).setWidth 32
      if s.planViolates c m w p then s.refuseStream c m w p else put s { p with plan := some (m, w) }
    | none => put s { p with plan := none }

/-! ### Hops -/

/-- Whether a packet for a vault's near-bank input finds it held by one ahead (R351, R376). -/
def State.inputHeld (s : State) (c : Nat) : Bool :=
  s.net.packets.any fun q => (q.held = 1 || q.held = 2) && q.place == .delivered c

/-- A packet in the router of the core it is for: delivered where its epoch matches or this router serves DEST, else
absorbed (R238); a near-bank packet goes to its vault's input (R295), over a haul that is up (R250). -/
def State.deliver (s : State) (p : Packet) (c : Nat) : State :=
  if s.absorbing c && !s.drains p (c / 64) then s.turnBack p c 2
  else if p.depoch ≠ s.nodeEpoch c (c / 64) ∧ p.phys ≠ s.physOf c then s.turnBack p c 2
  else if p.typ = 7 then
    if (s.vault c).haulDown then s.turnBack p c 5
    else (s.haulTurn c true).modVault c fun v => { v with input := v.input ++ [nbArrived p.data p.addr.toNat p.src p.tag] }
  else s.modNet fun n => { n with packets := n.packets ++ [{ p with place := .delivered c }] }

/-- Whether the base die of the destination's stack takes a packet when it enters there: bound for another module, for the
stack's slow-tier channel (R175, R227) or for its update unit (R356). -/
def Packet.baseTaken (p : Packet) : Bool :=
  p.red = 3 || p.typ = 8 || p.port.isSome && p.response || ((p.typ = 1 || p.typ = 2) && match classify p.addr.toNat with
    | .slow _ => true
    | _ => false)

/-- A packet that the base die of stack t has, from the router of core c. -/
def State.atBase (s : State) (p : Packet) (c t : Nat) : State :=
  let bilo := p.red = 3 || p.response
  if !bilo ∧ s.fenced p t then s.turnBack p c 2
  else if p.typ = 8 then s.modStack t fun k => { k with updIn := k.updIn ++ [⟨p.data, p.src, p.tag, 0, false⟩] }
  else s.modNet fun n => { n with packets := n.packets ++ [{ p with place := if bilo then .baseDie t else .delivered (t * 64) }] }

/-- Repeats of flits on the links of a hop, each counted at the router that receives there (R232): NI_RETRIES, where it serves
a core (log entry 113). -/
def State.countRepeats (s : State) (links : List (Nat × Nat × Nat)) (repeats : List Nat) : State :=
  (links.zip repeats).foldl (fun s x =>
    match linkEnd x.1.1 x.1.2.1 x.1.2.2 with
    | some (u, phys, _) => match s.servedBy (u * 128 + phys / 9 * 16 + phys % 9) with
      | some c => s.count (cA c NI_RETRIES) x.2
      | none => s
    | none => s) s

/-- One hop on from a router (R229, R232, R233): across a fence absorbed, over a link that is down and has no detour lost. -/
def State.hopFrom (s : State) (p : Packet) (c : Nat) (repeats : List Nat) : State :=
  let t := p.dest / 64
  if p.baseTaken ∧ c / 64 = t then s.atBase p c t
  else if c = p.dest then s.deliver p c
  else
    let got := nextHop c p.dest
    let h := got.1
    let down := s.downOn c h
    if h / 64 ≠ c / 64 ∧ s.fenced p (h / 64) then s.turnBack p c 2
    else if down.any fun l => !s.detours l then s.turnBack p c 5
    else (s.countRepeats (s.linksTaken c h) repeats).atRouter { p with detour := p.detour || !down.isEmpty } h got.2

/-- The Bilo header of a request carried to a port (R227, R367); a forwarder's RESULT write names its barrow and segment. -/
def State.biloRequest (s : State) (p : Packet) : BiloPacket :=
  { BiloPacket.blank p.typ 0 (p.channel.toNat * 64 + p.count - 1) s.ownId with
    srcCore := BitVec.ofNat 10 p.src, tag := p.tag, addr := p.addr, gen := p.gen, contrib := BitVec.ofNat 6 p.contrib,
    fmt := p.fmt, data := p.data, poison := p.poison, len := p.len, pieces := p.pieces, unit := p.unit, final := p.final,
    barrow := BitVec.ofNat 12 (p.port.elim 0 (·.2.1)), segment := BitVec.ofNat 14 (p.port.elim 0 (·.2.2.1)) }

/-- The response of a request that another module made (R187, R367). -/
def State.biloResponse (s : State) (p : Packet) (dev core : Nat) (tag : W16) : BiloPacket :=
  { BiloPacket.blank p.typ 1 dev s.ownId with
    srcCore := BitVec.ofNat 10 core, tag := tag, addr := p.addr, status := p.status, data := p.data, poison := p.poison,
    len := p.len }

/-- A packet leaves a base die for its Bilo port (R227, R370, R371). -/
def State.leaveBase (s : State) (p : Packet) (t : Nat) : State :=
  match p.response, p.port with
  | true, some (q, dev, core, tag) =>
    -- an answer to the stack's own forwarder has arrived
    if 8 ≤ q then s.modNet fun n => { n with packets := n.packets ++ [{ p with place := .delivered (t * 64) }] }
    else match s.biloPort dev p.src with
    | some q => s.biloSend q (s.biloResponse p dev core tag)
    | none => s.addSat (pA BILO_NO_DEVICE) 31 0 1
  | _, _ =>
    match stackPort t with
    | some q => if s.portUp q then s.biloSend q (s.biloRequest p) else s.turnBack p (t * 64) 5
    | none => s.turnBack p (t * 64) 5

/-- The output of router c that a packet leaves by: the port of its next hop, as ARRIVE numbers the ports, 0 to the router's
own core and base die. -/
def Packet.output (p : Packet) (c : Nat) : Nat :=
  if c = p.dest ∨ (p.baseTaken ∧ c / 64 = p.dest / 64) then 0 else [0, 3, 4, 1, 2].getD (nextHop c p.dest).2 0

/-- Whether the place that a packet in router c goes on to has room: the buffer of the next link, or the vault's input. -/
def State.roomAhead (s : State) (p : Packet) (c : Nat) : Bool :=
  if p.output c = 0 then !(p.typ == 7 && c == p.dest && s.inputHeld c)
  else s.linkRoom p (nextHop c p.dest).1 (nextHop c p.dest).2

/-- The key of a router output's rotation, of one class. -/
def turnKey (p : Packet) (c : Nat) : Nat := c * 16 + (if p.response then 8 else 0) + p.output c

/-- Whether it is a packet's turn at its router output (R230): of the inputs with a packet that could leave by it, the first in
rotation after the input served last. DESIGN CHOICE (log entry 111): after reset the rotation begins with input 0, each class has its
own, and streams that a merge plan made are an input beside the five ports. -/
def State.itsTurn (s : State) (p : Packet) (c : Nat) : Bool :=
  let last := smGet 0 s.net.turns (turnKey p c)
  let waiting := ((List.range s.net.packets.length).filterMap fun i =>
    match s.net.packets[i]? with
    | some q => if q.place == .router c && q.plan.isNone && turnKey q c == turnKey p c && s.packetFirst i && s.roomAhead q c then
        some q.arrive else none
    | none => none)
  -- inputs 0 to 5 in the order that begins after the last
  (((List.range 6).map fun k => (last + k) % 6).find? waiting.contains) == some p.arrive

/-- One hop of packet i. A packet held for a merge plan or already delivered does not move, nor one that another goes before
(R228, R230), that finds no room ahead, or that waits for a receive (R179). -/
def State.hop (s : State) (i : Nat) (repeats : List Nat) : State :=
  match s.net.packets[i]? with
  | none => s
  | some p =>
    if !s.packetFirst i then s
    else match p.place with
      | .delivered _ => s
      | .injected =>
        if !s.linkRoom p p.src 0 then s
        else
          let s := s.dropPacket i
          let want := s.nodeEpoch p.src (p.src / 64)
          if p.checked ∨ p.sepoch = want ∨ s.physOf p.src = p.phys then s.atRouter p p.src 0
          else s.quarantine p.phys p.phys false p.sepoch.toNat want.toNat
      | .router c =>
        if p.plan.isSome || !s.roomAhead p c || !s.itsTurn p c then s
        else
          let s := s.modNet fun n => { n with turns := smSet 0 n.turns (turnKey p c) (p.arrive + 1) }
          (s.dropPacket i).hopFrom p c repeats
      | .baseDie t => (s.dropPacket i).leaveBase p t

/-- The bytes of a stream's packets in order, with the poison of each 64. -/
def streamBytes (ps : List Packet) : List Byte × List Bool :=
  (ps.flatMap (·.data), ps.flatMap fun p => (p.poison ++ List.replicate ((p.data.length + 63) / 64) false).take ((p.data.length + 63) / 64))

/-- Whether packets are a whole stream: each begins where the one before ends, and the last is marked. -/
def streamIsWhole (ps : List Packet) : Bool :=
  (ps.foldl (fun (acc : Nat × Bool) p => (acc.1 + p.data.length, acc.2 && p.len == acc.1)) (0, true)).2 &&
    match ps.getLast? with
    | some p => p.final
    | none => false

/-- The streams that a router holds for a plan that stood as w, by its inputs in port order. -/
def State.planStreams (s : State) (c m : Nat) (w : W32) : List (List Packet) :=
  ((List.range 5).filter (planInput w)).map fun q => (s.planHeld c m w).filter fun p => p.arrive = q

/-- A plan router combines its inputs (R235): once every input's stream is there whole, the fold in port order of the bytes with
the same ADDR leaves as one stream whose COUNT is the sum; until then it waits, which the router's clock counts (log entry 107).
Packets that met the plan as a write had left it make a combination of their own (R244). -/
def State.mergePlan (s : State) (c m : Nat) : State :=
  let values := (s.net.packets.filterMap fun p => if p.place == .router c then p.plan else none).filter (·.1 = m) |>.map (·.2)
  match values.find? fun w => (s.planStreams c m w).all streamIsWhole with
  | none => s
  | some w =>
    let streams := s.planStreams c m w
    match streams.flatten.head? with
    | none => s
    | some head =>
      let out := match streams.map streamBytes with
        | [] => ([], [])
        | x :: xs => xs.foldl (combine (planRed w) (head.shape % 65536)) x
      let heads : List Packet := streams.filterMap List.head?
      let p := { head with
        count := (heads.map Packet.count).foldl (· + ·) 0, senders := heads.flatMap Packet.senders, place := .router c,
        arrive := 5, plan := none, phys := s.physOf c }
      let packets := (List.range ((out.1.length + 4095) / 4096)).map fun k =>
        let d := (out.1.drop (4096 * k)).take 4096
        { p with data := d, poison := (out.2.drop (64 * k)).take ((d.length + 63) / 64), len := 4096 * k, first := k == 0,
                 final := decide (out.1.length ≤ 4096 * k + 4096),
                 addr := BitVec.ofNat 46 (if k = 0 then 2 ^ 45 + head.shape else 4096 * k) }
      s.modNet fun n => { n with packets := (n.packets.filter fun q => !(q.place == .router c && q.plan == some (m, w))) ++ packets }

/-! ### Links (R232, R233, R244) -/

/-- NI_LINKS of a logical core (R244): the ports of its router that are down. -/
def State.linksDown (s : State) (c : Nat) : Nat :=
  let got := s.place c
  let row := got.1
  let col := got.2
  (s.net.down.filter fun l => l.stack = c / 64 && l.phys = row * 9 + col).foldl (fun n l => Nat.lor n (2 ^ l.port)) 0

/-- A link that gives up (R232), at both its ends: 8 repeats counted at the receiving router. -/
def State.linkDown (s : State) (t phys port : Nat) : State :=
  match linkEnd t phys port with
  | none => s
  | some (t', phys', port') =>
    if 72 ≤ phys ∨ s.net.down.any (fun l => l.stack = t && l.phys = phys && l.port = port) then s
    else
      let s := s.modNet fun n => { n with down := n.down ++ [⟨t, phys, port, false⟩, ⟨t', phys', port', false⟩] }
      match s.servedBy (t' * 128 + phys' / 9 * 16 + phys' % 9) with
      | some c => s.count (cA c NI_RETRIES) 8
      | none => s

/-- A detour installed, with its event: the router in CORE_ID.PHYS layout and the port above it (log entry 11). -/
def State.installDetour (s : State) (t phys port : Nat) : State :=
  if s.detourOk t phys port ∧ s.net.down.any (fun l => l.stack = t && l.phys = phys && l.port = port && !l.detoured) then
    let far := (linkEnd t phys port).getD (t, phys, port)
    let hit (l : DownLink) : Bool := (l.stack = t && l.phys = phys && l.port = port) ||
      (l.stack = far.1 && l.phys = far.2.1 && l.port = far.2.2)
    (s.modNet fun n => { n with down := n.down.map fun l => if hit l then { l with detoured := true } else l }).evStack t
      0x30 0x02 (t * 128 + phys / 9 * 16 + phys % 9 + port * 2 ^ 11)
  else s

/-! ### Map changes (R240, R245) -/

/-- The column group disabled in an engine of the core that serves a logical one (R71), as a mask. -/
def State.groupOff (s : State) (c : Nat) (g : Bool) : Nat :=
  match s.warden.defects.find? fun e => defectKind e = 4 && defectPair e = s.physVault c && e.getLsbD 48 == g with
  | some e => 2 ^ bits e 47 45
  | none => 0

/-- The presented width and disabled group of an engine (R71, R75). -/
def State.showEngine (s : State) (c : Nat) (g : Bool) : State :=
  let off := s.groupOff c g
  (s.setFld (eA c g ENG0_STATUS) 23 16 off).setFld (eA c g ENG0_STATUS) 15 8 (if off = 0 then 0x40 else 0x38)

/-- The stored registers of a logical core that show the physical core serving it, and its stack's epoch. -/
def State.showNode (s : State) (c : Nat) : State :=
  let s := s.setFld (cA c CORE_ID) 26 16 (s.physOf c)
  let s := s.setFld (cA c CORE_ID) 9 0 c
  let s := s.setFld (cA c NI_STATUS) 15 8 (s.nodeEpoch c (c / 64)).toNat
  let s := s.setFld (vA c VC_STATUS) 26 16 (s.physOf c)
  ((s.showEngine c false).showEngine c true).showSpares c

/-- The same of every logical core of a stack. -/
def State.showMap (s : State) (t : Nat) : State := (List.range 64).foldl (fun s j => s.showNode (t * 64 + j)) s

/-- The logical core of a row whose pair a new SUB changes, with the physical index of the pair that served it and of the one
that will; 15 stands for no column. -/
def movedPair (t r old new_ : Nat) : Option (Nat × Nat × Nat) :=
  if old = new_ then none
  else
    let j := min old new_
    let at_ (sub : Nat) : Nat := t * 72 + r * 9 + if sub = j then 8 else j
    some (t * 64 + r * 8 + j, at_ old, at_ new_)

/-- The registers that belong to the pair serving a core: its vault's windows, and what a core reset keeps of its engines. First
address, bytes, place among the pair's. -/
def pairBlocks (c : Nat) : List (Nat × Nat × Nat) :=
  [(vA c VC_STATUS, 0x400, VC_STATUS), (vA c NB_MODE, 0x400, NB_MODE)] ++ [false, true].flatMap fun g =>
    [ENG0_RES_COUNT, ENG0_SUSPECT].map fun o => (eA c g o, 4, eA 0 g o - coreBase 0)

/-- A block of registers exchanged with that of a pair out of service. -/
def State.swapBlock (s : State) (frm to_ : Nat) (b : Nat × Nat × Nat) : State :=
  let spare (x : Nat) : Nat := x * 0x100000 + b.2.2
  { s with
    regs := smPut (smClear s.regs b.1 (b.1 + b.2.1)) (smTake s.spareRegs (spare to_) b.2.1 b.1)
    spareRegs := smPut (smClear s.spareRegs (spare to_) (spare to_ + b.2.1)) (smTake s.regs b.1 b.2.1 (spare frm)) }

/-- The pair of a logical core exchanged (R250, R269): its vault controller and registers go out of service and those of the other
come in, every row of which is invalid (R240); its benches are the same, so their refresh intervals stay (R253). DESIGN CHOICE
(log entry 115): what waits in the controller that goes is lost, and
its clear or repair ends there. -/
def State.swapPair (s : State) (c frm to_ : Nat) : State :=
  let v := s.vault c
  let s := [(VC_CLEAR, 31), (VC_CLEAR, 30), (VC_REPAIR, 31), (VC_REPAIR, 30), (VC_STATUS, 1)].foldl
    (fun s r => s.setBit (vA c r.1) r.2 false) s
  let rates := s.reg (vA c VC_BENCH_RATE)
  let s := ((pairBlocks c).foldl (fun s b => s.swapBlock frm to_ b) s).setReg (vA c VC_BENCH_RATE) rates
  let s := (s.setVault c { smGet Vault.reset s.spareVaults to_ with scrub := v.scrub }).clearRange c (vaultBase c) (vaultBase (c + 1))
  let out := { v with writeBacks := [], clearing := none, repair := none, input := [], cmds := [], unchecked := [], waits := [] }
  { s with spareVaults := smSet Vault.reset (smSet Vault.reset s.spareVaults to_ Vault.reset) frm out }

/-- Whether a new SUB of a row makes a retired pair serve: its vault stays unassigned until a full start has tested it (R469). -/
def State.mapsRetired (s : State) (t r old new : Nat) : Bool :=
  match movedPair t r old new with
  | some (_, _, to_) => s.warden.retired.contains to_
  | none => false

/-- A map change starts: checks, then step 3 of R240 and the map updates of step 4. One that would make a retired pair serve is refused
(log entry 64). -/
def State.mapStart (s : State) (t r new : Nat) : State :=
  let old := s.fld (pA MAP_SUB + 4 * t) (4 * r + 3) (4 * r)
  let st := pA MAP_STATUS
  if (8 ≤ new ∧ new < 15) ∨ (old ≠ 15 ∧ new ≠ 15 ∧ old ≠ new) ∨ s.mapsRetired t r old new then s.setBit st 1 true
  else if s.fld (pA MAP_EPOCH + 4 * t) 7 0 = 255 then s.setBit st 2 true
  else
    let e := s.fld (pA MAP_EPOCH + 4 * t) 7 0 + 1
    let s := (s.setFld (pA MAP_SUB + 4 * t) (4 * r + 3) (4 * r) new).setFld (pA MAP_EPOCH + 4 * t) 7 0 e
    let s := (s.setBit (pA MAP_COMMAND) 31 true).setBit st 0 true
    let s := s.modNet fun n => { n with change := some (t, r, old, new), told := [] }
    (List.range 16).foldl (fun s u => s.crier
      { typ := 5, kind := 3, dest := u * 64, src := 0x3FF, arg := BitVec.ofNat 6 (r * 8 + new % 8),
        payload := BitVec.ofNat 32 (new / 8 * 256 + e), event := none }) s

/-- GO of MAP_COMMAND: at once, but during a stack or partition reset the change waits, GO and BUSY set (R471). -/
def State.mapGo (s : State) : State :=
  let a := pA MAP_COMMAND
  let t := s.fld a 14 11
  let r := s.fld a 10 8
  let new := s.fld a 7 4
  match s.warden.reset with
  | some (_ + 1, _) =>
    ((s.setBit a 31 true).setBit (pA MAP_STATUS) 0 true).modNet fun n => { n with asked := some (t, r, new) }
  | _ => s.mapStart t r new

/-- A map change that waited starts at the reset's end (R471). -/
def State.mapResume (s : State) : State :=
  match s.net.asked with
  | some (t, r, new) =>
    (((s.setBit (pA MAP_STATUS) 0 false).setBit (pA MAP_COMMAND) 31 false).modNet fun n => { n with asked := none }).mapStart t r new
  | none => s

/-- The moved core's router and network interface have the update of a change in its own stack: the pair that serves it changes, the
port of its old router closed and of its new one open (R240). -/
def State.movePair (s : State) (t r old new : Nat) (node : Nat) : State :=
  match movedPair t r old new with
  | some (c, frm, to_) =>
    if c = node then (s.swapPair c frm to_).setMapCopy t t ((s.reg (pA MAP_SUB + 4 * t)).setWidth 32) (s.epochAt t t) else s
  | none => s

/-- A map update message applied and acknowledged by a router with its network interface (R240). DESIGN CHOICE (log entry 12): those of
a stack come in the order of the logical cores they serve, and the message is gone with the last. -/
def State.mapUpdate (s : State) (i : Nat) : State :=
  match s.net.msgs[i]? with
  | none => s
  | some m =>
    if m.typ ≠ 5 ∨ !s.crierFirst i then s
    else match s.net.change with
      | none => s.dropMsg i
      | some (t, r, old, new) =>
        let u := m.dest / 64
        let node := u * 64 + (s.net.told.filter fun c => c / 64 = u).length
        let s := s.modNet fun n => { n with told := n.told ++ [node] }
        let s := if u = t then (s.movePair t r old new node).showNode node else s
        if node % 64 < 63 then s
        else
          ((s.dropMsg i).setMapCopy u t ((s.reg (pA MAP_SUB + 4 * t)).setWidth 32)
            ((s.reg (pA MAP_EPOCH + 4 * t)).setWidth 8)).modNet fun n => { n with told := n.told.filter fun c => c / 64 ≠ u }

/-- The pair that a change takes out of service is retired in service, its island gated (R461, R466). -/
def State.retireMoved (s : State) (t r new : Nat) : State :=
  if new = 15 then s
  else
    let x := r * 9 + new
    let s := s.modWarden fun w => { w with retired := w.retired ++ [t * 72 + x], gated := w.gated ++ [t * 72 + x] }
    (s.addDefect (defectWord 3 t x 0)).setBit (pA BRG_PAIRS + 0xC * t + 4 * (x / 32)) (x % 32) true

/-- The change ends once every update is acknowledged: BUSY clears, event and source 36. -/
def State.mapEnd (s : State) : State :=
  match s.net.change with
  | none => s
  | some (t, r, old, new) =>
    if s.net.msgs.any (·.typ = 5) then s
    else
      let s := (s.setBit (pA MAP_STATUS) 0 false).setBit (pA MAP_COMMAND) 31 false
      let s := (s.modNet fun n => { n with change := none }).retireMoved t r new
      (s.evWarden t 0x30 0x01 (t + r * 2 ^ 4 + old * 2 ^ 8 + new * 2 ^ 12 + (s.epoch t).toNat * 2 ^ 16)).raisePkg 36

end Sys2Proof.Machine
end

