-- ==== Sys2Proof/Machine/Contrib.lean ====
section
/-! DEFINITION. Contributions at a vault controller (R184, R185): open tensors and their slots (R342, R351), open barrows
(R374 to R376), where a contribution lands, and its additions and merges. -/

namespace Sys2Proof.Machine

/-! ### Tensors -/

namespace Tensor

def word (t : Tensor) (i : Nat) : W64 := t.words.getD i 0
def rule (t : Tensor) : Nat := bits (t.word 0) 62 60
def ruleSet (t : Tensor) : Nat := bits (t.word 0) 59 57
def wfmt (t : Tensor) : Nat := bits (t.word 0) 56 53
def work (t : Tensor) : Nat := bits (t.word 0) 45 0
def rows (t : Tensor) : Nat := bits (t.word 1) 63 48 + 1
def cols (t : Tensor) : Nat := bits (t.word 1) 47 32 + 1
def master (t : Tensor) : Nat := bits (t.word 2) 45 0
def moment (t : Tensor) : Nat := bits (t.word 3) 45 0
def precond (t : Tensor) : Nat := bits (t.word 4) 45 0
def grad (t : Tensor) : Nat := bits (t.word 5) 45 0
/-- Elements of the tensor. -/
def size (t : Tensor) : Nat := t.rows * t.cols
/-- Bytes of a slot (R341). -/
def slotSize (t : Tensor) : Nat := (4 * t.size + 4095) / 4096 * 4096
def slotAt (t : Tensor) (place : Nat) : Nat := t.grad + place * t.slotSize
/-- The slot in use at a place. -/
def slotIn (t : Tensor) (place : Nat) : Option Slot := t.slots.find? fun x => x.place == place
def modSlot (t : Tensor) (place : Nat) (f : Slot → Slot) : Tensor :=
  { t with slots := t.slots.map fun x => if x.place = place then f x else x }
/-- The newest slot's step; where none is in use, the last step closed. -/
def newest (t : Tensor) : W32 := match t.slots.getLast? with
  | some x => x.stepNo
  | none => t.closed
/-- The lowest place free under a delay D. -/
def freePlace (t : Tensor) (d : Nat) : Option Nat :=
  (List.range (d + 1)).find? fun k => t.slots.all fun x => x.place ≠ k
/-- A free place taken for a step: empty. -/
def take (t : Tensor) (place : Nat) (n : W32) : Tensor :=
  { t with slots := t.slots ++
      [{ place := place, stepNo := n, folds := 1, closed := false, started := false, landed := false, poisoned := false }] }

end Tensor

/-- D of an update unit (R362). -/
def State.updDelay (s : State) (t : Nat) : Nat := min (s.fld (sA t UPD_CONFIG) 2 0) 4

def State.tensor (s : State) (t index : Nat) : Option Tensor := (s.stack t).tensors.find? fun x => x.index == index

def State.modTensor (s : State) (t index : Nat) (f : Tensor → Tensor) : State :=
  s.modStack t fun k => { k with tensors := k.tensors.map fun x => if x.index = index then f x else x }

/-- The open tensor whose marked segments, those of slot 0, hold an address. -/
def State.tensorAt (s : State) (a : Nat) : Option Tensor :=
  (s.stack (a / 2 ^ 37)).tensors.find? fun x => decide (x.grad ≤ a) && decide (a < x.grad + x.slotSize)

/-- What R351 does with a contribution: added to the slot at a place, a free place or a fold taken for a step, stalled, or
stale. -/
inductive SlotCase where
  | add (place : Nat)
  | take (place : Nat) (n : W32)
  | fold (place : Nat) (n : W32)
  | stall (n : W32)
  | stale
  deriving DecidableEq, Repr

/-- The least step above `base` that GEN g names. -/
def stepAbove (base : W32) (g : Byte) : W32 :=
  let d := g - base.setWidth 8
  base + if d = 0 then 256 else d.setWidth 32

/-- The first row of R351 that matches. -/
def Tensor.slotCase (t : Tensor) (d : Nat) (g : Byte) : SlotCase :=
  let next := stepAbove t.newest g
  match t.slots.find? fun x => !x.closed && x.stepNo.setWidth 8 == g with
  | some x => .add x.place
  | none =>
    match t.freePlace d with
    | some k =>
      if g = (t.closed + 1).setWidth 8 ∧ (t.slots.all fun x => x.stepNo ≠ t.closed + 1) then .take k (t.closed + 1)
      else if t.slots ≠ [] ∧ g = (t.newest + 1).setWidth 8 then .take k (t.newest + 1)
      else if next - t.applied ≤ BitVec.ofNat 32 (d + 2) then .stall next
      else .stale
    | none =>
      let last := t.slots.getLast?
      let folds := match last with
        | some x => 0 < d && x.closed && x.folds = 1 && !x.started && g == (x.stepNo + 1).setWidth 8
        | none => false
      if folds then .fold ((last.map (·.place)).getD 0) (t.newest + 1)
      else if next - t.applied ≤ BitVec.ofNat 32 (d + 2) then .stall next
      else .stale

/-- The contributor bitmaps of a slot's segments cleared, and with `empty` what they hold forgotten. -/
def State.clearSlot (s : State) (t : Tensor) (place : Nat) (empty : Bool) : State :=
  let lo := t.slotAt place / 4096
  let hi := lo + t.slotSize / 4096
  if empty then { s with segs := smClear s.segs lo hi }
  else { s with segs := s.segs.map fun p => if lo ≤ p.1 ∧ p.1 < hi then (p.1, { p.2 with bitmap := 0 }) else p }

/-! ### Barrows -/

namespace Barrow

def word (b : Barrow) (i : Nat) : W64 := b.words.getD i 0
/-- Bytes of one half. -/
def size (b : Barrow) : Nat := (bits (b.word 0) 59 54 + 1) * 2 ^ 20
def segments (b : Barrow) : Nat := b.size / 4096
def wire (b : Barrow) : Nat := bits (b.word 0) 62 61
def node (b : Barrow) : Nat := bits (b.word 0) 45 0
def local_ (b : Barrow) : Nat := bits (b.word 1) 45 0
def parent (b : Barrow) : Nat := bits (b.word 1) 59 46
def expect (b : Barrow) : W64 := b.word 2
def lexpect (b : Barrow) : W64 := b.word 3
def scales (b : Barrow) : Nat := bits (b.word 4) 45 0
def result (b : Barrow) : Nat := bits (b.word 5) 45 0
def rdev (b : Barrow) : Nat := bits (b.word 5) 59 46
def err (b : Barrow) : Nat := bits (b.word 6) 45 0
def sbase (b : Barrow) : Nat := bits (b.word 7) 63 56
def rcontrib (b : Barrow) : Nat := bits (b.word 7) 55 50
def up (b : Barrow) : Nat := bits (b.word 7) 49 44
def self (b : Barrow) : Nat := bits (b.word 7) 43 38
def root (b : Barrow) : Bool := (b.word 7).getLsbD 37
def dtoken (b : Barrow) : Nat := bits (b.word 7) 13 10
def dcore (b : Barrow) : Nat := bits (b.word 7) 9 0
/-- CHILDi: its device where VALID. -/
def child (b : Barrow) (i : Nat) : Option Nat :=
  let v := bits (b.word (8 + i / 4)) (16 * (i % 4) + 15) (16 * (i % 4))
  if v < 2 ^ 15 then none else some (v % 2 ^ 14)
def children (b : Barrow) : List Nat := (List.range 48).filterMap b.child
/-- The stack whose forwarder serves the barrow. -/
def stack (b : Barrow) : Nat := b.local_ / 2 ^ 37
/-- A segment of LOCAL or NODE in the half of parity g. -/
def at_ (b : Barrow) (area : Nat) (g : Byte) (n : Nat) : Nat := area + (if g.getLsbD 0 then b.size else 0) + 4096 * n
/-- The area, LOCAL or NODE, that holds an address. -/
def areaOf (b : Barrow) (a : Nat) : Option Nat :=
  [b.local_, b.node].find? fun x => decide (x ≤ a) && decide (a < x + 2 * b.size)

end Barrow

def State.barrow (s : State) (id : Nat) : Option Barrow := s.bilo.barrows.find? fun b => b.id == id

def State.modBarrow (s : State) (id : Nat) (f : Barrow → Barrow) : State :=
  s.modBilo fun b => { b with barrows := b.barrows.map fun x => if x.id = id then f x else x }

/-- The open barrow whose segments hold an address. -/
def State.barrowAt (s : State) (a : Nat) : Option Barrow := s.bilo.barrows.find? fun b => (b.areaOf a).isSome

/-- A contribution dropped as a duplicate (R380). -/
def State.countDup (s : State) : State := s.count (pA BILO_DUP)

/-! ### Where a contribution lands (R185, R351, R376) -/

/-- Accepted at an address, held at the vault controller's input, or answered STALE. -/
inductive Landing where
  | at_ (a : Nat)
  | hold (why : Nat)
  | stale
  deriving DecidableEq, Repr

/-- An event of class 0x61 of a tensor's vault. -/
def State.evFold (s : State) (a code : Nat) : State := s.evVault (vaultOf a) 0x61 code

/-- A contribution with GEN g to a tensor's segment. -/
def State.landSlot (s : State) (t : Nat) (x : Tensor) (a : Nat) (g : Byte) : State × Landing :=
  let to_ (k : Nat) : Landing := .at_ (a + k * x.slotSize)
  match x.slotCase (s.updDelay t) g with
  | .add k => (s, to_ k)
  | .take k n => (((s.clearSlot x k true).modTensor t x.index fun y => y.take k n), to_ k)
  | .fold k n =>
    let s := (s.clearSlot x k false).modTensor t x.index fun y =>
      y.modSlot k fun z => { z with stepNo := n, folds := 2, closed := false }
    ((s.addSat (sA t UPD_FOLDS) 31 0 1).evFold a 1, to_ k)
  | .stall n =>
    let s := if x.stalled.contains n then s
      else (s.modTensor t x.index fun y => { y with stalled := y.stalled ++ [n] }).evFold a 2
    (s, .hold 2)
  | .stale => (s, .stale)

/-- Where a contribution to an address lands; a plain segment takes a newer generation at once. -/
def State.land (s : State) (a : Nat) (g : Byte) : State × Landing :=
  match s.tensorAt a with
  | some x => s.landSlot (a / 2 ^ 37) x a g
  | none =>
    match s.barrowAt a with
    | some b =>
      let d := (g - b.gen).toNat
      if d ≤ 1 then
        let area := (b.areaOf a).getD 0
        (s, .at_ (b.at_ area g 0 + (a - area) % b.size))
      else (s, if d ≤ 127 then .hold 1 else .stale)
    | none =>
      let n := a / 4096
      let q := s.seg n
      match q.gen with
      | none => (s.setSeg n { q with gen := some g, bitmap := 0 }, .at_ a)
      | some h =>
        let d := (g - h).toNat
        if d = 0 then (s, .at_ a)
        else if d ≤ 127 then (s.setSeg n { q with gen := some g, bitmap := 0 }, .at_ a)
        else (s, .stale)

/-! ### The addition and the merge (R184, R185, R318, R319) -/

/-- One element added, and whether it saturated: FP32, BF16 widened, or INT8 as 32-bit two's complement. -/
def addElem (fmt : Nat) (old : W32) (x : Nat) : W32 × Bool :=
  if fmt = 5 then
    let v := old.toInt + (BitVec.ofNat 8 x).toInt
    if 2147483647 < v then (0x7FFFFFFF, true)
    else if v < -2147483648 then (0x80000000, true)
    else (BitVec.ofInt 32 v, false)
  else (fadd old (BitVec.ofNat 32 (if fmt = 6 then x * 65536 else x)), false)

def contribBits (fmt : Nat) : Nat := if fmt = 5 then 8 else if fmt = 6 then 16 else 32

/-- A piece's elements added to the good words at its address. The state, the poison met, and the first address that saturated. -/
def State.addPiece (s : State) (fmt : Nat) (a n : Nat) (src : List PElem) : State × Bool × Option Nat :=
  let got := s.readFast a n
  let s := got.1
  let old := got.2
  let olds := elemsOf old 32 (n / 4)
  let sums := List.zipWith (fun (o x : PElem) =>
    let r := addElem fmt (BitVec.ofNat 32 o.1) x.1
    ((r.1, o.2 || x.2), r.2)) olds src
  let sat := sums.findIdx? fun r => r.2 && !r.1.2
  let got := s.writeFast a (packPoison 32 (sums.map fun r => (r.1.1.toNat, r.1.2)))
  let s := got.1
  let met := got.2
  (s, met || sums.any (·.1.2), sat.map fun i => (a + 4 * i) / 64 * 64)

/-- The pieces of a contribution, each moved by the same distance, and the elements of its data. -/
def State.addPieces (s : State) (fmt : Nat) : List (Nat × Nat) → List PElem → State × Bool × Option Nat
  | [], _ => (s, false, none)
  | (a, n) :: ps, src =>
    let got := s.addPiece fmt a n (src.take (n / 4))
    let s := got.1
    let bad := got.2.1
    let sat := got.2.2
    let got := State.addPieces s fmt ps (src.drop (n / 4))
    let s := got.1
    let bad' := got.2.1
    let sat' := got.2.2
    (s, bad || bad', sat.orElse fun _ => sat')

/-- A triple row merged into the row stored (R318): poison in either poisons the whole row (R319). -/
def State.mergeRow (s : State) (a n : Nat) (ps : List PByte) : State × Bool :=
  let got := s.readFast a n
  let s := got.1
  let old := got.2
  let bad := anyPoison old || anyPoison ps
  let z := bytes32 (tripleMerge (words32 (dataOf old)) (words32 (dataOf ps)))
  let got := s.writeFast a (z.map (·, bad))
  let s := got.1
  let met := got.2
  (s, met || bad)

/-- The triple rows of a contribution, each merged into its place. -/
def State.mergeRows (s : State) : List (Nat × Nat) → List PByte → State × Bool
  | [], _ => (s, false)
  | (a, n) :: ps, src =>
    let got := s.mergeRow a n (src.take n)
    let s := got.1
    let bad := got.2
    let got := State.mergeRows s ps (src.drop n)
    let s := got.1
    let bad' := got.2
    (s, bad || bad')

/-- A slot's segment replaced by its first contribution (R351): what that brings at its places, +0 elsewhere; true where it brings
poison. -/
def State.replaceSegment (s : State) (n : Nat) (parts : List (Nat × List PByte)) : State × Bool :=
  ((s.writeFastRows ((4096 * n, List.replicate 4096 (0, false)) :: parts)).1, parts.any fun p => anyPoison p.2)

/-- A contribution's elements as the FP32 or INT32 words that they are added as. -/
def widenPart (fmt : Nat) (ps : List PByte) : List PByte :=
  let w := contribBits fmt
  packPoison 32 ((elemsOf ps w (ps.length * 8 / w)).map fun x => ((addElem fmt 0 x.1).1.toNat, x.2))

/-- A contribution applied at a segment as one unit (R185), its bit set: the status of R187. A bit already set drops it; with `fresh`
it replaces the segment's content. DESIGN CHOICE (log entry 132): one that meets poison and saturates is answered POISON. -/
def State.contribute (s : State) (p : Packet) (a : Nat) (mergeOp fresh : Bool) : State × Nat :=
  let n := a / 4096
  if (s.seg n).bitmap.getLsbD p.contrib then (s.countDup, 0)
  else
    let s := s.setSeg n { s.seg n with bitmap := (s.seg n).bitmap ||| BitVec.ofNat 64 (2 ^ p.contrib), gen := some p.gen }
    let move (x : Nat × Nat) := (x.1 - p.addr.toNat + a, x.2)
    if fresh then
      let got := s.replaceSegment n (splitPieces (p.pieces.map move) (if mergeOp then p.pbytes else widenPart p.fmt p.pbytes))
      (got.1, if got.2 then 3 else 0)
    else if mergeOp then
      let got := s.mergeRows (p.pieces.map move) p.pbytes
      let s := got.1
      let bad := got.2
      (s, if bad then 3 else 0)
    else
      let w := contribBits p.fmt
      let got := s.addPieces p.fmt (p.pieces.map move) (elemsOf p.pbytes w (p.data.length * 8 / w))
      let s := got.1
      let bad := got.2.1
      let sat := got.2.2
      let s := match sat with
        | some x => s.evVault (vaultOf a) 0x50 2 (p.tag.toNat + x * 2 ^ 64)
        | none => s
      (s, if bad then 3 else if sat.isSome then 6 else 0)

end Sys2Proof.Machine
end

