-- ==== Sys2Proof/Machine/RemoteOps.lean ====
section
/-! DEFINITION. Packets acted on where they arrive: sends (R178 to R180, R236), remote writes, reads, accumulates and merges
(R182 to R185, R207, R208, R217, R218), read data, and statuses (R187, R204, R211). -/

namespace Sys2Proof.Machine

/-! ### Sends (R177 to R180, R211, R236) -/

/-- Bytes of a tile of a shape: elements, then scale bytes of a block format. -/
def shapeBytes (shape : Nat) : Nat :=
  let f := shape / 2 ^ 32 % 16
  let n := shape / 2 ^ 16 % 65536 * (shape % 65536)
  n * [4, 6, 6, 8, 8, 8, 16, 32, 32].getD f 32 / 8 + if f ≤ 5 then n / 32 else 0

/-- Whether a stream's tile matches the receive's D and RED (R178). -/
def sendMatches (e : Entry) (shape red : Nat) : Bool :=
  red = e.red && shapeBytes shape = shapeBytes e.d.shapeWord && (red = 0 || shape % 2 ^ 32 = e.d.shapeWord % 2 ^ 32)

def State.modPosted (s : State) (c channel : Nat) (f : Posted → Posted) : State :=
  s.modCore c fun k => { k with posted := k.posted.map fun q => if q.channel = channel then f q else q }

def State.dropPosted (s : State) (c channel : Nat) : State :=
  s.modCore c fun k => { k with posted := k.posted.filter fun q => q.channel ≠ channel }

/-- A receive whose senders have all arrived and one of them did not match: every sender is answered REFUSED and the
operation ends with cause 7. -/
def State.refuseReceive (s : State) (c : Nat) (e : Entry) (q : Posted) : State :=
  ((s.answerSenders (q.streams.flatMap (·.senders)) c 1).dropPosted c q.channel).moveRefuse c e 7 1

/-- A receive that gets its data: D written, every sender answered, the receive done. -/
def State.completeReceive (s : State) (c : Nat) (e : Entry) (q : Posted) (x : Stream) (ups : List Upset) : State :=
  let ps : List PByte := x.data.mapIdx fun i b => (b, x.poison.getD (i / 64) false)
  let s := s.amid ⟨c, true, e.tag, [], spPieces c e.d, none⟩ (collisionsOf ups) fun s => (s.writePieces (spPieces c e.d) ps).1
  ((s.answerSenders x.senders c (if anyPoison ps then 3 else 0)).dropPosted c q.channel).finish c e

/-- A stream that has arrived whole. -/
def State.streamWhole (s : State) (c : Nat) (e : Entry) (q : Posted) (x : Stream) (plan : Bool) (ups : List Upset) : State :=
  let total := ((q.streams.filter (·.whole)).map Stream.count).foldl (· + ·) 0
  let good := sendMatches e x.shape x.red
  if good ∧ !q.refuse ∧ x.count = q.fanin ∧ q.streams.length = 1 then s.completeReceive c e q x ups
  else
    let q := { q with refuse := true }
    -- a sender that does not match is answered at once, and not again
    let s := if good then s else s.answerSenders x.senders c 1
    let q := if good then q else
      { q with streams := q.streams.map fun y => if y.src = x.src && y.tag = x.tag then { y with senders := [] } else y }
    let s := s.modPosted c q.channel fun _ => q
    if plan ∨ q.fanin ≤ total then s.refuseReceive c e q else s

/-- A stream with a packet's bytes, which begin where it ends; its first packet begins it anew. A packet that what goes before it
never reached is dropped with the rest of its stream (R187). -/
def Posted.grow (q : Posted) (p : Packet) : Posted :=
  let same (x : Stream) : Bool := x.src = p.src && x.tag = p.tag
  let fresh : Stream := { src := p.src, tag := p.tag, port := p.arrive, shape := p.shape, red := p.red, count := p.count, data := [],
                          poison := [], senders := p.senders, whole := false }
  let rest := if p.first then q.streams.filter fun x => !same x else q.streams
  let streams := if p.first then rest ++ [fresh] else rest
  let bytes := streamBytes [p]
  { q with streams := streams.map fun x =>
      if same x && x.data.length == p.len then
        { x with data := x.data ++ bytes.1, poison := x.poison ++ bytes.2, whole := p.final }
      else x }

/-- A send's packet at its receiver: without a posted receive on its channel it waits. -/
def State.sendPacket (s : State) (i : Nat) (ups : List Upset) : State :=
  let s := s.upsets ups
  match s.delivered i 0 with
  | none => s
  | some (p, c) =>
    -- between stacks under one reset it drains, and its receive is gone (R476)
    if s.drains p (c / 64) then s.dropPacket i
    else if s.absorbing c then (s.dropPacket i).answerSenders p.senders c 2
    else match (s.core c).posted.find? fun q => q.channel = p.channel.toNat with
      | none => s
      | some q =>
        match s.entry c q.slot with
        | none => s
        | some e =>
          let s := s.dropPacket i
          -- a sender whose bit is set: its data is dropped, and the OK that answers it comes with the receive's end (R204, R211)
          if p.senders.all q.senders.contains then s
          else
            let ended (x : Stream) : Bool := x.src = p.src && x.tag = p.tag && x.whole
            let had : Bool := !p.first && q.streams.any ended
            let q := q.grow p
            let s := s.modPosted c q.channel fun _ => q
            match (if had then none else q.streams.find? ended) with
            | none => s
            | some x =>
              let q := if q.red = 0 then q else { q with senders := q.senders ++ x.senders }
              (s.modPosted c q.channel fun _ => q).streamWhole c e q x (p.arrive = 5) ups

/-- A send's packet that has waited beyond the limit: NI-side for a receive (R179), or in this router for the other inputs
of its plan (R236): source 8. -/
def State.recvWait (s : State) (c channel : Nat) : State :=
  let posted := (s.core c).posted.any (·.channel = channel)
  let waits := s.net.packets.any fun p => p.typ = 0 && p.channel.toNat = channel &&
    (p.place == .delivered c && !posted || p.place == .router c && p.plan.isSome)
  if s.fld (cA c NI_RECV_LIMIT) 31 0 ≠ 0 ∧ waits then
    ((s.setBit (cA c NI_RECV_WAIT) 16 true).setFld (cA c NI_RECV_WAIT) 7 0 channel).raiseCore c 8
  else s

/-! ### Remote operations at their target -/

/-- Whether the target address of n bytes is one the operation accepts (R182): asked of another module's requests. -/
def State.targetOk (s : State) (a n : Nat) (fastOnly : Bool) : Bool :=
  (if fastOnly then inFast a (a + n) else inFast a (a + n) || inSlow a (a + n) || inScratch a (a + n))
    && !s.spanDown a (a + n)

/-- Whether the memory at an address cannot be reached: its vault's haul, or its channel, is down (R250, R268). -/
def State.memoryDown (s : State) (a : Nat) : Bool :=
  match classify a with
  | .fast c => (s.vault c).haulDown
  | .slow t => s.bit (sA t SLOW_STATUS) 3
  | _ => false

/-- The writer a request names in open-write tables (R208): none for a reduction forwarder, whose writes never settle, nor for a core
that writes into its own scratchpad. -/
def Packet.writer (p : Packet) (lo hi : Nat) : Option OpenWrite :=
  match p.port with
  | some (q, dev, core, tag) => if 8 ≤ q ∨ (core = 0x3FF ∧ tag = 0) then none else some ⟨lo, hi, none, some dev, core, tag, none⟩
  | none =>
    let own : Bool := match classify lo with
      | .sp c _ => c == p.src
      | _ => false
    if own then none else some ⟨lo, hi, none, none, p.src, p.tag, none⟩

/-- Whether a request's write finds the open-write table full. -/
def Packet.tableFull (p : Packet) (s : State) (a n : Nat) : Bool :=
  match p.writer a (a + n) with
  | some w => s.openFull a w
  | none => false

/-- The places of memory a request is about: its pieces, or the run at its address. -/
def Packet.spans (p : Packet) : List (Nat × Nat) :=
  if p.pieces.isEmpty then [(p.addr.toNat, if p.typ = 2 then p.len else p.data.length)] else p.pieces

/-- Whether a byte of a range was last written by an operation that has not settled (R198, R218): one that lies in an open-write
entry, or in an output of an entry of the core that owns the scratchpad. DESIGN CHOICE (log entry 34): a read by that core itself
waits for none of the entries issued after its own that its read hold keeps back. -/
def State.uncommitted (s : State) (lo hi : Nat) (reader : Option (Nat × W16) := none) : Bool :=
  (s.opensAt lo).any (·.covers lo hi) || match classify lo with
    | .sp c _ =>
      let own := reader.bind fun r => if r.1 = c then s.entryOf c r.2 else none
      let es : List Entry := match own with
        | some e => let before := s.earlier c e
                    before ++ ((s.core c).tally.drop (before.length + 1)).filter fun x => x.heldOuts.isEmpty
        | none => (s.core c).tally
      es.any fun e => !(e.state == .failed) && overlapAny e.outs [.mem none lo hi]
    | _ => false

/-- Whether a read waits for committed data (R183, R218); a haul's read of another stack's channel is its core's own. -/
def State.readWaits (s : State) (p : Packet) : Bool :=
  let haul := p.port.isNone && match s.entryOf p.src p.tag with
    | some e => e.opcode = 0x20
    | none => false
  p.typ = 2 && !haul && p.spans.any fun x => s.uncommitted x.1 (x.1 + x.2) (if p.port.isNone then some (p.src, p.tag) else none)

/-- Whether packet i at core c stands behind one held at the input of its vault (R351, R376), or behind a request for one of the
same banks (R252) which waits for no other's settlement. -/
def State.behind (s : State) (i c : Nat) (p : Packet) : Bool :=
  let banks (q : Packet) : List Nat := (q.spans.filter fun x => classify x.1 == .fast c).map fun x => bankOf x.1
  !(banks p).isEmpty && (s.net.packets.take i).any fun q => q.place == .delivered c &&
    (q.held = 1 || q.held = 2 ||
      (q.held = 0 && (q.typ = 1 || q.typ = 2 || q.typ = 4 || q.typ = 5) && !s.readWaits q && (banks q).any (banks p).contains))

/-- Who makes the accesses of a request. -/
def Packet.accessor (p : Packet) : Accessor := .packet p.src p.tag p.port

/-- A request at its target: absorbed under reset, refused where another module asks what R182 excludes, LINK where the
memory is down, waiting where held, `waits` saying what else holds it; else the effect. A wait for an open-write table is its
operation's own (R208, R220). -/
def State.serve (s : State) (i typ : Nat) (fastOnly write : Bool) (ups : List Upset) (waits : State → Packet → Bool)
    (f : State → Packet → Nat → State) : State :=
  let s := s.upsets ups
  match s.delivered i typ with
  | none => s
  | some (p, c) =>
    let a := p.addr.toNat
    let toReset := (s.core c).resetting && classify a == .sp c (a % 0x200000)
    -- traffic between stacks under one reset is never absorbed (R476): for a scratchpad that the reset has taken it ends here
    if s.drains p (c / 64) && toReset then s.dropPacket i
    else if s.fenced p (c / 64) ∨ toReset then (s.dropPacket i).answer p c 2
    else if p.port.isSome ∧ !p.spans.all (fun x => s.targetOk x.1 x.2 fastOnly) then (s.dropPacket i).answer p c 1
    else if p.spans.any fun x => s.memoryDown x.1 then (s.dropPacket i).answer p c 5
    else match p.spans.find? (s.mustWait write) with
      | some x => s.noteWait p.accessor x.1 x.2 write
      | none =>
        if s.behind i c p || waits s p then s
        else if write && p.spans.any (fun x => p.tableFull s x.1 x.2) then
          (if p.port.isNone then s.count (cA p.src TALLY_HOLDS) else s)
        else f (s.endWaits p.accessor p.spans) p c

/-- The open writes of a request recorded; those of an operation that its core's reset has dropped are committed as they stand (R473). -/
def State.noteWrites (s : State) (p : Packet) (spans : List (Nat × Nat)) : State :=
  if p.port.isNone && (s.entryOf p.src p.tag).isNone then s
  else spans.foldl (fun s x => match p.writer x.1 (x.1 + x.2) with
    | some w => s.recordOpen x.1 w
    | none => s) s

/-- The first byte of a scratchpad that a write arriving from outside may not reach (R95). -/
def State.remoteGap (s : State) (spans : List (Nat × Nat)) : Option Nat :=
  spans.findSome? fun x => match classify x.1 with
    | .sp k off => s.pitchGap k 4 off x.2 true
    | _ => none

/-- A remote write (R95, R182, R207, R208): a packet that reaches beyond the pitches is dropped whole. -/
def State.remoteWrite (s : State) (i : Nat) (ups : List Upset) : State :=
  s.serve i 1 false true ups (fun _ _ => false) fun s p c =>
    let s := s.dropPacket i
    match s.remoteGap p.spans with
    | some off => (s.pitchFail c 4 off true 0).answer p c 1
    | none =>
      let s := s.haulAt p.addr.toNat true
      let met := (s.writePieces p.spans p.pbytes).2
      let s := s.amid ⟨c, true, 0, [], p.spans, none⟩ (collisionsOf ups) fun s => (s.writePieces p.spans p.pbytes).1
      let s := p.spans.foldl (fun s x => s.overwrite x.1 x.2) s
      (s.noteWrites p p.spans).answer p c (if met || anyPoison p.pbytes then 3 else 0)

/-- Read data sent back (R183, R217). -/
def State.answerData (s : State) (p : Packet) (c : Nat) (ps : List PByte) : State :=
  s.injectAt c { Packet.blank 3 p.answerDest c p.tag with
    status := if anyPoison ps then 3 else 0, addr := p.addr, len := ps.length, data := dataOf ps, poison := flitPoison ps,
    port := p.port }

/-- A read request (R183, R218). -/
def State.readRequest (s : State) (i : Nat) (ups : List Upset) : State :=
  s.serve i 2 false false ups State.readWaits fun s p c =>
    let s := (s.dropPacket i).haulAt p.addr.toNat false
    s.amid ⟨c, true, 0, p.spans, [], none⟩ (collisionsOf ups) fun s =>
      let got := s.readPieces p.spans
      got.1.answerData p c got.2

/-- A contribution held at the input: noted once (R351, R376). -/
def State.holdPacket (s : State) (i t why : Nat) (p : Packet) : State :=
  let s := if why = 2 ∧ p.held = 0 then s.addSat (sA t UPD_STALLS) 31 0 1 else s
  s.modPacket i fun q => { q with held := why }

/-- Whether q is an earlier part of the contribution that p ends. -/
def Packet.partOfIt (p q : Packet) : Bool :=
  q.held = 3 && q.place == p.place && q.src == p.src && q.tag == p.tag && q.port == p.port && q.typ == p.typ && q.unit == p.unit

def State.dropParts (s : State) (p : Packet) : State :=
  s.modNet fun n => { n with packets := n.packets.filter fun q => !p.partOfIt q }

/-- A packet changed where it stands. -/
def State.modPacketOf (s : State) (p : Packet) (f : Packet → Packet) : State :=
  s.modNet fun n => { n with packets := n.packets.modify (n.packets.findIdx (· == p)) f }

/-- An accumulate, or with `mergeOp` a merge (R184, R185, R376, R351): a part of a contribution waits for the last, and all are
applied as one. The first part begins it anew; where one has been lost, the last is answered LINK (R368). -/
def State.accumulate (s : State) (i : Nat) (mergeOp : Bool) (ups : List Upset) : State :=
  s.serve i (if mergeOp then 5 else 4) true true ups (fun _ _ => false) fun s p c =>
    let parts := if p.len = 0 then [] else s.net.packets.filter p.partOfIt
    if (streamBytes parts).1.length ≠ p.len then (s.dropPacket i).dropParts p |>.answer p c 5
    else if !p.final then
      (if p.len = 0 then s.dropParts p else s).modPacketOf p fun q => { q with held := 3 }
    else
      let a := p.addr.toNat
      let tensor := (s.tensorAt a).isSome
      let got := s.land a p.gen
      let s := got.1
      let l := got.2
      let whole := streamBytes (parts ++ [p])
      let done (s : State) : State := (s.dropPacket i).dropParts p
      match l with
      | .hold why => s.holdPacket i (c / 64) why p
      | .stale => (done s).answer p c 4
      | .at_ b =>
        let moved := p.pieces.map fun q => (q.1 - a + b, q.2)
        match moved.find? (s.mustWait true) with
        | some x => s.noteWait p.accessor x.1 x.2 true
        | none =>
          let fresh := tensor && (s.seg (b / 4096)).gen.isNone
          let got := (((done s).endWaits p.accessor moved).haulAt a true).contribute
            { p with data := whole.1, poison := whole.2 } b mergeOp fresh
          (got.1.noteWrites p moved).answer p c got.2

/-! ### Answers at the issuing core -/

/-- The device a request of an operation went to, 0 for this module. -/
def State.detailDev (s : State) (e : Entry) : Nat := (s.deviceOf e.word).getD 0

/-- One answer of an operation taken off those due. -/
def State.settleOne (s : State) (c : Nat) (e : Entry) (key : Nat) : State :=
  let rest := if e.opcode = 0x24 ∨ e.opcode = 0x38 then [] else e.sent.eraseIdx (e.sent.findIdx fun x => x.2.1 = key)
  s.modEntry c e.slot fun x => { x with sent := rest }

/-- What an operation does once its answers have all come: one that was refused ends so (R168), one that met a second ABSORBED or LINK
fails (R212), one whose replay has not begun waits for it; an NBD with RESULT has its record copied into B (R191). -/
def State.endIfDone (s : State) (c slot : Nat) (record : List Byte) (xs : List Collision) : State :=
  match s.entry c slot with
  | none => s
  | some e =>
    if !e.sent.isEmpty ∨ !e.inProgress then s
    else if e.status = 2 ∨ e.status = 5 then s.fail c e
    else if e.status ≠ 0 then s.moveRefuse c e 7 e.status
    else if e.state == .replaying && !e.again then s
    else
      let s := if e.opcode = 0x34 && e.word.flags.getLsbD 1 then
          s.amid ⟨c, false, e.tag, [], [(spBase c + e.b.base, 64)], none⟩ xs fun s =>
            (s.writeSp c e.b.base (plain ((record ++ List.replicate 64 0).take 64))).1
        else s
      s.finish c e

/-- The grouped transfers of a copy that is made again from another module (R215). -/
def FarCopy.units (c : Nat) (f : FarCopy) : List (List (Nat × Nat × Nat)) := packetRuns true (copyRuns f.a f.d 0 (spBase c) true)

/-- The grouped transfers of an operation that sends packets, or of the copy it has made again, and whether they read. -/
def Entry.units (c : Nat) (e : Entry) : Bool × List (List (Nat × Nat × Nat)) :=
  match e.far with
  | some f => (true, f.units c)
  | none =>
  if e.opcode = 0x20 then (e.a.kind = 1, (hmovRuns c e).2)
  else if e.opcode = 0x29 then (true, packetRuns true (copyRuns e.a e.d 0 (spBase c) true))
  else if e.opcode = 0x28 then (false, packetRuns false (copyRuns e.a e.d (spBase c) 0 false))
  else (false, [])

/-- The transfers that an answer is about: of a read it bears the first address read, else the first written. -/
def Entry.unitOf (c : Nat) (e : Entry) (a : Nat) : Option (List (Nat × Nat × Nat)) :=
  let us := e.units c
  us.2.find? fun u => (if us.1 then (u.headD (0, 0, 0)).1 else unitKey u) = a

/-- The key under which an answer about an address is due. -/
def Entry.answerKey (c : Nat) (e : Entry) (a : Nat) : Nat :=
  if (e.units c).1 then (e.unitOf c a).elim 0 unitKey else a

/-- The ranges that a request answered OK has written (R212): those of its transfers, or of its contribution. -/
def State.answeredPlaces (s : State) (c : Nat) (e : Entry) (a : Nat) : List Rng :=
  let dev := s.deviceOf e.word
  let runs := if e.opcode = 0x2A then (segRuns e.a e.d).map fun r => (r.1, r.2.2)
    else if e.opcode = 0x2B then (mergeRuns e.a e.d).map fun r => (r.1, r.2.2) else []
  let mine := if (e.units c).1 then [] else ((e.unitOf c a).getD []).map fun r => (r.2.1, r.2.2)
  (mine ++ runs.filter fun r => r.1 / 4096 = a / 4096).map fun r => .mem dev r.1 (r.1 + r.2)

/-- The places that the answers due to an operation will write. -/
def Entry.dueSpans (c : Nat) (e : Entry) : List (Nat × Nat) :=
  ((e.units c).2.filter fun u => e.sent.any fun x => x.2.1 = unitKey u).flatten.map fun r => (r.2.1, r.2.2)

/-- Whether two spans touch one 64-byte word. -/
def shareWord (x y : Nat × Nat) : Bool :=
  decide (x.2 ≠ 0) && decide (y.2 ≠ 0) && decide (x.1 / 64 ≤ (y.1 + y.2 - 1) / 64) && decide (y.1 / 64 ≤ (x.1 + x.2 - 1) / 64)

/-- Read data that has come, cut into what lies in words that answers still due will write too, and what may be written. -/
def splitInbox (due : List (Nat × Nat)) (inbox : List (Nat × List PByte)) :
    List (Nat × List PByte) × List (Nat × List PByte) :=
  let parts := inbox.flatMap fun p =>
    if due.any (shareWord (p.1, p.2.length)) then
      (unitsOf 64 p.1 p.2.length).map fun w => (w + (partOf 64 p.1 p.2 w).1, (partOf 64 p.1 p.2 w).2)
    else [p]
  parts.partition fun p => due.any (shareWord (p.1, p.2.length))

/-- Read data that has come written at its places, each word of D once all of it is there, so that the word is never seen half
new (R171); HMOV's at port A, the network interface's at port B (R89, R166). -/
def State.landUnit (s : State) (c slot : Nat) (us : List Collision) : State :=
  match s.entry c slot with
  | none => s
  | some e =>
    let got := splitInbox (e.dueSpans c) e.inbox
    let ready := got.2
    let s := s.modEntry c slot fun x => { x with inbox := got.1 }
    let spans := ready.map fun p => (p.1, p.2.length)
    (s.amid ⟨c, e.opcode ≠ 0x20, e.tag, [], spans, none⟩ us fun s => (s.writeParts ready).1).wrote c slot
      (spans.map fun x => .mem none x.1 (x.1 + x.2))

/-- A part of a copy that is made again for a reader (R215): poisoned data fails the reader; once all of it has come the repair is
counted. -/
def State.farData (s : State) (c : Nat) (e : Entry) (parts : List (Nat × List PByte)) : State :=
  if parts.any fun p => anyPoison p.2 then s.fail c e
  else
    let s := (s.writeParts parts).1
    match s.entry c e.slot with
    | some x => if x.sent.isEmpty then
        (s.modEntry c e.slot fun x => { x with far := none }).addSat (cA c TALLY_POISON) 15 0 1 else s
    | none => s

/-- The read data of an answer written at its local places (R183): data that arrives poisoned is had again where its source survives
(R209, R214), else delivered so. -/
def State.readData (s : State) (i : Nat) (ups : List Upset) : State :=
  let s := s.upsets ups
  match s.delivered i 3 with
  | none => s
  | some (p, c) =>
    let s := s.dropPacket i
    match s.entryOf c p.tag with
    | none => s
    | some e =>
      match e.unitOf c p.addr.toNat with
      | none => s
      | some u =>
        if !e.inProgress ∨ !e.sent.any (fun x => x.2.1 = unitKey u) then s
        else
          let s := s.settleOne c e (unitKey u)
          let ps := p.pbytes
          let part (r : Nat × Nat × Nat) : List PByte := spanData (deviceSpans true u) ps (r.1, r.2.2)
          let parts := u.map fun r => (r.2.1, part r)
          if e.far.isSome then s.farData c e parts
          else if e.status ≠ 0 ∨ (e.state == .replaying && !e.again) then s.endIfDone c e.slot [] []
          else
            let bad := u.flatMap fun r => ((part r).zipIdx.filter fun b => b.1.2).map fun b => r.1 + b.2
            let write (s : State) : State :=
              ((s.modEntry c e.slot fun x => { x with inbox := x.inbox ++ parts }).landUnit c e.slot (collisionsOf ups)).endIfDone
                c e.slot [] []
            s.meetPoison c e (if (s.deviceOf e.word).isSome then [] else bad) (!bad.isEmpty) write

/-- Whether an operation is a send of a reduction into a channel of a core that has not been answered. -/
def Entry.reduces (x : Entry) (d ch : Nat) : Bool :=
  x.opcode = 0x24 && x.red ≠ 0 && x.destCore = d && x.channel = ch && x.inProgress && !x.sent.isEmpty

/-- The restart of a reduction whose sender met LINK (R211): what its receiver has of it discarded, every other sender told
over the crier network. -/
def State.restartReduction (s : State) (e : Entry) : State :=
  let d := e.destCore
  let ch := e.channel
  let s := s.modPosted d ch fun q => { q with streams := [], senders := [], refuse := false }
  let gone (p : Packet) : Bool := p.typ = 0 && (p.red = 1 || p.red = 2) && p.dest = d && p.channel.toNat = ch
  let s := s.modNet fun n =>
    { n with packets := n.packets.filter fun p => !gone p
             refused := n.refused.filter fun x => !n.packets.any fun p => gone p && p.senders == x.2 }
  (s.cores.filter fun p => p.2.tally.any (·.reduces d ch)).foldl (fun s p => s.crier
    { typ := 7, kind := 0, dest := p.1, src := d, arg := 0, payload := BitVec.ofNat 32 ch, event := none }) s

/-- What the replay of an operation waits for after ABSORBED or LINK from where a request of it went (R210). -/
def State.waitAfter (s : State) (e : Entry) (status target : Nat) : Option Wait :=
  match s.deviceOf e.word with
  | some d => some (if status = 2 then .farReset else .farRoute d)
  | none => if status = 5 then some (.route target) else if s.absorbing target then some (.reset target) else none

/-- A status at the issuing core (R187). ABSORBED or LINK starts a replay once; of a refusal, and of a second ABSORBED or LINK, the
operation's other answers are awaited before it ends. DESIGN CHOICE (log entry 129): where they differ, the first that came
decides. What an answer says was written counts as written whatever has been decided (R212). -/
def State.onStatus (s : State) (c : Nat) (p : Packet) (xs : List Collision) : State :=
  match s.entryOf c p.tag with
  | none => s
  | some e =>
    let whole := e.opcode = 0x24 || e.opcode = 0x38
    let key := e.answerKey c p.addr.toNat
    match e.sent.find? fun x => whole || x.2.1 = key with
    | none => s
    | some hit =>
      let good : Bool := p.status = 0 || p.status = 3 || p.status = 6
      let places := if good then s.answeredPlaces c e p.addr.toNat else []
      if e.state == .failed then places.foldl (fun s r => s.poisonRng c r) (s.settleOne c e key)
      else if !e.inProgress then s
      else if e.far.isSome then (if good then s.settleOne c e key else s.fail c e)
      else
        let s := s.settleOne c e key
        let s := if p.status = 5 && e.opcode = 0x24 && e.red ≠ 0 then s.restartReduction e else s
        let late : Bool := e.status ≠ 0 || (e.state == .replaying && !e.again)
        let lost : Bool := p.status = 2 || p.status = 5
        if late then ((if good then s.wrote c e.slot places else s)).endIfDone c e.slot [] []
        else if lost && e.fault = 0 then
          s.linkFault c e (if p.status = 2 then 6 else 7) p.addr.toNat ((s.deviceOf e.word).getD 0) (s.waitAfter e p.status hit.1)
        else if lost || p.status = 1 || p.status = 4 || p.status = 7 || p.status = 8 then
          (s.modEntry c e.slot fun x => { x with status := p.status }).endIfDone c e.slot [] []
        else (s.wrote c e.slot places).endIfDone c e.slot p.data xs

/-- A status packet delivered. -/
def State.status (s : State) (i : Nat) (ups : List Upset) : State :=
  let s := s.upsets ups
  match s.delivered i 6 with
  | none => s
  | some (p, c) => if p.port.isSome then s else (s.dropPacket i).onStatus c p (collisionsOf ups)

/-- A restart of a reduction told to a sender (R211): its NSENDs into it are replayed; one that was sent anew already is sent once
more. -/
def State.reductionRestart (s : State) (i : Nat) : State :=
  match s.net.msgs[i]? with
  | none => s
  | some m =>
    if m.typ ≠ 7 ∨ !s.crierFirst i then s
    else
      let s := s.dropMsg i
      ((s.core m.dest).tally.filter (·.reduces m.src (m.payload.toNat % 256))).foldl (fun s e =>
        if e.state == .replaying then
          s.modEntry m.dest e.slot fun x => { x with sent := [], again := false, waitFor := some (.route m.src) }
        else s.linkFault m.dest e 7 0 0 (some (.route m.src))) s

end Sys2Proof.Machine
end

