-- ==== Sys2Proof/Machine/VectorOps.lean ====
section
/-! DEFINITION. The vector unit (R80, R153 to R165): element-wise arithmetic, row reductions, conversions, softmax
statistics and selection, each as rows to write with the flags of R48. -/

namespace Sys2Proof.Machine

/-- What a vector operation writes: rows of encoded elements into tiles, or into their scale rows, and its flags. -/
structure VOut where
  writes : List (Desc × Bool × List (List PElem))
  flags : AFlags
  poison : Bool
  deriving DecidableEq, Repr

def pbits (v : PVal) : PElem := (v.1.toNat, v.2)
def orFlags (fs : List AFlags) : AFlags := fs.foldl (· ||| ·) 0

/-! ### Element-wise (R154) -/

/-- A NaN as the canonical NaN (R39). -/
def canon (a : W32) : W32 := if (f32Val a).isNaN then canonNaN else a

/-- 1.0 where a comparison holds, else +0; a NaN operand gives +0 (R154). -/
def vcmp (p : Int → Bool) (a b : W32) : W32 :=
  match (f32Val a).cmp (f32Val b) with
  | some c => if p c then 0x3F800000 else 0
  | none => 0

/-- VOP's function of A, B and C. -/
def vopFun (mode : Nat) (a b c : W32) : W32 :=
  match mode with
  | 0x01 => fadd a b
  | 0x02 => fsub a b
  | 0x03 => fmul a b
  | 0x04 => vmax a b
  | 0x05 => vmin a b
  | 0x06 => ffma a b c
  | 0x08 => vcmp (· < 0) a b
  | 0x09 => vcmp (· ≤ 0) a b
  | 0x0A => vcmp (· = 0) a b
  | 0x0B => canon (if (f32Val c).isZero then b else a)
  | 0x10 => fdiv a b
  | 0x11 => fsqrt a
  | 0x12 => fexp2 a
  | 0x13 => flog2 a
  | 0x14 => frcp a
  | 0x15 => frsqrt a
  | 0x16 => fexp a
  | 0x18 => canon (fabs a)
  | 0x19 => canon (if (f32Val a).isNaN then a else fneg a)
  | _ => canon a

/-- Operands VOP's function takes, and whether an infinite result is exact (R48). -/
def vopIns (mode : Nat) (a b c : W32) : List Val × Bool :=
  let va := f32Val a
  let vb := f32Val b
  let ins := [va] ++ (if vopBinary mode then [vb] else []) ++ (if vopTernary mode then [f32Val c] else [])
  (ins, if mode = 0x10 then vb.isZero else if mode ∈ [0x13, 0x14, 0x15] then va.isZero else false)

/-- One element of VOP with its flags. -/
def vopElem (mode : Nat) (a b c : PVal) : PVal × AFlags :=
  let r := vopFun mode a.1 b.1 c.1
  let got := vopIns mode a.1 b.1 c.1
  let ins := got.1
  let ex := got.2
  ((r, a.2 || (vopBinary mode && b.2) || (vopTernary mode && c.2)), resultFlags ins r ex)

/-- Element (r, j) of B under BMODE (R154). -/
def bAt (bm : Nat) (b : List (List PVal)) (scalar : W32) (r j : Nat) : PVal :=
  let row (n : Nat) := b.getD n []
  match bm with
  | 0 => (row r).getD j (0, false)
  | 1 => (row r).getD 0 (0, false)
  | 2 => (row 0).getD j (0, false)
  | _ => (scalar, false)

def State.vopCause (_s : State) (e : Entry) (w0 w1 : Nat) : Option Nat :=
  let m := e.mode.toNat
  let bm := e.word.flags.toNat % 4
  let usesB := vopBinary m && bm ≠ 3
  let fmtBad (d : Desc) := decide (d.fmt ≤ 8) && d.fmt ≠ 6 && d.fmt ≠ 7
  let outBad (d : Desc) := decide (d.fmt ≤ 8) && d.fmt ≠ 7
  let inOk (d : Desc) := d.spOk || d.accOk (if d.engine then w1 else w0)
  let same (d : Desc) := d.rows = e.d.rows && d.cols = e.d.cols
  let bShape := match bm with
    | 0 => same e.b
    | 1 => e.b.rows = e.d.rows && e.b.cols = 1
    | _ => e.b.rows = 1 && e.b.cols = e.d.cols
  if fmtBad e.a || outBad e.d || (usesB && fmtBad e.b) || (vopTernary m && fmtBad e.c) then some 6
  else if !inOk e.a || !e.d.spOk || !same e.a || (usesB && (!inOk e.b || !bShape))
      || (vopTernary m && (!inOk e.c || !same e.c)) || overlapAny e.outs e.ins then some 5
  else none

def State.runVop (s : State) (c : Nat) (e : Entry) : State × VOut :=
  let m := e.mode.toNat
  let bm := e.word.flags.toNat % 4
  let got := s.readVals c e.a e.tag
  let s := got.1
  let a := got.2
  let got := if vopBinary m && bm ≠ 3 then s.readVals c e.b e.tag else (s, [])
  let s := got.1
  let b := got.2
  let got := if vopTernary m then s.readVals c e.c e.tag else (s, [])
  let s := got.1
  let cc := got.2
  let rows := a.mapIdx fun r row => row.mapIdx fun j x =>
    vopElem m x (bAt bm b e.vscalar r j) ((cc.getD r []).getD j (0, false))
  (s, ⟨[(e.d, false, rows.map fun r => r.map fun p => pbits p.1)],
    orFlags (rows.flatMap fun r => r.map (·.2)), rows.any fun r => r.any fun p => p.1.2⟩)

/-! ### Row sums and reductions (R155, R156) -/

/-- Every 64th element from j on. -/
def strided (xs : List W32) (j : Nat) : List W32 :=
  (List.range ((xs.length - j + 63) / 64)).map fun i => xs.getD (j + 64 * i) 0

/-- Values 2i and 2i + 1 added. -/
def addPairs : List W32 → List W32
  | a :: b :: xs => fadd a b :: addPairs xs
  | xs => xs

/-- 64 partials combined over six levels (R155). -/
def sumTree (ps : List W32) : W32 := (addPairs (addPairs (addPairs (addPairs (addPairs (addPairs ps)))))).headD 0

/-- A row sum in the order of R155; `step` adds an element to a partial. -/
def rowSum (step : W32 → W32 → W32) (xs : List W32) : W32 :=
  sumTree ((List.range 64).map fun j => (strided xs j).foldl step 0)

/-- VRED of a row (R156). -/
def vredFun (mode : Nat) (xs : List W32) : W32 :=
  match mode with
  | 0 => rowSum fadd xs
  | 1 => match xs with
    | [] => 0
    | x :: r => r.foldl vmax (canon x)
  | 2 => match xs with
    | [] => 0
    | x :: r => r.foldl vmin (canon x)
  | 3 => rowSum (fun p a => ffma a a p) xs
  | _ => match xs with
    | [] => 0
    | x :: r => r.foldl (fun m a => vmax m (fabs a)) (canon (fabs x))

def State.vredCause (_s : State) (e : Entry) (w0 w1 : Nat) : Option Nat :=
  if (decide (e.a.fmt ≤ 8) && e.a.fmt ≠ 6 && e.a.fmt ≠ 7) || (decide (e.d.fmt ≤ 8) && e.d.fmt ≠ 7) then some 6
  else if !(e.a.spOk || e.a.accOk (if e.a.engine then w1 else w0)) || !e.d.spOk || e.d.rows ≠ e.a.rows || e.d.cols ≠ 1
      || overlapAny e.outs e.ins then some 5
  else none

def State.runVred (s : State) (c : Nat) (e : Entry) : State × VOut :=
  let got := s.readVals c e.a e.tag
  let s := got.1
  let a := got.2
  let rows := a.map fun row =>
    let xs := row.map (·.1)
    let r := vredFun e.mode.toNat xs
    ((r, row.any (·.2)), resultFlags (xs.map f32Val) r)
  (s, ⟨[(e.d, false, rows.map fun p => [pbits p.1])], orFlags (rows.map (·.2)), rows.any fun p => p.1.2⟩)

/-! ### Conversion (R157) -/

def State.cvtCause (_s : State) (e : Entry) (w0 w1 : Nat) : Option Nat :=
  let fa := e.a.fmt
  let fd := e.d.fmt
  let m := e.mode.toNat
  let narrow := fa = 6 || fa = 7
  -- a format out of range is no format fault, but leaves those of the other and of the mode bits (R529)
  let fmtBad : Bool := fa = 8 || fd = 8 || (fd = 7 && (fa = 7 || m ≠ 0)) || (decide (fd ≤ 6) && decide (fa ≤ 8) && !narrow)
    || (fd = 6 && e.mode.getLsbD 5)
  if fmtBad then some 6
  else if !(e.a.spOk || e.a.accOk (if e.a.engine then w1 else w0)) || !e.d.spOk || e.a.rows ≠ e.d.rows
      || e.a.cols ≠ e.d.cols || overlapAny e.outs e.ins then some 5
  else none

/-- Consecutive groups of 32. -/
def chunks32 {α : Type} (xs : List α) : List (List α) :=
  (List.range ((xs.length + 31) / 32)).map fun i => (xs.drop (32 * i)).take 32

/-- The device address of byte `off` of core c's scratchpad (R141). -/
def spKey (c off : Nat) : Nat := spBase c + off

/-- One row converted into a block format: elements, scales, flags (R40 to R46). -/
def cvtBlockRow (c : Nat) (e : Entry) (r : Nat) (row : List PVal) (given : List PElem) :
    List PElem × List PElem × AFlags :=
  let f := e.d.format
  let w := e.d.elemBits
  let outs := (chunks32 row).mapIdx fun b blk =>
    let addr := spKey c (e.d.base + r * e.d.rowStride + b * 32 * w / 8)
    let mode (i : Nat) : Rounding :=
      if e.mode.getLsbD 7 then .stochastic (srBits e.seed (srKey addr i) e.stepNo) else .nearest
    let g := if e.mode.getLsbD 5 then some (given.getD b (0, false)) else none
    let vs := blk.map fun v => f32Val v.1
    let o := narrowBlock f (!e.mode.getLsbD 6) (g.map (·.1)) mode vs
    let bad := blk.any (·.2) || (match g with
      | some x => x.2
      | none => false)
    (o.elems.map (·, bad), (o.scale, bad), blockFlags f vs o)
  (outs.flatMap (·.1), outs.map (·.2.1), orFlags (outs.map (·.2.2)))

def State.runCvt (s : State) (c : Nat) (e : Entry) : State × VOut :=
  if e.d.fmt = 7 then
    -- into FP32 (R43)
    let got := s.readRows c e.a
    let s := got.1
    let rows := got.2
    let f := e.a.format
    let outs := rows.map fun row => row.elems.mapIdx fun i x =>
      let sc := row.scaleOf i
      ((elemToF32 f sc.1 x.1, x.2 || sc.2), widenFlags f sc.1 x.1)
    (s, ⟨[(e.d, false, outs.map fun r => r.map fun p => pbits p.1)], orFlags (outs.flatMap fun r => r.map (·.2)),
      outs.any fun r => r.any fun p => p.1.2⟩)
  else
    let got := s.readVals c e.a e.tag
    let s := got.1
    let a := got.2
    if e.d.fmt = 6 then
      let outs := a.mapIdx fun r row => row.mapIdx fun j x =>
        let addr := spKey c (e.d.base + r * e.d.rowStride + 2 * j)
        let v := f32Val x.1
        let n := narrowBf16 (!e.mode.getLsbD 6)
          (if e.mode.getLsbD 7 then .stochastic (srBits e.seed (srKey addr 0) e.stepNo) else .nearest) v
        ((n.bits, x.2), narrowFlags .bf16 v n)
      (s, ⟨[(e.d, false, outs.map fun r => r.map (·.1))], orFlags (outs.flatMap fun r => r.map (·.2)),
        outs.any fun r => r.any fun p => p.1.2⟩)
    else
      let got := if e.mode.getLsbD 5 then
          (List.range e.d.rows).foldl (fun (acc : State × List (List PElem)) r =>
            let got := acc.1.readSp c (e.d.scaleBase + r * e.d.scaleStride) (e.d.cols / 32)
            let s := got.1
            let b := got.2
            (s, acc.2 ++ [elemsOf b 8 (e.d.cols / 32)])) (s, [])
        else (s, [])
      let s := got.1
      let given := got.2
      let outs := a.mapIdx fun r row => cvtBlockRow c e r row (given.getD r [])
      (s, ⟨[(e.d, false, outs.map (·.1))] ++ (if e.mode.getLsbD 5 then [] else [(e.d, true, outs.map (·.2.1))]),
        orFlags (outs.map (·.2.2)), outs.any fun o => o.1.any (·.2)⟩)

/-! ### Softmax statistics (R158, R159) -/

def State.smsCause (_s : State) (e : Entry) (w0 w1 : Nat) : Option Nat :=
  let first := e.mode.getLsbD 1
  let bad (d : Desc) (ok : List Nat) := decide (d.fmt ≤ 8) && !(ok.contains d.fmt)
  if bad e.a [7] || bad e.d [6, 7] || bad e.e [7] || (!first && bad e.b [7]) then some 6
  else if !(e.a.spOk || e.a.accOk (if e.a.engine then w1 else w0)) || !e.d.spOk || !e.e.spOk
      || (!first && (!e.b.spOk || e.b.rows ≠ e.a.rows || e.b.cols ≠ 2))
      || e.d.rows ≠ e.a.rows || e.d.cols ≠ e.a.cols || e.e.rows ≠ e.a.rows || e.e.cols ≠ 4
      || overlapAny e.outs e.ins then some 5
  else none

/-- One row of SMS (R159), with m and l of the row before unless it is the first: probabilities as written, the four words of E,
and the flags, judged on what the operation gives (R48). -/
def smsRow (bf16 prescale : Bool) (scalar : W32) (scores : List W32) (prior : Option (W32 × W32)) : List W32 × List W32 × AFlags :=
  let mOld := (prior.map (·.1)).getD (f32Inf true)
  let lOld := (prior.map (·.2)).getD 0
  let s' := if prescale then scores.map fun x => fmul x scalar else scores
  let b := match s' with
    | [] => f32Inf true
    | x :: r => r.foldl vmax (canon x)
  let mNew := vmax mOld b
  let raised : W32 := if (f32Val mNew).cmp (f32Val mOld) = some 1 then 2 else 0
  let ins := scores.map f32Val ++ (match prior with
    | some x => [f32Val x.1, f32Val x.2]
    | none => []) ++ if prescale then [f32Val scalar] else []
  let judged (rs : List W32) : AFlags := orFlags (rs.map (resultFlags ins ·))
  if mNew = f32Inf true then
    (scores.map fun _ => 0, [mNew, canon lOld, 0x3F800000, raised], judged [mNew, canon lOld])
  else
    let a0 := fexp (fsub mOld mNew)
    let under := mOld ≠ f32Inf true && (f32Val a0).cmp (.fin false 1 (-126)) = some (-1)
    let alpha := if mOld = f32Inf true then 0 else if under then 0 else a0
    let ps := s'.map fun x =>
      let p := fexp (fsub x mNew)
      if bf16 then (bf16Of p).setWidth 32 <<< 16 else p
    let lNew := ffma alpha lOld (rowSum fadd ps)
    (ps, [mNew, lNew, alpha, raised ||| if under then 1 else 0],
      judged (mNew :: lNew :: alpha :: ps))

def State.runSms (s : State) (c : Nat) (e : Entry) : State × VOut :=
  let first := e.mode.getLsbD 1
  let got := s.readVals c e.a e.tag
  let s := got.1
  let a := got.2
  let got := if first then (s, []) else s.readVals c e.b e.tag
  let s := got.1
  let b := got.2
  let rows := a.mapIdx fun r row =>
    let br := b.getD r []
    let prior := if first then none else some ((br.getD 0 (0, false)).1, (br.getD 1 (0, false)).1)
    let bad := row.any (·.2) || br.any (·.2)
    let got := smsRow (e.d.fmt = 6) (e.mode.getLsbD 0) e.vscalar (row.map (·.1)) prior
    let ps := got.1
    let st := got.2.1
    let fl := got.2.2
    (ps.map fun (p : W32) => ((if e.d.fmt = 6 then p.toNat / 65536 else p.toNat, bad) : PElem),
      st.map fun (x : W32) => ((x.toNat, bad) : PElem), fl, bad)
  (s, ⟨[(e.d, false, rows.map (·.1)), (e.e, false, rows.map (·.2.1))], orFlags (rows.map (·.2.2.1)),
    rows.any (·.2.2.2)⟩)

/-! ### Selection (R160, R161) -/

/-- A candidate: value, index, and 0 where it is a prior entry. -/
structure Cand where
  v : W32
  idx : Nat
  fresh : Nat
  deriving DecidableEq, Repr

/-- Whether x ranks before y (R161). DESIGN CHOICE (log entry 104): of two entries that R161 does not order, equal in value and
index and of one kind, the one inserted later ranks first. -/
def Cand.before (smallest : Bool) (x y : Cand) : Bool :=
  let tie := decide (x.idx < y.idx) || (x.idx == y.idx && decide (x.fresh ≤ y.fresh))
  match (f32Val x.v).isNaN, (f32Val y.v).isNaN with
  | true, true => tie
  | true, false => false
  | false, true => true
  | false, false =>
    match (f32Val x.v).cmp (f32Val y.v) with
    | some 0 => tie
    | some k => if smallest then decide (k < 0) else decide (0 < k)
    | none => tie

def Cand.insert (smallest : Bool) (x : Cand) : List Cand → List Cand
  | [] => [x]
  | y :: ys => if x.before smallest y then x :: y :: ys else y :: Cand.insert smallest x ys

/-- The k best, best first. -/
def topk (smallest : Bool) (k : Nat) (cs : List Cand) : List Cand :=
  let best := (cs.foldl (fun acc x => Cand.insert smallest x acc) []).take k
  best ++ List.replicate (k - best.length) ⟨f32Inf (!smallest), 0xFFFFFFFF, 1⟩

def State.topkCause (_s : State) (e : Entry) (w0 w1 : Nat) : Option Nat :=
  let k := e.word.op.toNat % 128
  let merge := e.mode.getLsbD 1
  let bad (d : Desc) (f : Nat) := decide (d.fmt ≤ 8) && d.fmt ≠ f
  let list (d : Desc) := d.spOk && d.rows = e.a.rows && d.cols = k
  if bad e.a 7 || bad e.d 7 || bad e.e 8 || (merge && (bad e.b 7 || bad e.c 8)) then some 6
  else if k = 0 || 64 < k || !(e.a.spOk || e.a.accOk (if e.a.engine then w1 else w0)) || !list e.d || !list e.e
      || (merge && (!list e.b || !list e.c)) || overlapAny e.outs e.ins then some 5
  else none

def State.runTopk (s : State) (c : Nat) (e : Entry) : State × VOut :=
  let k := e.word.op.toNat % 128
  let merge := e.mode.getLsbD 1
  let got := s.readVals c e.a e.tag
  let s := got.1
  let a := got.2
  let got := if merge then s.readVals c e.b e.tag else (s, [])
  let s := got.1
  let b := got.2
  let got := if merge then s.readVals c e.c e.tag else (s, [])
  let s := got.1
  let ci := got.2
  let rows := a.mapIdx fun r row =>
    let br := b.getD r []
    let cr := ci.getD r []
    let prior := br.mapIdx fun i v => (⟨v.1, ((cr.getD i (0, false)).1).toNat, 0⟩ : Cand)
    let fresh := row.mapIdx fun j v => (⟨v.1, (e.idxBase.toNat + j) % 2 ^ 32, 1⟩ : Cand)
    let best := topk (e.mode.getLsbD 0) k (prior ++ fresh)
    let bad := row.any (·.2) || br.any (·.2) || cr.any (·.2)
    let nan := (prior ++ fresh).any fun x => (f32Val x.v).isNaN
    (best.map fun x => ((canon x.v).toNat, bad), best.map fun x => (x.idx, bad), flagIf nan fNanIn, bad)
  (s, ⟨[(e.d, false, rows.map (·.1)), (e.e, false, rows.map (·.2.1))], orFlags (rows.map (·.2.2.1)),
    rows.any (·.2.2.2)⟩)

/-! ### The unit -/

/-- What refuses a vector operation at its start (R139, R153 to R161, R529). -/
def State.vectorCause (s : State) (c : Nat) (e : Entry) : Option Nat :=
  let w0 := s.engWidth c false
  let w1 := s.engWidth c true
  match e.opcode with
  | 0x08 => s.vopCause e w0 w1
  | 0x09 => s.vredCause e w0 w1
  | 0x0A => s.cvtCause e w0 w1
  | 0x0B => s.smsCause e w0 w1
  | _ => s.topkCause e w0 w1

/-- A vector operation's effect (R164, R216): a parity error in a row suppresses that row and every later one and is
replayed. -/
def State.doVector (s : State) (c : Nat) (e : Entry) (parityRow : Option Nat) : State :=
  let got := match e.opcode with
    | 0x08 => s.runVop c e
    | 0x09 => s.runVred c e
    | 0x0A => s.runCvt c e
    | 0x0B => s.runSms c e
    | _ => s.runTopk c e
  let s := got.1
  let o := got.2
  s.meetPoison c e (s.poisonOf (s.useOf c e).reads) o.poison fun s =>
    let s := s.orReg (cA c VU_FLAGS) (o.flags.setWidth 64)
    let hit := match parityRow with
      | some r => if r < e.d.rows then some r else none
      | none => none
    let keep (l : List (List PElem)) := match hit with
      | some r => l.take r
      | none => l
    let s := o.writes.foldl (fun s w => if w.2.1 then s.writeScales c w.1 (keep w.2.2) else s.writeElems c w.1 (keep w.2.2)) s
    match hit with
    | some r => (s.wrote c e.slot (o.writes.flatMap fun w =>
        (Part.mk (w.1.firstRows r) none (!w.2.1) w.2.1).places c)).opFault c e 4 fun x => { x with detail := r }
    | none => s.finish c e

/-- A vector refusal (R163): VU_FAULT and source 2. -/
def State.vectorRefuse (s : State) (c : Nat) (e : Entry) (cause : Nat) : State :=
  ((s.setReg (cA c VU_FAULT) (BitVec.ofNat 64 (e.tag.toNat * 2 ^ 48 + e.opcode * 2 ^ 42 + cause * 16 + 1))).refuse
    c e).raiseCore c 2

end Sys2Proof.Machine
end

