-- ==== Sys2Proof/Machine/OpRun.lean ====
section
/-! DEFINITION. The life of an operation in the tally: its start (R77, R78, R94, R133, R202, R205, R529), completion, settlement
(R189, R203, R214), replay (R209 to R213) and repair (R215). -/

namespace Sys2Proof.Machine

/-! ### Effects -/

/-- The effect of an operation that starts, or is run again. -/
def State.runOp (s : State) (c : Nat) (e : Entry) (f : RunFaults) : State :=
  match e.opcode with
  | 0x01 => s.doSld c e
  | 0x02 => if e.fault = 0 then s.doMma c e f.step else s.replayMma c e f.step
  | 0x03 => s.doArd c e
  | 0x20 => s.doHmov c e
  | 0x21 => s.doSmov c e
  | 0x24 => s.doNsend c e
  | 0x25 => s.doNrecv c e
  | 0x28 => s.doRwr c e
  | 0x29 => s.doRrd c e
  | 0x2A => s.doRacc c e
  | 0x2B => s.doRmrg c e
  | 0x30 => s.doTsig c e
  | 0x34 => s.doNbd c e
  | 0x38 => s.doUdd c e
  | _ => s.doVector c e f.vuRow

/-- The effect of an operation amid the collisions that its accesses of the exchange window meet (R90). -/
def State.runAmid (s : State) (c : Nat) (e : Entry) (f : RunFaults) : State :=
  s.amid (s.useOf c e) f.collide fun s => s.runOp c e f

/-! ### Start -/

/-- The ranges of the scratchpad tiles an operation names, with the access it makes of each (R94). -/
def State.pitchRanges (s : State) (c : Nat) (e : Entry) : List (Nat × Nat × Bool) :=
  let p := s.partsOf c e
  let of (write : Bool) (ps : List Part) : List (Nat × Nat × Bool) :=
    (spansOf ((ps.filter fun x => x.d.kind = 0).flatMap (·.ranges c))).map fun x => (x.1 - spBase c, x.2, write)
  -- an MMA names its streamed tile, not the one its buffer was loaded from
  of false (if e.opcode = 0x02 then [Part.whole e.a none] else p.1) ++ of true p.2

/-- The first range no pitch grants. -/
def State.pitchMiss (s : State) (c : Nat) (e : Entry) : Option (Nat × Nat × Bool) :=
  (s.pitchRanges c e).find? fun r => !s.pitchOk c e.master r.1 r.2.1 r.2.2

/-- The cause that refuses an operation at its start (R529). -/
def State.startCause (s : State) (c : Nat) (e : Entry) : Option Nat :=
  if e.opcode = 0x01 then s.sldCause c e
  else if e.opcode = 0x02 then s.mmaCause c e
  else if e.opcode = 0x03 then s.ardCause c e
  else if e.queue = 2 then s.vectorCause c e
  else s.moveCause c e

/-- A refusal at the start, recorded by the operation's unit. -/
def State.startRefuse (s : State) (c : Nat) (e : Entry) (cause : Nat) : State :=
  if e.queue ≤ 1 then s.engineRefuse c e cause
  else if e.queue = 2 then s.vectorRefuse c e cause
  else s.moveRefuse c e cause 0

/-- Whether the unit of queue q has room for an operation (R56, R57, R77): a load starts beside a stream from the buffer it does not
fill, neither of them FP32. -/
def State.unitFree (s : State) (c q : Nat) (e : Entry) : Bool :=
  let run := (s.core c).tally.filter fun x => x.queue == q && x.inProgress && !x.unit
  let fillsB := !((s.core c).engine (q = 1)).latestB
  run.length < queueFigure q || (e.opcode = 0x01 && e.a.fmt ≠ 7 && run.all fun x => x.opcode = 0x02 && x.state == .running &&
    match x.tile with
    | some (b, some d) => b ≠ fillsB && d.fmt ≠ 7
    | some (b, none) => b ≠ fillsB
    | none => false)

/-- Waits other than for tokens, producers and holds: a channel still posted (R178), and an unanswered contribution to the same
segment (R186). -/
def State.startWaits (s : State) (c : Nat) (e : Entry) : Bool :=
  if e.opcode = 0x25 then (s.core c).posted.any fun q => q.channel = e.channel
  else if e.opcode = 0x2A ∨ e.opcode = 0x2B then
    (s.earlier c e).any fun x => (x.opcode = 0x2A || x.opcode = 0x2B) && x.inProgress && s.deviceOf x.word == s.deviceOf e.word &&
      (segRuns x.a x.d).any fun r => (segRuns e.a e.d).any fun t => r.1 / 4096 = t.1 / 4096
  else false

/-- What an HMOV moves over its core's own haul (R175): whether it writes there, and the places. -/
def Entry.haulSpans (c : Nat) (e : Entry) : Bool × List (Nat × Nat) :=
  let isRead : Bool := e.a.kind = 1
  (!isRead, if e.opcode = 0x20 then (if isRead then e.a else e.d).pieces.filter fun p => overHaul c p.1 else [])

/-- Whether an HMOV's own writes find an open-write table full (R208). -/
def State.haulFull (s : State) (c : Nat) (e : Entry) : Bool :=
  (e.haulSpans c).1 && (e.haulSpans c).2.any fun p => s.openFull p.1 (e.openWrite c p.1 (p.1 + p.2))

/-- An operation's effect once what it moves over the haul need not wait for a lock, repair, clear or zero fill (R258, R261, R263,
R268). -/
def State.whenHaulFree (s : State) (c : Nat) (e : Entry) (f : State → State) : State :=
  s.whenFree (.op c e.tag) (e.haulSpans c).1 (e.haulSpans c).2 f

/-- An operation that may start: its token taken, its producers recorded, its checks made, then refused or run (R133, R135,
R202). -/
def State.startOp (s : State) (c : Nat) (e : Entry) (f : RunFaults) : State :=
  let e := { e with state := .running, tokenTaken := true, producers := s.producersOf c e, heldR := false, heldW := false,
                    short := false }
  let s := (s.decToken c e.word.wait.toNat).modEntry c e.slot fun _ => e
  match s.startCause c e with
  | some k => s.startRefuse c e k
  | none => match s.pitchMiss c e with
    | some r => (s.pitchFail c e.master r.1 r.2.2 e.tag.toNat).refuse c e
    | none => s.runAmid c e f

/-- The operation at the head of a queue (R78): started if its token, producers, holds and unit allow, else it waits; a wait
of R202, R205 or R208 is counted and shows as HELD (R220). -/
def State.bulkStart (s : State) (c q : Nat) (f : RunFaults) : State :=
  let s := s.upsets f.upsets
  match s.queueHead c q with
  | none => s
  | some e =>
    let w := e.word.wait.toNat
    if (s.core c).power ≠ 2 ∨ !s.unitFree c q e ∨ (q ≤ 1 ∧ (s.core c).lentTo.isSome ∧ !e.unit) ∨ (w ≠ 0 ∧ s.token c w = 0) then s
    else
      let short : Bool := 8 < (s.producersOf c e).length || s.haulFull c e
      let r := s.readHold c e
      let h := s.writeHold c e
      let s := s.modEntry c e.slot fun x => { x with short := short, heldR := r, heldW := h }
      if short ∨ r ∨ h then s.count (cA c TALLY_HOLDS)
      else if s.startWaits c e then s
      else s.whenHaulFree c e fun s => s.startOp c e f

/-! ### Completion and settlement -/

/-- An operation whose outputs are written and checked completes (R134). -/
def State.bulkComplete (s : State) (c slot : Nat) : State :=
  match s.entry c slot with
  | some e => if e.inProgress && e.done then s.complete c e else s
  | none => s

/-- The source log's new record (R214): the oldest of 64 displaced; none where the core has stored into its ranges. -/
def State.logSource (s : State) (c : Nat) (e : Entry) : State :=
  if (e.opcode = 0x20 ∨ e.opcode = 0x21 ∨ e.opcode = 0x29) ∧ s.bit (cA c TALLY_CONTROL) 0 ∧ !e.changed then
    s.modCore c fun k =>
      let l := k.srcLog ++ [⟨e.ins, e.outs, e.opcode, e.a, e.d, e.tag⟩]
      { k with srcLog := l.drop (l.length - 64) }
  else s

/-- An operation settles (R203): its forwarded increment sent once (R189), its source logged, its notices sent, its entry
freed. -/
def State.settle (s : State) (c slot : Nat) : State :=
  match s.entry c slot with
  | some e =>
    if !s.canSettle c e then s
    else
      let s := s.logSource c e
      let s := if e.word.flags.getLsbD 3 && e.word.signal ≠ 0 then (s.sendSignal c e.fwd).1 else s
      (s.freeEntry c slot).settleNotices c e
  | none => s

/-! ### Replay -/

/-- Whether the wait of a replay is over (R210). DESIGN CHOICE (log entry 116): nothing tells this module that another's reset has
ended, so that such a wait ends at any time. -/
def State.replayReady (s : State) (c : Nat) (e : Entry) : Bool :=
  match e.waitFor with
  | none | some .farReset => true
  | some (.reset _) => false
  | some (.route dest) => s.routeUp 62 c dest
  | some (.farRoute dev) => (s.biloPort dev c).isSome

/-- A faulted operation run again from its entry (R210), once the answers to what it sent have come: a poisoned input must have been
repaired. -/
def State.replay (s : State) (c slot : Nat) (f : RunFaults) : State :=
  let s := s.upsets f.upsets
  match s.entry c slot with
  | some e =>
    if e.state == .replaying && e.fault ≠ 0 && !e.done && e.sent.isEmpty && (e.fault ≠ 5 || e.repairDone) && s.replayReady c e &&
        (s.core c).power = 2 then
      s.whenHaulFree c e fun s =>
        let e := { e with waitFor := none, again := true, inbox := [] }
        (s.modEntry c slot fun _ => e).runAmid c e f
    else s
  | none => s

/-- A wait of R210 that is not over at TALLY_WAIT_LIMIT: the operation fails (R212). -/
def State.replayExpiry (s : State) (c slot : Nat) : State :=
  match s.entry c slot with
  | some e =>
    if e.state == .replaying && (e.fault = 6 || e.fault = 7) && !e.done && e.waitFor.isSome && !s.replayReady c e
        && s.fld (cA c TALLY_WAIT_LIMIT) 31 0 ≠ 0 then s.fail c e
    else s
  | none => s

/-- A reset that ended in the stack that the message names, told to the nodes of a stack (R210, R242): replays that wait for a core
which is under reset no more go on. -/
def State.resetEnded (s : State) (i : Nat) : State :=
  match s.net.msgs[i]? with
  | none => s
  | some m =>
    if m.typ ≠ 6 ∨ !s.crierFirst i then s
    else
      let free (e : Entry) : Entry := match e.waitFor with
        | some (.reset d) => if d / 64 == m.payload.toNat && !s.absorbing d then { e with waitFor := none } else e
        | _ => e
      (List.range 64).foldl (fun s j => s.modCore (m.dest / 64 * 64 + j) fun k => { k with tally := k.tally.map free }) (s.dropMsg i)

/-! ### Repair (R214, R215) -/

/-- What a repair comes to: made, held, failed, or asked for at another module. -/
inductive Repair where
  | made | held | failed | asked
  deriving DecidableEq, Repr

/-- The reads of a copy's source sent to another module under the reader's tag, once (R215); no port that leads there fails it. -/
def State.askCopy (s : State) (c : Nat) (e : Entry) (f : FarCopy) : State × Repair :=
  let r := (f.units c).foldl (fun (acc : State × Bool) u =>
    let p := e.unitPacket c true 0 u []
    let got := acc.1.request (some f.dev) p
    if acc.2 && got.2 then (got.1.await c e 0 (unitKey u) p.len, true) else (acc.1, false)) (s, true)
  if r.2 then (r.1.modEntry c e.slot fun x => { x with far := some f }, .asked) else (r.1, .failed)

/-- A copy made again from its source for a reader (R215): a poisoned source, or memory that cannot be reached, fails it; it waits
where the copying operation would (R183, R208, R258, R261, R263, R268), and its rows over the own haul count (R251). DESIGN CHOICE
(log entry 130): within this module it is one step, that shows no packets. -/
def State.recopy (s : State) (c : Nat) (e : Entry) (opcode : Nat) (a d : Desc) (dev : Option Nat) : State × Repair :=
  let off (x : Desc) := if x.kind = 0 then spBase c else 0
  let src := a.pieces.map fun p => (p.1 + off a, p.2)
  let dst := d.pieces.map fun p => (p.1 + off d, p.2)
  let who : Accessor := .op c e.tag
  match dev with
  | some m => s.askCopy c e ⟨a, d, m⟩
  | none =>
    if (src ++ dst).any fun p => s.memoryDown p.1 then (s, .failed)
    else match src.find? (s.mustWait false), dst.find? (s.mustWait true) with
      | some p, _ => (s.noteWait who p.1 p.2 false, .held)
      | none, some p => (s.noteWait who p.1 p.2 true, .held)
      | none, none =>
        if opcode = 0x29 && src.any (fun p => s.uncommitted p.1 (p.1 + p.2) (some (c, e.tag))) then (s, .held)
        else
          let got := (s.endWaits who (src ++ dst)).readPieces src
          if anyPoison got.2 then (got.1, .failed)
          else
            let hauled := (src ++ dst).filter fun p => overHaul c p.1
            let s := if opcode = 0x20 then got.1.haulCount c (d.kind = 1) (rowsOf hauled).length
              else if opcode = 0x29 then got.1.haulAt (src.headD (0, 0)).1 false else got.1
            ((s.writePieces dst got.2).1, .made)

/-- A vector operation's outputs written again from its inputs. -/
def State.rerunVector (s : State) (c : Nat) (e : Entry) : State × Repair :=
  let got := match e.opcode with
    | 0x08 => s.runVop c e
    | 0x09 => s.runVred c e
    | 0x0A => s.runCvt c e
    | 0x0B => s.runSms c e
    | _ => s.runTopk c e
  let s := got.1
  let o := got.2
  if o.poison then (s, .failed)
  else (o.writes.foldl (fun s w => if w.2.1 then s.writeScales c w.1 w.2.2 else s.writeElems c w.1 w.2.2) s, .made)

/-- One source of the reader e's repair run again. -/
def State.rerun (s : State) (c : Nat) (e : Entry) (src : Source) : State × Repair :=
  match src with
  | .entry slot => match s.entry c slot with
    | some x => if x.opcode < 0x20 then s.rerunVector c x
                else s.recopy c e x.opcode x.a x.d (if x.opcode = 0x29 then s.deviceOf x.word else none)
    | none => (s, .failed)
  | .log l => s.recopy c e l.opcode l.a l.d (l.src.findSome? fun x => match x with
      | .mem d _ _ => d
      | .acc .. => none)

/-- The places of memory that a source's bytes come from. -/
def State.sourceReads (s : State) (c : Nat) : Source → List (Nat × Nat)
  | .entry slot => match s.entry c slot with
    | some e => (s.useOf c e).reads
    | none => []
  | .log r => spansOf ((Part.whole r.a (r.src.findSome? fun x => match x with
      | .mem d _ _ => d
      | .acc .. => none)).places c)

/-- Repairs one after another of the addresses still poisoned, until one is not made. -/
def State.repairAll (s : State) (as : List Nat) (f : State → Nat → State × Repair) : State × Repair :=
  as.foldl (fun (acc : State × Repair) a =>
    if acc.2 ≠ .made || (acc.1.poisonOf [(a, 1)]).isEmpty then acc else f acc.1 a) (s, .made)

/-- The bytes at an address repaired for the reader e from their surviving source, poisoned sources of it first, to a depth: each
repair counted. A source that stays poisoned fails it. DESIGN CHOICE (log entry 128): the repair of the reader's own input counts
in the depth. -/
def State.repairAt : Nat → State → Nat → Entry → Nat → State × Repair
  | 0, s, _, _, _ => (s, .failed)
  | n + 1, s, c, e, a =>
    match s.source c a with
    | none => (s, .failed)
    | some src =>
      let r := s.repairAll (s.poisonOf (s.sourceReads c src)) fun s b => State.repairAt n s c e b
      if r.2 ≠ .made then r
      else
        let q := r.1.rerun c e src
        if q.2 = .made then (q.1.addSat (cA c TALLY_POISON) 15 0 1, .made) else q

/-- Every poisoned input of a reader that has a surviving source repaired. -/
def State.repairInputs (s : State) (c : Nat) (e : Entry) : State × Repair :=
  s.repairAll (e.poisonAt :: (s.poisonOf (s.useOf c e).reads).filter fun a => (s.source c a).isSome) fun s a => s.repairAt 4 c e a

/-- The repair of a reader's poisoned input; where there is none the reader fails, and one that waits is tried anew at the next
command. -/
def State.poisonRepair (s : State) (c slot : Nat) : State :=
  match s.entry c slot with
  | some e =>
    if e.state == .replaying && e.fault = 5 && !e.repairDone && e.sent.isEmpty then
      let got := s.repairInputs c e
      match got.2 with
      | .made => got.1.modEntry c slot fun x => { x with repairDone := true }
      | .failed => got.1.fail c e
      | .held | .asked => got.1
    else s
  | none => s

/-! ### Failures read out, limits and the clear -/

/-- TALLY_FAILED.VALID cleared (R213, R220): the entry it names is freed; the next failed entry, if one waits, is shown. DESIGN
CHOICE (log entry 131): of several the one issued earliest. -/
def State.failedClear (s : State) (c : Nat) : State :=
  let a := cA c TALLY_FAILED
  if !s.bit a 0 then s
  else
    let tag := BitVec.ofNat 16 (s.fld a 63 48)
    let s : State := (s.setReg a 0).withdrawCore c 9
    let s : State := match s.entryOf c tag with
      | some e => if e.state == .failed then s.freeEntry c e.slot else s
      | none => s
    match (s.core c).tally.find? fun e => e.state == .failed with
    | some e => (s.setReg a e.failedWord).raiseCore c 9
    | none => s

/-- A request of R87 that has waited LIMIT cycles (R88): source 5. -/
def State.starve (s : State) (c : Nat) : State :=
  if s.fld (cA c CORE_SP_STARVE) 15 0 = 0 then s else (s.setBit (cA c CORE_SP_STARVE) 16 true).raiseCore c 5

/-- The state of a core as its register shows it (R98). -/
def State.setPower (s : State) (c n : Nat) : State := (s.modCore c fun k => { k with power := n }).setFld (cA c CORE_STATE) 1 0 n

end Sys2Proof.Machine
end

