-- ==== Sys2Proof/Machine/UpdOps.lean ====
section
/-! DEFINITION. The update unit (R341 to R362): its commands and refusals, lent engines, the exact updates of its four rules,
provisional updates, reconciliation and drift. -/

namespace Sys2Proof.Machine

/-! ### Commands (R356, R357) -/

namespace UpdCmd

def word (k : UpdCmd) (i : Nat) : W64 := BitVec.ofNat 64 (ofLeBytes ((k.bytes.drop (8 * i)).take 8))
def op (k : UpdCmd) : Nat := bits (k.word 0) 7 0
def flags (k : UpdCmd) : Nat := bits (k.word 0) 15 8
def tensor (k : UpdCmd) : Nat := bits (k.word 0) 25 16
def count (k : UpdCmd) : Nat := bits (k.word 0) 47 32
def step (k : UpdCmd) : W32 := (k.word 1).setWidth 32
def cmdId (k : UpdCmd) : Nat := bits (k.word 3) 31 0
def known (k : UpdCmd) : Bool := k.op ∈ [1, 2, 0x10, 0x11, 0x12, 0x13]
def tensors (k : UpdCmd) : List Nat := (List.range k.count).map (k.tensor + ·)
/-- What refuses a command whatever its tensors: reasons 1 and 2. -/
def reason (k : UpdCmd) : Nat :=
  let reserved : Bool := bits (k.word 0) 63 48 ≠ 0 || bits (k.word 0) 31 26 ≠ 0 || bits (k.word 1) 63 32 ≠ 0
    || bits (k.word 3) 63 32 ≠ 0 || (k.bytes.drop 32).any (· ≠ 0) || decide (1 < k.flags) || (k.flags = 1 && k.op ≠ 0x12)
    || (if k.op = 1 then bits (k.word 2) 63 29 ≠ 0 || bits (k.word 2) 15 13 ≠ 0 else k.op ≠ 2 && k.word 2 ≠ 0)
  if !k.known || reserved then 1
  else if 0x10 ≤ k.op ∧ (k.count = 0 ∨ 1024 < k.tensor + k.count) then 2 else 0

end UpdCmd

/-- The first waiting command of an operation, or of none that exists: its place at the unit. -/
def State.updFind (s : State) (t op : Nat) : Option (UpdCmd × Nat) :=
  if !s.bit (sA t UPD_STATUS) 0 then none
  else
    let l := (s.stack t).updIn
    match l.findIdx? fun k => k.op = op || !k.known with
    | some i => (l[i]?).map fun k => (k, i)
    | none => none

def State.updDrop (s : State) (t i : Nat) : State := s.modStack t fun k => { k with updIn := k.updIn.eraseIdx i }

/-- The answer to the UDD that sent a command. -/
def State.updAnswer (s : State) (t core : Nat) (tag : W16) (status : Nat) : State :=
  s.injectAt (t * 64) { Packet.blank 6 core (t * 64) tag with status := status }

/-- A refusal (R357): UPD_FAULT, and status REFUSED. -/
def State.updRefuse (s : State) (t i : Nat) (k : UpdCmd) (tensor reason : Nat) : State :=
  let v := BitVec.ofNat 64 (k.cmdId * 2 ^ 32 + tensor * 2 ^ 22 + k.op * 2 ^ 8 + reason * 2 ^ 4 + 1)
  ((s.setReg (sA t UPD_FAULT) v).updDrop t i).updAnswer t k.core k.tag 1

def State.updDone (s : State) (t i : Nat) (k : UpdCmd) : State := (s.updDrop t i).updAnswer t k.core k.tag 0

/-- A command of an operation taken up: refused by reasons 1 and 2, else its effect. -/
def State.updTake (s : State) (t op : Nat) (f : State → UpdCmd → Nat → State) : State :=
  match s.updFind t op with
  | none => s
  | some (k, i) => if k.reason ≠ 0 then s.updRefuse t i k k.tensor k.reason else f s k i

/-! ### Lends (R349) -/

def State.modLend (s : State) (t core : Nat) (f : Lend → Lend) : State :=
  s.modStack t fun k => { k with lends := k.lends.map fun x => if x.core = core then f x else x }

/-- LEND: the window is checked; a core already lent waits for its RELEASE. -/
def State.updLend (s : State) (t : Nat) : State :=
  s.updTake t 1 fun s k i =>
    let lo := bits (k.word 2) 12 0
    let hi := bits (k.word 2) 28 16
    let n := (hi + 1 - lo) * 256
    if (s.stack t).lends.any (·.core = k.core) then s
    else if hi < lo ∨ 0x1BFF < hi ∨ !s.pitchOk k.core 3 (lo * 256) n false ∨ !s.pitchOk k.core 3 (lo * 256) n true then
      s.updRefuse t i k 0 6
    else
      (s.updDrop t i).modStack t fun q => { q with lends := q.lends ++ [⟨k.core, lo, hi, k.tag, false⟩] }

/-- The lend takes effect once every engine operation issued before the LEND has settled. -/
def State.lendEffect (s : State) (c : Nat) : State :=
  let t := c / 64
  match (s.stack t).lends.find? fun x => x.core = c && !x.effective with
  | none => s
  | some x =>
    let before := (s.core c).tally.takeWhile fun e => e.tag ≠ x.tag
    if before.any fun e => decide (e.queue ≤ 1) && !(e.state == .failed) then s
    else ((s.modLend t c fun y => { y with effective := true }).modCore c fun k =>
      { k with lentTo := some (x.base * 256) }).setBit (sA t UPD_LENT) (c % 64) true

/-- The end of a core's lend: its LEND completes. -/
def State.endLend (s : State) (t c : Nat) : State :=
  match (s.stack t).lends.find? fun x => x.core = c with
  | none => s
  | some x =>
    let s := (s.modStack t fun k => { k with lends := k.lends.filter fun y => y.core ≠ c }).modCore c fun k =>
      { k with lentTo := none }
    (s.setBit (sA t UPD_LENT) (c % 64) false).updAnswer t c x.tag 0

/-- RELEASE: the lends named end. -/
def State.updRelease (s : State) (t : Nat) : State :=
  s.updTake t 2 fun s k i =>
    let named := (List.range 64).filter fun v => (k.word 2).getLsbD v
    (named.foldl (fun s v => s.endLend t (t * 64 + v)) s).updDone t i k

/-- Cores lent to a unit (R349). -/
def State.lentCores (s : State) (t : Nat) : Nat := ((s.stack t).lends.filter (·.effective)).length

/-! ### The tensor table (R342, R343) -/

def State.tableAt (s : State) (t index : Nat) : Nat := (s.fld (sA t UPD_TABLE) 45 16) * 2 ^ 16 + 64 * index

/-- Bytes of memory as the unit reads them. -/
def State.unitRead (s : State) (a n : Nat) : State × List PByte := s.readDev a n

/-- Whether the unit's reads and writes of spans of memory are held as any access is: by a lock, repair, clear or zero fill (R258, R260,
R261, R268); DESIGN CHOICE (log entry 140): while a channel they reach is down, too. -/
def State.unitHeld (s : State) (reads writes : List (Nat × Nat)) : Bool :=
  reads.any (s.mustWait false) || writes.any (s.mustWait true) || (reads ++ writes).any fun p => match classify p.1 with
    | .slow _ => (unitsOf 4096 p.1 p.2).any s.memoryDown
    | _ => false

/-- An entry's eight words. -/
def State.readTable (s : State) (t index : Nat) : State × List W64 :=
  let got := s.unitRead (s.tableAt t index) 64
  let s := got.1
  let ps := got.2
  (s, (List.range 8).map fun i => BitVec.ofNat 64 (ofLeBytes ((dataOf ps).drop (8 * i) |>.take 8)))

/-- Words 6 and 7 of an entry written, the program's field of word 7 as it stands. -/
def State.writeTable (s : State) (t : Nat) (x : Tensor) (opened : Bool) : State :=
  let got := s.readTable t x.index
  let s := got.1
  let ws := got.2
  let w6 := x.applied.toNat * 2 ^ 32 + x.closed.toNat
  let w7 := x.drift * 2 ^ 56 + bits (ws.getD 7 0) 55 40 * 2 ^ 40 + x.since % 256 * 2 ^ 32 + (if x.partial_ then 4 else 0)
    + (if x.failed then 2 else 0) + if opened then 1 else 0
  (s.writeFast (s.tableAt t x.index + 48) (plain (leBytes 8 w6 ++ leBytes 8 w7))).1

/-- THRESH and RECON of an entry. -/
def State.tensorLimits (s : State) (t index : Nat) : State × Nat × Nat :=
  let got := s.readTable t index
  let s := got.1
  let ws := got.2
  let w := ws.getD 7 0
  (s, bits w 55 48, bits w 47 40)

/-- Bytes of the working copy: elements and scales. -/
def Tensor.elemBits (x : Tensor) : Nat := if x.wfmt = 0 then 4 else 8
def Tensor.format (x : Tensor) : Fmt := if x.wfmt = 0 then .e2m1 else if x.wfmt = 3 then .e4m3 else .e5m2
def Tensor.workBytes (x : Tensor) : Nat := x.size * x.elemBits / 8
/-- Its 4 KiB chunks of master (R348). -/
def Tensor.chunks (x : Tensor) : Nat := (x.size + 1023) / 1024

/-- A valid entry (R343), its slots for a delay D. -/
def tensorOk (t d : Nat) (x : Tensor) : Bool :=
  let own (lo n : Nat) : Bool := inFast lo (lo + n) && lo / 2 ^ 37 = t && (lo + n - 1) / 2 ^ 37 = t
  let slots := (d + 1) * x.slotSize
  let moment := if x.rule = 2 then 4 * (x.rows + x.cols) else 2 * x.size
  let precond := 8 * (x.rows * x.rows + x.cols * x.cols)
  let w7 := x.word 7
  decide (x.rule ≤ 3) && (x.wfmt = 0 || x.wfmt = 3 || x.wfmt = 4) && x.cols % 32 = 0
    && own x.work (x.workBytes + x.size / 32) && own x.grad slots && x.grad / 2 ^ 31 = (x.grad + slots - 1) / 2 ^ 31
    && inSlow x.master (x.master + 4 * x.size) && inSlow x.moment (x.moment + moment) && x.grad % 4096 = 0
    && x.master % 4096 = 0 && x.moment % 4096 = 0 && x.precond % 4096 = 0
    && (if x.rule = 3 then inSlow x.precond (x.precond + precond) else x.precond = 0)
    && (x.rule ≠ 1 || decide (min x.rows x.cols ≤ 4096)) && (x.rule ≠ 3 || (decide (x.rows ≤ 4096) && decide (x.cols ≤ 4096)))
    && (x.word 0).getLsbD 63 = false && bits (x.word 0) 52 46 = 0 && bits (x.word 1) 31 0 = 0
    && ((List.range 4).all fun i => bits (x.word (2 + i)) 63 46 = 0) && bits w7 31 3 = 0

/-- A tensor as OPEN makes it. -/
def newTensor (index : Nat) (ws : List W64) (step : W32) : Tensor :=
  { index := index, words := ws, applied := step - 1, closed := step - 1, drift := 0, since := 0, failed := false,
    partial_ := false, refreshed := false, slots := [], stalled := [] }

/-- A tensor that is open: one that failed may be opened again. -/
def State.tensorOpen (s : State) (t index : Nat) : Bool := match s.tensor t index with
  | some x => !x.failed
  | none => false

/-- The reason a failed tensor refuses commands with: 5 where its rule set's ITER refused the exact update, else 7. -/
def Tensor.failure (x : Tensor) : Nat := if x.partial_ then 7 else 5

/-- OPEN: every entry is checked before any changes. -/
def State.updOpen (s : State) (t : Nat) : State :=
  s.updTake t 0x10 fun s k i =>
    let table := k.tensors.map fun n => (s.tableAt t n, 64)
    if s.unitHeld table table then s
    else
    let got := k.tensors.foldl (fun (acc : State × List Tensor) n =>
      let got := acc.1.readTable t n
      let s := got.1
      let ws := got.2
      (s, acc.2 ++ [newTensor n ws k.step])) (s, [])
    let s := got.1
    let es := got.2
    match es.find? fun x => s.tensorOpen t x.index || !tensorOk t (s.updDelay t) x with
    | some x => s.updRefuse t i k x.index (if s.tensorOpen t x.index then 3 else 5)
    | none =>
      let s := es.foldl (fun s x =>
        let s := s.modStack t fun q => { q with tensors := q.tensors.filter (·.index ≠ x.index) ++ [x] }
        let s := (List.range (s.updDelay t + 1)).foldl (fun s p => s.clearSlot x p true) s
        s.writeTable t x true) s
      s.updDone t i k

/-! ### Values of a tensor -/

/-- A rule set's register. -/
def State.ruleReg (s : State) (t set off : Nat) : W32 := (s.reg (sA t UPD_LR + 0x80 * set + off)).setWidth 32

/-- FP32 values of memory. -/
def State.readF32 (s : State) (a n : Nat) : State × List PVal :=
  let got := s.unitRead a (4 * n)
  let s := got.1
  let ps := got.2
  (s, (elemsOf ps 32 n).map fun e => (BitVec.ofNat 32 e.1, e.2))

def packVals (vs : List PVal) : List PByte := packPoison 32 (vs.map fun v => (v.1.toNat, v.2))

def State.writeVec (s : State) (a : Nat) (vs : List PVal) : State := (s.writeDev a (packVals vs)).1

/-- A slot's content: a segment that no contribution reached holds +0. -/
def State.readSlot (s : State) (x : Tensor) (place : Nat) : State × List PVal :=
  let a := x.slotAt place
  (List.range ((4 * x.size + 4095) / 4096)).foldl (fun (acc : State × List PVal) k =>
    let n := min 1024 (x.size - 1024 * k)
    let here := a + 4096 * k
    if (acc.1.seg (here / 4096)).gen.isNone then (acc.1, acc.2 ++ List.replicate n (0, false))
    else
      let got := acc.1.readF32 here n
      let s := got.1
      let vs := got.2
      (s, acc.2 ++ vs)) (s, [])

/-- The working copy as FP32 values (R43), each poisoned with its block. -/
def State.readWork (s : State) (x : Tensor) : State × List PVal :=
  let got := s.unitRead x.work x.workBytes
  let s := got.1
  let es := got.2
  let got := s.unitRead (x.work + x.workBytes) (x.size / 32)
  let s := got.1
  let ss := got.2
  let scales := elemsOf ss 8 (x.size / 32)
  (s, (elemsOf es x.elemBits x.size).mapIdx fun i e =>
    let sc := scales.getD (i / 32) (127, false)
    (elemToF32 x.format sc.1 e.1, e.2 || sc.2))

/-- Values written back as blocks with computed scale, saturating, stochastically rounded (R40, R44 to R46, R353). -/
def State.writeWork (s : State) (t : Nat) (x : Tensor) (vs : List PVal) (step : W32) : State :=
  let seed := s.reg (sA t UPD_LR + 0x80 * x.ruleSet + 0x20)
  let f := x.format
  let w := x.elemBits
  let outs := (chunks32 vs).mapIdx fun b blk =>
    let addr := x.work + b * 32 * w / 8
    let o := narrowBlock f true none (fun i => .stochastic (srBits seed (srKey addr i) step)) (blk.map fun v => f32Val v.1)
    (o, blk.any (·.2))
  let s := (s.writeDev x.work (packPoison w (outs.flatMap fun o => o.1.elems.map (·, o.2)))).1
  (s.writeDev (x.work + x.workBytes) (packPoison 8 (outs.map fun o => (o.1.scale, o.2)))).1

/-- fma(−PLR, G, x), element by element. -/
def provStep (plr : W32) (g x : List PVal) : List PVal :=
  List.zipWith (fun (a b : PVal) => (ffma (fneg plr) a.1 b.1, a.2 || b.2)) g x

/-- The provisional update of a step (R353). -/
def State.provisional (s : State) (t : Nat) (x : Tensor) (place : Nat) (step : W32) : State :=
  let got := s.readSlot x place
  let s := got.1
  let g := got.2
  let got := s.readWork x
  let s := got.1
  let w := got.2
  s.writeWork t x (provStep (s.ruleReg t x.ruleSet 4) g w) (step * 2)

/-- The re-derived value (R354): the master, then every closed slot whose exact update has not landed. -/
def State.rederive (s : State) (t : Nat) (x : Tensor) : State × List PVal :=
  let got := s.readF32 x.master x.size
  let s := got.1
  let m := got.2
  (x.slots.filter fun q => q.closed && !q.landed).foldl (fun (acc : State × List PVal) q =>
    let got := acc.1.readSlot x q.place
    let s := got.1
    let g := got.2
    (s, provStep (s.ruleReg t x.ruleSet 4) g acc.2)) (s, m)

/-- |a − b| / u, rounded down, saturated at 255; none where a value is NaN, of which R355 states no drift. -/
def driftOf (f : Fmt) (a : W32) (scale bits_ : Nat) : Option Nat :=
  let b := (f.val bits_).scale ((scale : Int) - 127)
  match (f32Val a).add (match b with
    | .fin n m e => .fin (!n) m e
    | v => v) with
  | .fin _ m e =>
    -- the grid step of the element's binade, the subnormal step below the least normal
    let u := (f.magOf (bits_ % 2 ^ (f.width - 1))).2 + ((scale : Int) - 127)
    some (min 255 (if 0 ≤ e - u then m * 2 ^ (e - u).toNat else m / 2 ^ (u - e).toNat))
  | .inf _ => some 255
  | .nan => none

/-- The tensor's drift (R355). -/
def State.drift (s : State) (x : Tensor) (work derived : List PVal) : State × Nat :=
  let f := x.format
  let ds := (List.zip (chunks32 work) (chunks32 derived)).flatMap fun p =>
    let o := narrowBlock f true none (fun _ => .nearest) (p.2.map fun v => f32Val v.1)
    (List.zip p.1 o.elems).map fun q => if o.scale = 0xFF then none else driftOf f q.1.1 o.scale q.2
  ds.foldl (fun (acc : State × Nat) d => match d with
    | some n => (acc.1, max acc.2 n)
    | none => (acc.1.takeFree.2, max acc.2 (acc.1.takeFree.1.toNat % 256))) (s, 0)

/-! ### Matrix arithmetic on lent engines (R345, R347, R350) -/

/-- A matrix: rows of values. -/
abbrev Mat := List (List W32)

def Mat.transpose (m : Mat) : Mat := (List.range (m.headD []).length).map fun j => m.map fun r => r.getD j 0
def Mat.map2 (f : W32 → W32 → W32) (a b : Mat) : Mat := List.zipWith (fun x y => List.zipWith f x y) a b
def Mat.scaleBy (k : W32) (m : Mat) : Mat := m.map fun r => r.map (fmul k)
def Mat.ident (n : Nat) : Mat := (List.range n).map fun i => (List.range n).map fun j => if i = j then 0x3F800000 else 0

/-- One output of an engine product and the flags it sets: BF16 operands in groups of 32 along K, in ascending order (R35, R36,
R48). -/
def dotBf16 (a b : List W32) : W32 × AFlags :=
  let pairs := List.zipWith (fun x y => (Fmt.bf16.val (bf16Of x).toNat, Fmt.bf16.val (bf16Of y).toNat)) a b
  let zero : Val := .fin false 0 0
  (chunks32 pairs).foldl (fun acc g =>
    let ops := g ++ List.replicate (32 - g.length) (zero, zero)
    let v := groupValue .bf16 ops
    let out := fusedAdd acc.1 v
    (out, acc.2 ||| stepFlags acc.1 false ops v out)) (0, 0)

/-- The engine that computes column j of a product: its columns are split by presented width, the engines taken in order, round and
round (R350). -/
def ownerOf (widths : List Nat) (j : Nat) : Nat :=
  let total := widths.foldl (· + ·) 0
  let j := if total = 0 then 0 else j % total
  ((List.range widths.length).find? fun i => decide (j < (widths.take (i + 1)).foldl (· + ·) 0)).getD 0

/-- An engine lent, in an exact update: its presented width, and the flags and block steps of the products so far. -/
structure Hand where
  width : Nat
  flags : AFlags
  blocks : Nat
  deriving DecidableEq, Repr

abbrev Crew := List Hand

/-- A product on the engines lent. DESIGN CHOICE (log entry 118): the columns of the right factor are stationary. -/
def Mat.mul (w : Crew) (a b : Mat) : Mat × Crew :=
  let cols := Mat.transpose b
  let out := a.map fun r => cols.map fun c => dotBf16 r c
  let owner := (List.range cols.length).map (ownerOf (w.map (·.width)))
  let flags (i : Nat) (f : AFlags) : AFlags := out.foldl (fun f r =>
    (List.zip r owner).foldl (fun f x => if x.2 = i then f ||| x.1.2 else f) f) f
  let tiles (i : Nat) : Nat := ((List.range cols.length).filter fun j =>
    owner.getD j 0 = i && (j = 0 || owner.getD (j - 1) 0 ≠ i)).length
  let steps := a.length * ((b.length + 31) / 32)
  (out.map fun r => r.map (·.1), w.mapIdx fun i h => ⟨h.width, flags i h.flags, h.blocks + steps * tiles i⟩)

/-- k × A + B, by fma from the left term. -/
def Mat.lin (k : W32) (a b : Mat) : Mat := Mat.map2 (fun x y => ffma k x y) a b

/-- The sum of squares: rows in the order of R155, then the row sums in ascending order. -/
def Mat.sumsq (m : Mat) : W32 := (m.map fun r => rowSum (fun p a => ffma a a p) r).foldl fadd 0

/-- NS(M) of R345, with a rule set's coefficients and ε. -/
def Mat.ns (w : Crew) (m : Mat) (iter : Nat) (coef : Nat → W32 × W32 × W32) (eps : W32) : Mat × Crew :=
  let flip := decide ((m.headD []).length < m.length)
  let x0 := if flip then m.transpose else m
  let x0 := Mat.scaleBy (frcpRoot x0.sumsq eps) x0
  let x := (List.range iter).foldl (fun (x : Mat × Crew) i =>
    let got := coef i
    let ca := got.1
    let cb := got.2.1
    let cc := got.2.2
    let a := Mat.mul x.2 x.1 x.1.transpose
    let sq := Mat.mul a.2 a.1 a.1
    let b := Mat.lin cb a.1 (Mat.scaleBy cc sq.1)
    let bx := Mat.mul sq.2 b x.1
    (Mat.lin ca x.1 bx.1, bx.2)) (x0, w)
  (if flip then x.1.transpose else x.1, x.2)

/-- The inverse fourth root of a statistic (R347). DESIGN CHOICE (log entry 117): ‖N‖ is the Frobenius norm, its squares summed in
the order of R345; roots of it are rounded once. -/
def Mat.invRoot (w : Crew) (n : Mat) (iter : Nat) (eps : W32) : Mat × Crew :=
  let sq := n.sumsq
  let z := Mat.lin (frsqrt sq) n (Mat.scaleBy eps (Mat.ident n.length))
  let r := (List.range iter).foldl (fun (p : Mat × Mat × Crew) _ =>
    let t := Mat.scaleBy 0x3E800000 (Mat.lin 0x40A00000 (Mat.ident n.length) (p.2.1.map fun r => r.map fneg))
    let xt := Mat.mul p.2.2 p.1 t
    let t2 := Mat.mul xt.2 t t
    let t4 := Mat.mul t2.2 t2.1 t2.1
    let m := Mat.mul t4.2 t4.1 p.2.1
    (xt.1, m)) (Mat.ident n.length, z, w)
  (Mat.scaleBy (frroot8 sq) r.1, r.2.2)

/-! ### Exact updates (R344 to R348) -/

/-- What an exact update works with. -/
structure ExactIn where
  lr : W32
  beta1 : W32
  beta2 : W32
  decay : W32
  gamma : W32
  eps : W32
  iter : Nat
  refresh : Nat
  seed : W64
  step : W32
  coefs : List (W32 × W32 × W32)
  deriving DecidableEq, Repr

/-- The 32 words of a rule set (R344, R362). -/
def State.ruleWords (s : State) (t set : Nat) : List W32 :=
  (List.range 32).map fun i =>
    if i = 8 ∨ i = 9 then (s.reg (sA t UPD_LR + 0x80 * set + 0x20) >>> (32 * (i - 8))).setWidth 32 else s.ruleReg t set (4 * i)

def exactIn (rules : List W32) (step : W32) : ExactIn :=
  let r (off : Nat) := rules.getD (off / 4) 0
  let it := r 0x1C
  { lr := r 0, beta1 := r 8, beta2 := r 0xC, decay := r 0x10, gamma := r 0x14, eps := r 0x18, iter := it.toNat % 8,
    refresh := max 1 (it.toNat / 65536), seed := r 0x24 ++ r 0x20, step := step,
    coefs := (List.range 7).map fun i => (r (0x28 + 12 * i), r (0x2C + 12 * i), r (0x30 + 12 * i)) }

def ExactIn.coef (k : ExactIn) (i : Nat) : W32 × W32 × W32 := k.coefs.getD i (0, 0, 0)

def toMat (cols : Nat) (vs : List PVal) : Mat :=
  (List.range (vs.length / max 1 cols)).map fun r => ((vs.drop (r * cols)).take cols).map (·.1)

/-- A W32 of a count, exactly as FP32 rounds it. -/
def ofCount (n : Nat) : W32 := f32Round false n 0

/-- RN((1 − β2) x): one rounding. -/
def oneMinus (b x : W32) : W32 := f32OfVal ((Val.add (.fin false 1 0) (f32Val (fneg b))).mul (f32Val x))

/-- The new momentum, rounded stochastically to BF16 (R344, R348), with the values it is used as. -/
def momentum (k : ExactIn) (addr : Nat) (mu g : List PVal) : List PElem × List PVal :=
  let out := (List.zip mu g).mapIdx fun i p =>
    let v := ffma k.beta1 p.1.1 p.2.1
    let n := narrowBf16 false (.stochastic (srBits k.seed (srKey (addr + 2 * i) 0) (k.step * 2 + 1))) (f32Val v)
    (n.bits, p.1.2 || p.2.2)
  (out, out.map fun e => (BitVec.ofNat 32 (e.1 * 65536), e.2))

/-- w ← fma(−RN(η γ), U, fma(−RN(η λ), w, w)). -/
def applyU (eta gamma decay : W32) (w u : List PVal) : List PVal :=
  List.zipWith (fun (a b : PVal) =>
    (ffma (fneg (fmul eta gamma)) b.1 (ffma (fneg (fmul eta decay)) a.1 a.1), a.2 || b.2)) w u

/-- The matrix of a rule as a flat list, each element poisoned as its row and column say (R216). -/
def flatBy (m : Mat) (bad : Nat → Nat → Bool) : List PVal :=
  (m.zipIdx.map fun r => r.1.zipIdx.map fun x => (x.1, bad r.2 x.2)).flatten
/-- The same, with one mark for all. -/
def flat (m : Mat) (bad : Bool) : List PVal := flatBy m fun _ _ => bad

/-- Whether row i, or column j, of a matrix of values holds a poisoned one. -/
def badRow (cols : Nat) (vs : List PVal) (i : Nat) : Bool := ((vs.drop (i * cols)).take cols).any (·.2)
def badCol (cols : Nat) (vs : List PVal) (j : Nat) : Bool := (vs.mapIdx fun i v => v.2 && i % cols == j).any id

/-- Momentum read as BF16. -/
def State.readMoment (s : State) (x : Tensor) : State × List PVal :=
  let got := s.unitRead x.moment (2 * x.size)
  let s := got.1
  let ps := got.2
  (s, (elemsOf ps 16 x.size).map fun e => (BitVec.ofNat 32 (e.1 * 65536), e.2))

/-- Rules 0 and 1: state, the new master and momentum bytes to write at MOMENT. -/
def State.ruleMomentum (s : State) (x : Tensor) (k : ExactIn) (eta : W32) (g w : List PVal) (crew : Crew) :
    State × Crew × List PVal × List PByte :=
  let got := s.readMoment x
  let s := got.1
  let mu := got.2
  let got := momentum k x.moment mu g
  let enc := got.1
  let m := got.2
  let got := if x.rule = 0 then
      (List.zipWith (fun (a b : PVal) => (ffma (fneg eta) (ffma k.decay a.1 b.1) a.1, a.2 || b.2)) w m, crew)
    else
      let u := Mat.ns crew (toMat x.cols m) k.iter k.coef k.eps
      (applyU eta k.gamma k.decay w (flat u.1 (m.any (·.2))), u.2)
  (s, got.2, got.1, packPoison 16 enc)

/-- Rule 2 (R346): row accumulators, then column accumulators, at MOMENT. An element is poisoned by its row's and column's
accumulators and, through ρ, by every row's (R216). -/
def State.ruleFactored (s : State) (x : Tensor) (k : ExactIn) (eta : W32) (g w : List PVal) : State × List PVal × List PByte :=
  let got := s.readF32 x.moment (x.rows + x.cols)
  let s := got.1
  let rc := got.2
  let badR (i : Nat) : Bool := (rc.getD i (0, false)).2 || badRow x.cols g i
  let badC (j : Nat) : Bool := (rc.getD (x.rows + j) (0, false)).2 || badCol x.cols g j
  let badRho := (List.range x.rows).any badR
  let gm := toMat x.cols g
  let q : Mat := gm.map fun r => r.map fun v => ffma v v k.eps
  let sum (l : List W32) : W32 := l.foldl fadd 0
  let r := (List.zip (rc.take x.rows) q).map fun p =>
    ffma k.beta2 p.1.1 (oneMinus k.beta2 (fmul (sum p.2) (frcp (ofCount x.cols))))
  let c := (List.zip (rc.drop x.rows) q.transpose).map fun p =>
    ffma k.beta2 p.1.1 (oneMinus k.beta2 (fmul (sum p.2) (frcp (ofCount x.rows))))
  let rho := fmul (sum r) (frcp (ofCount x.rows))
  let u : Mat := (List.zip r gm).map fun p => (List.zip c p.2).map fun y => fmul y.2 (frsqrt (fdiv (fmul p.1 y.1) rho))
  let w' := List.zipWith (fun (a b : PVal) => (ffma (fneg eta) (ffma k.decay a.1 b.1) a.1, a.2 || b.2)) w
    (flatBy u fun _ j => badRho || badC j)
  (s, w', packVals ((r.mapIdx fun i v => (v, badR i)) ++ c.mapIdx fun j v => (v, badC j)))

/-- Rule 3 (R347): L, R, P_L and P_R one after the other at PRECOND. The refreshed or kept roots are written back. -/
def State.ruleKronecker (s : State) (x : Tensor) (k : ExactIn) (eta : W32) (g w : List PVal) (crew : Crew) :
    State × Crew × List PVal × List PByte × List PByte :=
  let n := x.rows
  let m := x.cols
  let got := s.readMoment x
  let s := got.1
  let mu := got.2
  let got := momentum k x.moment mu g
  let enc := got.1
  let mom := got.2
  let got := s.readF32 x.precond (n * n)
  let s := got.1
  let l0 := got.2
  let got := s.readF32 (x.precond + 4 * n * n) (m * m)
  let s := got.1
  let r0 := got.2
  let got := s.readF32 (x.precond + 4 * (n * n + m * m)) (n * n)
  let s := got.1
  let pl0 := got.2
  let got := s.readF32 (x.precond + 4 * (2 * n * n + m * m)) (m * m)
  let s := got.1
  let pr0 := got.2
  let gm := toMat m g
  let gg := Mat.mul crew gm gm.transpose
  let hh := Mat.mul gg.2 gm.transpose gm
  let l := flatBy (Mat.lin k.beta2 (toMat n l0) gg.1) fun i j => (l0.getD (i * n + j) (0, false)).2 || badRow m g i || badRow m g j
  let r := flatBy (Mat.lin k.beta2 (toMat m r0) hh.1) fun i j => (r0.getD (i * m + j) (0, false)).2 || badCol m g i || badCol m g j
  let fresh := decide (k.step.toNat % k.refresh = 0)
  let root (w : Crew) (size : Nat) (v p0 : List PVal) : List PVal × Crew :=
    if fresh then
      let q := Mat.invRoot w (toMat size v) k.iter k.eps
      (flat q.1 (v.any (·.2)), q.2)
    else (if x.refreshed then p0 else flat (Mat.ident size) false, w)
  let pl := root hh.2 n l pl0
  let pr := root pl.2 m r pr0
  let v := Mat.mul pr.2 (toMat n pl.1) (toMat m mom)
  let u := Mat.mul v.2 v.1 (toMat m pr.1)
  let w' := applyU eta 0x3F800000 k.decay w
    (flatBy u.1 fun i j => badRow n pl.1 i || mom.any (·.2) || badCol m pr.1 j)
  let keep := if fresh then pl.1 ++ pr.1 else pl0 ++ pr0
  (s, u.2, w', packPoison 16 enc, packVals (l ++ r ++ keep))

/-- Master chunks and the state of an exact update written, the first n of them (R348). -/
def State.landChunks (s : State) (x : Tensor) (w : List PVal) (n : Nat) : State := s.writeVec x.master (w.take (1024 * n))

/-- The accumulators of rule 2 that belong to the first n chunks of master: DESIGN CHOICE (log entry 119), those whose row's or
column's first element lies there. -/
def Tensor.factoredPart (x : Tensor) (n : Nat) (ms : List PByte) : List (Nat × List PByte) :=
  let rows := min x.rows ((1024 * n + x.cols - 1) / x.cols)
  let cols := min x.cols (1024 * n)
  [(x.moment, ms.take (4 * rows)), (x.moment + 4 * x.rows, (ms.drop (4 * x.rows)).take (4 * cols))]

/-- The exact update's effect on memory (R344, R348), of the chunks given or all: what its products made of the crew, and whether it
met poison. -/
def State.applyExact (s : State) (x : Tensor) (q : Slot) (k : ExactIn) (crew : Crew) (chunks : Option Nat) : State × Crew × Bool :=
  let got := s.readSlot x q.place
  let s := got.1
  let g := got.2
  let g := if q.folds = 2 then g.map fun v => (fmul v.1 0x3F000000, v.2) else g
  let eta := if q.folds = 2 then fmul k.lr 0x40000000 else k.lr
  let got := s.readF32 x.master x.size
  let s := got.1
  let w := got.2
  let write (s : State) (w' : List PVal) (ms : List PByte) : State × Bool :=
    let n := chunks.getD x.chunks
    let parts := if x.rule = 2 then x.factoredPart n ms else [(x.moment, ms.take (2048 * n))]
    (parts.foldl (fun s p => (s.writeDev p.1 p.2).1) (s.landChunks x w' n), w'.any (·.2) || anyPoison ms)
  match x.rule with
  | 2 =>
    let got := s.ruleFactored x k eta g w
    let r := write got.1 got.2.1 got.2.2
    (r.1, crew, r.2)
  | 3 =>
    let got := s.ruleKronecker x k eta g w crew
    let ps := got.2.2.2.2
    let r := write (if chunks.isSome then got.1 else (got.1.writeDev x.precond ps).1) got.2.2.1 got.2.2.2.1
    (r.1, got.2.1, r.2 || anyPoison ps)
  | _ =>
    let got := s.ruleMomentum x k eta g w crew
    let r := write got.1 got.2.2.1 got.2.2.2
    (r.1, got.2.1, r.2)

/-- The payload of class 0x10 and 0x11, code 8 (R528). -/
def exactPayload (index : Nat) (step : W32) : Nat := index + step.toNat * 2 ^ 16

def State.dropExact (s : State) (t : Nat) : State := s.modStack t fun k => { k with exacts := k.exacts.drop 1 }

/-- An exact update that failed (R358): the entry FAILED and PARTIAL. -/
def State.exactFails (s : State) (t : Nat) (x : Tensor) (step : W32) : State :=
  let y := { x with failed := true, partial_ := true }
  (((s.dropExact t).modTensor t x.index fun _ => y).writeTable t y true).evStack t 0x11 8 (exactPayload x.index step)

/-- The engines lent, in the order that output tiles are assigned to them (R350). -/
def State.crew (s : State) (t : Nat) : List (Nat × Bool) :=
  (((List.range 64).map (t * 64 + ·)).filter fun c => (s.stack t).lends.any fun l => l.core = c && l.effective).flatMap
    fun c => [(c, false), (c, true)]

def State.crewHands (s : State) (t : Nat) : Crew := (s.crew t).map fun e => ⟨s.engWidth e.1 e.2, 0, 0⟩

/-- The flags and block steps of the products shown at the engines that computed them (R48, R75). -/
def State.crewDone (s : State) (t : Nat) (w : Crew) : State :=
  (List.zip (s.crew t) w).foldl (fun s p =>
    (s.orReg (eA p.1.1 p.1.2 ENG0_FLAGS) (p.2.flags.setWidth 64)).count (eA p.1.1 p.1.2 ENG0_BLOCKS) p.2.blocks) s

/-- Tiles moved into and out of the lend windows over the hauls (R349, R250), each access checked as master 3: false where one fails.
What stands in a window meanwhile no rule says (log entry 123). -/
def State.windowMoves (s : State) (t : Nat) : State × Bool :=
  ((s.stack t).lends.filter (·.effective)).foldl (fun (acc : State × Bool) l =>
    let s := acc.1
    let n := (l.limit + 1 - l.base) * 256
    if !acc.2 then acc
    else if (s.vault l.core).haulDown then (s, false)
    else match s.pitchGap l.core 3 (l.base * 256) n true, s.pitchGap l.core 3 (l.base * 256) n false with
      | some off, _ => (s.pitchFail l.core 3 off true 0, false)
      | none, some off => (s.pitchFail l.core 3 off false 0, false)
      | none, none => ((s.haulTurn l.core false).haulTurn l.core true, true)) (s, true)

/-- A mismatch in an operation on a lent engine (R349, R358): its tally entry is replayed (R209), then freed, or where it fails again
the operation fails (R212); true where it failed. -/
def State.lentFault (s : State) (t : Nat) (f : LentFault) : State × Bool :=
  match (s.crew t)[2 * f.lend + if f.engine then 1 else 0]? with
  | none => (s, false)
  | some (c, g) =>
    let e := { s.newEntry c 0x02 (if g then 1 else 0) 0 ⟨0, 0, 0, 0, 0, 0, 0⟩ with unit := true, state := .running }
    let m : Mismatch := ⟨f.step.adder, f.step.row, f.step.block, f.step.paths.toNat,
      (List.range 8).filter fun i => f.step.paths.getLsbD i⟩
    let s := s.modCore c fun k => { k with tally := k.tally ++ [e], gens := smSet 0 k.gens e.slot e.gen }
    let s := s.engineFault c e (s.engWidth c g) m
    if f.again then (s.engineFault c e (s.engWidth c g) m, true) else (s.freeEntry c e.slot, false)

/-- The first exact update of the unit's queue started (R344): its slot marked, its rule set copied. -/
def State.exactStart (s : State) (t : Nat) (e : Exact) (x : Tensor) (q : Slot) : State :=
  (s.modStack t fun k => { k with exacts := { e with rules := some (e.rules.getD (s.ruleWords t x.ruleSet)) } :: k.exacts.drop 1 }).modTensor
    t x.index fun y => y.modSlot q.place fun z => { z with started := true }

/-- An exact update that may run to its end, on the engines lent where it has a matrix part. Each chunk of `parity` meets an error and is
repeated; the first that is named twice fails the update (R358). -/
def State.exactRun (s : State) (t : Nat) (parity : List Nat) (lent : Option LentFault) (x : Tensor) (q : Slot) (k : ExactIn) : State :=
  let matrix : Bool := x.rule = 1 || x.rule = 3
  let stop := (List.range x.chunks).find? fun n => decide (2 ≤ parity.count n)
  let hit := (List.range (stop.elim x.chunks (· + 1))).filter parity.contains
  let s := hit.foldl (fun s _ => s.evStack t 0x10 8 (exactPayload x.index q.stepNo)) s
  let moved := if matrix then s.windowMoves t else (s, true)
  let got := match matrix, lent with
    | true, some f => if moved.2 then moved.1.lentFault t f else (moved.1, false)
    | _, _ => (moved.1, false)
  let s := got.1
  if !moved.2 || got.2 then s.exactFails t x q.stepNo
  else
    let crew := if matrix then s.crewHands t else []
    match stop with
    | some n =>
      let r := s.applyExact x q k crew (some n)
      ((r.1.crewDone t r.2.1).count (sA t UPD_ELEMENTS) (min x.size (1024 * n))).exactFails t x q.stepNo
    | none =>
      let r := s.applyExact x q k crew none
      let bad := r.2.2
      let fresh := x.rule = 3 && k.step.toNat % k.refresh = 0
      let s := ((r.1.crewDone t r.2.1).dropExact t).modTensor t x.index fun y =>
        { (y.modSlot q.place fun z => { z with landed := true, poisoned := bad }) with refreshed := y.refreshed || fresh }
      let s := s.count (sA t UPD_ELEMENTS) x.size
      if bad then s.evStack t 0x02 0x40 else s

/-- The memory an exact update reads and writes. -/
def Tensor.exactSpans (x : Tensor) (q : Slot) : List (Nat × Nat) × List (Nat × Nat) :=
  let moment := if x.rule = 2 then 4 * (x.rows + x.cols) else 2 * x.size
  let roots := if x.rule = 3 then [(x.precond, 8 * (x.rows * x.rows + x.cols * x.cols))] else []
  ([(x.slotAt q.place, 4 * x.size)], [(x.master, 4 * x.size), (x.moment, moment)] ++ roots)

/-- The first exact update of the unit's queue with its tensor and slot, where there is one. -/
def State.exactHead (s : State) (t : Nat) : Option (Exact × Tensor × Slot) :=
  match (s.stack t).exacts with
  | [] => none
  | e :: _ => (s.tensor t e.tensor).bind fun x => (x.slotIn e.slot).map fun q => (e, x, q)

def State.exactRules (s : State) (t : Nat) (e : Exact) (x : Tensor) (q : Slot) : ExactIn :=
  exactIn (e.rules.getD (s.ruleWords t x.ruleSet)) q.stepNo

/-- The first exact update of the unit's queue (R352): it waits for its slot to close, its matrix part for a lent core (R350), and its
memory where it is held. -/
def State.exactUpdate (s : State) (t : Nat) (parity : List Nat) (lent : Option LentFault) : State :=
  match s.exactHead t with
  | none => s.dropExact t
  | some (e, x, q) =>
    let matrix : Bool := x.rule = 1 || x.rule = 3
    let k := s.exactRules t e x q
    if !q.closed then s
    else
      let s := s.exactStart t e x q
      if matrix && (k.iter < 3) then
        -- other values of ITER refuse the exact update with reason 5
        (s.dropExact t).modTensor t x.index fun y => { y with failed := true }
      else if matrix && s.lentCores t = 0 then s
      else if s.unitHeld (x.exactSpans q).1 (x.exactSpans q).2 then s
      else s.exactRun t parity lent x q k

/-- A stack reset ends the exact update that runs at the end of its current chunk (R360): a free value says how many it has written,
and where it has written any the entry has PARTIAL set. -/
def State.exactCut (s : State) (t : Nat) : State :=
  match s.exactHead t with
  | none => s
  | some (e, x, q) =>
    let matrix : Bool := x.rule = 1 || x.rule = 3
    let k := s.exactRules t e x q
    if !q.closed ∨ (matrix && (k.iter < 3 || s.lentCores t = 0)) ∨ s.unitHeld (x.exactSpans q).1 (x.exactSpans q).2 then s
    else
      let v := s.takeFree
      let n := v.1.toNat % x.chunks
      if n = 0 then v.2
      else
        let r := v.2.applyExact x q k (if matrix then s.crewHands t else []) (some n)
        ((r.1.crewDone t r.2.1).count (sA t UPD_ELEMENTS) (1024 * n)).writeTable t { x with partial_ := true } true

/-! ### CLOSE, DRAIN and RECON (R352, R354) -/

/-- A reconciliation: the re-derived value written, SINCE 0, counted. -/
def State.reconcile (s : State) (t : Nat) (x : Tensor) (derived : List PVal) (step : W32) : State :=
  ((s.writeWork t x derived (step * 2 + 1)).modTensor t x.index fun y => { y with since := 0 }).count (sA t UPD_RECONS)

/-- Steps 1 to 3 of a CLOSE for one tensor. -/
def State.closeStart (s : State) (t : Nat) (x : Tensor) (step : W32) : State :=
  let had : Option Slot := x.slots.find? fun q => !q.closed && q.stepNo == step
  let x : Tensor := match had with
    | some _ => x
    | none => x.take ((x.freePlace (s.updDelay t)).getD 0) step
  let place : Nat := ((x.slots.find? fun q => q.stepNo == step).map (·.place)).getD 0
  let s : State := match had with
    | some _ => s
    | none => s.clearSlot x place true
  let folded : Bool := ((x.slotIn place).map (·.folds)).getD 1 == 2
  let x : Tensor := { (x.modSlot place fun q => { q with closed := true }) with closed := step }
  let s : State := s.modTensor t x.index fun _ => x
  let s : State := if s.updDelay t ≠ 0 && !folded && had.isSome then s.provisional t x place step else s
  let s := if (s.stack t).exacts.any (fun e => e.tensor = x.index && e.slot = place) then s
    else s.modStack t fun k => { k with exacts := k.exacts ++ [⟨x.index, place, step, none⟩] }
  s.writeTable t x true

/-- The slots whose steps all lie at or below t − D, steps compared modulo 2^32. -/
def Tensor.due (x : Tensor) (d : Nat) (step : W32) : List Slot :=
  x.slots.filter fun q => q.closed && decide ((d : Int) ≤ (step - q.stepNo).toInt)

/-- The steps reported as stalled that lie above a step. -/
def stalledAfter (l : List W32) (step : W32) : List W32 := l.filter fun n => decide (0 < (n - step).toInt)

/-- Step 4 of a CLOSE for one due slot that has landed: the drift check, any reconciliation, the slot freed, APPLIED set. -/
def State.closeLand (s : State) (t : Nat) (x : Tensor) (q : Slot) (step : W32) : State :=
  let got := s.tensorLimits t x.index
  let s := got.1
  let thresh := got.2.1
  let recon := got.2.2
  let got := s.rederive t x
  let s := got.1
  let derived := got.2
  let got := s.readWork x
  let s := got.1
  let work := got.2
  let got := s.drift x work derived
  let s := got.1
  let d := got.2
  let limit := if thresh = 0 then 2 else thresh
  let forced := thresh ≠ 0xFF ∧ limit < d
  let due := s.updDelay t = 0 ∨ (recon ≠ 0 ∧ recon ≤ x.since + 1)
  let s := s.modTensor t x.index fun y => { y with drift := max y.drift d, since := y.since + 1 }
  let s := if forced then
      (s.setReg (sA t UPD_DRIFT_LAST) (BitVec.ofNat 64 (d * 2 ^ 56 + x.index * 2 ^ 46 + 2 ^ 32 + step.toNat))).evStack t
        0x60 1 (x.index + step.toNat * 2 ^ 16 + d * 2 ^ 48)
    else s
  let s := if forced ∨ due then s.reconcile t x derived step else s
  let s := s.modTensor t x.index fun y =>
    { y with slots := y.slots.filter (·.place ≠ q.place), applied := q.stepNo, stalled := stalledAfter y.stalled q.stepNo }
  match s.tensor t x.index with
  | some y => s.writeTable t y true
  | none => s

/-- The memory that the unit's own work on a tensor reads and writes. -/
def State.workHeld (s : State) (t index : Nat) : Bool :=
  match s.tensor t index with
  | none => false
  | some x =>
    let d := s.updDelay t
    s.unitHeld [(x.grad, (d + 1) * x.slotSize), (x.master, 4 * x.size)]
      [(s.tableAt t index, 64), (x.work, x.workBytes + x.size / 32)]

/-- CLOSE: tensor by tensor; where a due slot's exact update has not landed it waits there, and one whose CLOSE waited for an update
that met poison is refused (R359). -/
def State.closeTensor (s : State) (t : Nat) (step : W32) (mid : Bool) (index : Nat) : State × Option Nat × Bool :=
  match s.tensor t index with
  | none => (s, some 3, false)
  | some x =>
    if x.failed then (s, some x.failure, false)
    else if !mid ∧ step ≠ x.closed + 1 then (s, some 4, false)
    else
      let s := if mid then s else s.closeStart t x step
      match s.tensor t index with
      | none => (s, none, false)
      | some x =>
        let due := x.due (s.updDelay t) step
        if due.any (!·.landed) then (s, none, true)
        else
          let s := due.foldl (fun s q => match s.tensor t index with
            | some y => s.closeLand t y q step
            | none => s) s
          (s, if due.any (·.poisoned) then some 8 else none, false)

/-- A CLOSE's tensors from one on, at most n of them. -/
def State.closeFrom (s : State) (t : Nat) (k : UpdCmd) (i : Nat) : Nat → Nat → Bool → State
  | 0, _, _ => s.updDone t i k
  | n + 1, j, mid =>
    if s.workHeld t (k.tensor + j) then
      s.modStack t fun q => { q with updIn := q.updIn.modify i fun k => { k with through := j, mid := mid } }
    else match s.closeTensor t k.step mid (k.tensor + j) with
    | (s, some r, _) => s.updRefuse t i k (k.tensor + j) r
    | (s, none, true) => s.modStack t fun q => { q with updIn := q.updIn.modify i fun k => { k with through := j, mid := true } }
    | (s, none, false) => State.closeFrom s t k i n (j + 1) false

def State.updClose (s : State) (t : Nat) : State :=
  s.updTake t 0x11 fun s k i => s.closeFrom t k i (k.count - k.through) k.through k.mid

/-- RECON of one tensor. -/
def State.reconTensor (s : State) (t : Nat) (x : Tensor) : State :=
  let got := s.rederive t x
  let s := got.1
  let derived := got.2
  let s := s.reconcile t x derived x.closed
  match s.tensor t x.index with
  | some y => s.writeTable t y true
  | none => s

/-- A command on open tensors: the first that is not open, or failed, refuses it, with its reason. -/
def State.firstShut (s : State) (t : Nat) (k : UpdCmd) : Option (Nat × Nat) :=
  (k.tensors.find? fun n => !s.tensorOpen t n).map fun n => (n, match s.tensor t n with
    | some x => x.failure
    | none => 3)

def State.updRecon (s : State) (t : Nat) : State :=
  s.updTake t 0x13 fun s k i =>
    let todo := k.tensors.takeWhile fun n => s.tensorOpen t n
    let shut := s.firstShut t k
    if todo.any (s.workHeld t) then s
    else
    let s := todo.foldl (fun s n => match s.tensor t n with
      | some x => s.reconTensor t x
      | none => s) s
    match shut with
    | some (n, r) => s.updRefuse t i k n r
    | none => s.updDone t i k

/-- DRAIN: once every queued exact update of the tensors has landed, each reconciles; with RETIRE it is closed. -/
def State.updDrain (s : State) (t : Nat) : State :=
  s.updTake t 0x12 fun s k i =>
    let todo := k.tensors.takeWhile fun n => s.tensorOpen t n
    let shut := s.firstShut t k
    if ((s.stack t).exacts.any fun e => todo.contains e.tensor) || todo.any (s.workHeld t) then s
    else
      let s := todo.foldl (fun s n => match s.tensor t n with
        | some x =>
          let last := (x.slots.filter (·.landed)).getLast?
          let applied := (last.map (·.stepNo)).getD x.applied
          let x := { x with slots := x.slots.filter (!·.landed), applied := applied, stalled := stalledAfter x.stalled applied }
          let s := (s.modTensor t n fun _ => x).reconTensor t x
          if k.flags = 1 then match s.tensor t n with
            | some y => (s.writeTable t y false).modStack t fun q => { q with tensors := q.tensors.filter (·.index ≠ n) }
            | none => s
          else s
        | none => s) s
      match shut with
      | some (n, r) => s.updRefuse t i k n r
      | none => s.updDone t i k

/-- A stalled contribution at a vault's input tried again (R351): the first held there. -/
def State.stalledContribution (s : State) (c : Nat) : State :=
  match s.net.packets.findIdx? fun p => p.held = 2 && p.place == .delivered c with
  | some i => match s.net.packets[i]? with
    | some p => s.accumulate i (p.typ = 5) []
    | none => s
  | none => s

/-- A write of UPD_CONFIG (R360, R362): DELAY only while no tensor is open; at any other time it has no effect and sets ERROR. -/
def State.updConfig (s : State) (t : Nat) (v : W32) : State :=
  let a := sA t UPD_CONFIG
  let s := if v.getLsbD 31 then s.setBit a 31 false else s
  if (s.stack t).tensors.isEmpty then s.setFld a 2 0 (v.toNat % 8)
  else s.setBit a 31 true

end Sys2Proof.Machine
end

