-- ==== Sys2Proof/Machine/BiloOps.lean ====
section
/-! DEFINITION. Bilo: ports and their link layer (R363 to R365), packets that arrive (R366 to R371, R373), and barrows: their
commands, contributions, forwarding, delivery, wire formats and fallback (R374 to R387). -/

namespace Sys2Proof.Machine

/-! ### Ports (R365, R369) -/

def bpA (p off : Nat) : Nat := pA (off + 0x20 * p)

/-- Whether a packet is a reduction forwarder's or an answer to one: no operation has the tag 0 (R199). -/
def forwards (p : BiloPacket) : Bool := p.srcCore = 0x3FF && p.tag = 0

/-! ### Forwarders: sending (R371, R378, R380) -/

/-- The flow key of a stack's reduction forwarder. -/
def forwarderKey (t : Nat) : Nat := 0x400 + t

/-- Whether two packets of forwarders are one contribution or one result. -/
def sameForward (x y : BiloPacket) : Bool := x.typ = y.typ && x.barrow = y.barrow && x.segment = y.segment && x.gen = y.gen

/-- A forwarder's packet on its way to a port: a RESULT write over the package as a request (R370); DESIGN CHOICE (log entry 139): a
barrow packet, whose types the package's header does not have, at once. The port it goes to, where one leads there. -/
def State.forwardTo (s : State) (t : Nat) (p : BiloPacket) : State × Option Nat :=
  let d := p.dst.toNat
  match s.biloPort d (forwarderKey t) with
  | none => (s.addSat (pA BILO_NO_DEVICE) 31 0 1, none)
  | some q =>
    if p.typ ≠ 4 then (s.biloSend q p, some q)
    else
      let k := { Packet.blank 4 (portStack q * 64) 0x3FF 0 with
        red := 3, channel := BitVec.ofNat 8 (d / 64), count := d % 64 + 1, addr := p.addr, gen := p.gen, contrib := p.contrib.toNat,
        fmt := p.fmt, data := p.data, poison := p.poison, pieces := p.pieces,
        port := some (8 + t, p.barrow.toNat, p.segment.toNat, p.gen.setWidth 16) }
      (if portStack q = t then s.modNet fun n => { n with packets := n.packets ++ [{ k with place := .baseDie t }] }
        else s.injectAt (t * 64) k, some q)

/-- A forwarder's packet sent, a contribution or result kept until it is answered (R380); false where no port leads there. -/
def State.forwarderSend (s : State) (t : Nat) (p : BiloPacket) : State × Bool :=
  let got := s.forwardTo t p
  if got.2.isNone then (got.1, false)
  else if p.typ = 9 ∨ p.typ = 4 then
    (got.1.modBilo fun b => { b with unanswered := b.unanswered.filter (fun x => !sameForward x.2 p) ++ [(t, p)] }, true)
  else (got.1, true)

/-- A packet that was answered LINK or ABSORBED, or lost, sent whole again, counted at its port (R380). Where no port leads there it waits
for one. -/
def State.forwardAgain (s : State) (x : Nat × BiloPacket) : State :=
  let got := s.forwardTo x.1 x.2
  match got.2 with
  | some q => got.1.addSat (bpA q BPORT_RETRIES) 31 0 1
  | none => got.1

/-- The packets of forwarders that a packet is one of or answers, sent again. -/
def State.forwardLost (s : State) (lost : BiloPacket → Bool) : State :=
  (s.bilo.unanswered.filter fun x => lost x.2).foldl State.forwardAgain s

/-! ### Flits and codewords (R364 to R367) -/

/-- The header flit of a packet (R367), but for its CRC. -/
def headerBytes (p : BiloPacket) : List Byte :=
  let poison := ((List.range 64).map fun k => if p.poison.getD k false then 2 ^ k else 0).foldl (· + ·) 0
  leBytes 1 (p.typ % 16 + p.cls % 4 * 16) ++ leBytes 1 ((p.data.length + 63) / 64) ++ leBytes 2 p.dst.toNat ++ leBytes 2 p.src.toNat ++
  leBytes 2 p.srcCore.toNat ++ leBytes 2 p.tag.toNat ++ leBytes 6 (if p.typ ≤ 5 then p.addr.toNat else 0) ++ leBytes 1 p.gen.toNat ++
  leBytes 1 (p.contrib.toNat + if p.sat then 64 else 0) ++ leBytes 1 p.fmt ++ leBytes 1 (if p.typ = 6 then p.status else 0) ++
  leBytes 2 p.barrow.toNat ++ leBytes 2 p.segment.toNat ++ leBytes 1 p.scale.toNat ++ leBytes 1 p.subtype ++ leBytes 2 0 ++
  leBytes 4 p.max.toNat ++ leBytes 8 poison ++ List.replicate 20 0

/-- A packet's flits (R366, R367): the header, with the CRC-32C over the rest of it and the data, then the data. -/
def packetFlits (p : BiloPacket) : List Flit :=
  let n := (p.data.length + 63) / 64
  let data := (List.range n).map fun k => ((p.data.drop (64 * k)).take 64 ++ List.replicate 64 0).take 64
  let head := headerBytes p ++ leBytes 4 (crc32c (headerBytes p ++ data.flatten)).toNat
  (head :: data).mapIdx fun i bs => ⟨p.cls, i == n, bs⟩

/-- The flits of a class that wait at a port, in the order sent, as far as its credits at the receiver reach: at most 64 of the class
unacknowledged (R366). DESIGN CHOICE (log entry 143): an acknowledged codeword's flits have left the receiver's buffer. -/
def State.readyFlits (s : State) (p cls : Nat) : List Flit :=
  let n := smGet 0 (s.port p).sent cls
  let flits := ((s.bilo.out.filter fun x => x.1 = p && x.2.cls = cls).flatMap fun x => packetFlits x.2).drop n
  let away := (((s.port p).buffer.flatMap (·.flits)).filter (·.cls = cls)).length
  flits.take (64 - away)

/-- The codeword a port sends (R364 to R366): one of its replay buffer from the SEQ that a NAK asked for on, else a new one with the
flits that wait, control first; none while the buffer of 256 is full. Its ACK names the last codeword received intact, its NAK is set
after one was discarded, which it ends. DESIGN CHOICE (log entry 143): a port sends one with each it receives, and responses go
before requests. -/
def State.linkSend (s : State) (p : Nat) : State :=
  let k := s.port p
  let head (w : LinkWord) : LinkWord := { w with ack := k.expect - 1, nak := k.discarding }
  if k.next ≠ k.top then
    match k.buffer.find? (·.seq == k.next) with
    | some w => s.setPort p { k with next := k.next + 1, discarding := false, line := some (head w) }
    | none => s.setPort p { k with next := k.top }
  else if 256 ≤ k.buffer.length then s
  else
    let flits := ([2, 1, 0].flatMap (s.readyFlits p)).take 10
    let w := head ⟨k.top, 0, false, flits.isEmpty, flits⟩
    let sent := flits.foldl (fun m f => smSet 0 m f.cls (smGet 0 m f.cls + 1)) k.sent
    s.setPort p { k with next := k.top + 1, top := k.top + 1, discarding := false, buffer := k.buffer ++ [w], sent := sent,
                         line := some w }

/-- A packet whose last flit has been acknowledged: the first of its class at the port leaves it. -/
def State.packetThrough (s : State) (p cls : Nat) : State :=
  match s.bilo.out.find? fun x => x.1 = p && x.2.cls = cls with
  | none => s
  | some x =>
    let k := s.port p
    let s := s.modBilo fun b => { b with out := b.out.erase x }
    s.setPort p { k with sent := smSet 0 k.sent cls (smGet 0 k.sent cls - (packetFlits x.2).length) }

/-- Codewords acknowledged up to one SEQ: they leave the replay buffer, and the packets that they end leave the port. -/
def State.linkAck (s : State) (p : Nat) (ack : BitVec 9) : State :=
  let k := s.port p
  let n := (ack - k.acked).toNat
  if n = 0 ∨ k.buffer.length < n then s
  else
    let through := ((k.buffer.take n).flatMap (·.flits)).filter (·.last)
    let s := s.setPort p { k with acked := ack, replays := 0, buffer := k.buffer.drop n }
    through.foldl (fun s f => s.packetThrough p f.cls) s

/-- Packets handed to a port that goes down and not acknowledged are lost: the operations of this module's cores receive LINK, from the
port's base die, and forwarders send theirs again. -/
def State.losePackets (s : State) (p : Nat) : State :=
  let mine := s.bilo.out.filter fun x => x.1 = p
  let s := (s.modBilo fun b => { b with out := b.out.filter fun x => x.1 ≠ p }).setPort p Port.reset
  let t := portStack p * 64
  mine.foldl (fun s x =>
    let k := x.2
    if forwards k then (if k.cls = 0 then s.forwardLost (sameForward k) else s)
    else if k.src.toNat = s.ownId ∧ k.cls = 0 ∧ k.final ∧ (k.typ = 1 ∨ k.typ = 2 ∨ k.typ = 4 ∨ k.typ = 5) then
      s.injectAt t { Packet.blank 6 k.srcCore.toNat t k.tag with
        status := 5, addr := k.addr, len := if k.typ = 2 then k.len else k.data.length }
    else s) s

/-- A port that goes down: counted, with its event. -/
def State.portDown (s : State) (p : Nat) : State :=
  if !s.bit (bpA p BPORT_STATUS) 31 then s
  else (((s.setBit (bpA p BPORT_STATUS) 31 false).addSat (bpA p BPORT_DOWNS) 31 0 1).losePackets p).evStack (portStack p) 0x30 7

/-- A codeword at the receiver of a port that is up (R364, R365): taken in order, else discarded until NAK has been sent; the ACK and NAK
of one that is taken act on this side's replay buffer. The port sends one in turn. -/
def State.codeword (s : State) (p : Nat) (w : Codeword) : State :=
  if !s.portUp p then s
  else
    let s := s.count (bpA p BPORT_CODEWORDS)
    let lost (s : State) : State := (s.addSat (bpA p BPORT_UNCORRECTED) 31 0 1).linkSend p
    if !w.intact then lost (s.setPort p { s.port p with discarding := true })
    else
      let s := if w.corrected then s.addSat (bpA p BPORT_CORRECTED) 31 0 1 else s
      if (s.port p).discarding ∨ w.seq ≠ (s.port p).expect then lost s
      else
        let s := (s.setPort p { s.port p with expect := w.seq + 1 }).linkAck p w.ack
        let k := s.port p
        if !w.nak then s.linkSend p
        else if 8 ≤ k.replays then s.portDown p
        else ((s.addSat (bpA p BPORT_RETRIES) 31 0 1).setPort p { k with replays := k.replays + 1, next := w.ack + 1 }).linkSend p

/-- RETRAIN set: the port is down until it is retrained; none trains without a valid id (R369, R389). -/
def State.retrain (s : State) (p : Nat) : State :=
  if !s.bit (pA BILO_ID) 31 then s
  else ((s.portDown p).setBit (bpA p BPORT_STATUS) 30 false).setBit (bpA p BPORT_CONTROL) 1 true

/-- A port trained with its partner: brought up, or left untrained with ERROR where the partner's id is its own (R369). -/
def State.portTrained (s : State) (p partner : Nat) (isSwitch : Bool) : State :=
  let clash := !isSwitch && partner = s.ownId
  let v := (if clash then 2 ^ 14 else 2 ^ 31 + 2 ^ 30 + 0xF) + if isSwitch then 2 ^ 15 else partner * 2 ^ 16
  ((s.setReg (bpA p BPORT_STATUS) (BitVec.ofNat 64 v)).setBit (bpA p BPORT_CONTROL) 1 false).setPort p Port.reset

/-- Retraining done (R365), where the module has a valid id: event class 0x30, code 8, where the port is up. Forwarders' packets that
found no port leave now. -/
def State.retrainComplete (s : State) (p partner : Nat) (isSwitch : Bool) : State :=
  if !s.bit (bpA p BPORT_CONTROL) 1 ∨ !s.bit (pA BILO_ID) 31 then s
  else
    let s := s.portTrained p partner isSwitch
    if s.bit (bpA p BPORT_STATUS) 31 then
      (s.evStack (portStack p) 0x30 8).forwardLost fun k => !s.bilo.out.any (fun x => sameForward x.2 k) &&
        !s.net.packets.any fun x => x.red = 3 && x.port == some (8 + (x.port.elim 8 (·.1) - 8), k.barrow.toNat, k.segment.toNat,
          k.gen.setWidth 16)
    else s

/-- A write of BILO_ID (R369): no effect while a port is up. -/
def State.biloIdWrite (s : State) (v : W32) : State :=
  if (List.range 8).any fun p => s.bit (bpA p BPORT_STATUS) 31 then s
  else (s.setBit (pA BILO_ID) 31 (v.getLsbD 31)).setFld (pA BILO_ID) 13 0 (v.toNat % 2 ^ 14)

/-! ### Barrow packets (R378 to R381) -/

/-- A packet of a barrow. -/
def State.barrowPacket (s : State) (b : Barrow) (typ cls dst : Nat) (gen : Byte) (n : Nat) : BiloPacket :=
  { BiloPacket.blank typ cls dst s.ownId with gen := gen, barrow := BitVec.ofNat 12 b.id, segment := BitVec.ofNat 14 n }

/-- The payload of R381. -/
def barrowPayload (b : Barrow) (gen : Byte) (n : Nat) : Nat := b.id + gen.toNat * 2 ^ 12 + n * 2 ^ 20

/-- BILO_LAST. -/
def State.biloLast (s : State) (b : Barrow) (gen : Byte) (n : Nat) (saturation : Bool) : State :=
  s.setReg (pA BILO_LAST) (BitVec.ofNat 64
    (b.id * 2 ^ 52 + gen.toNat * 2 ^ 44 + n * 2 ^ 30 + (if saturation then 2 else 0) + 1))

/-! ### Wire formats (R382, R383, R384, R387) -/

/-- 2^(k − 127) as FP32. -/
def pow2 (k : Nat) : W32 := f32Round false 1 ((k : Int) - 127)

/-- floor(log₂ x) of a finite x ≠ 0. -/
def flog (x : W32) : Int := match f32Val x with
  | .fin _ m e => magLog2 m e
  | _ => 128

/-- The segment maximum (R377): the largest finite magnitude, or +0. -/
def segMax (vs : List W32) : W32 :=
  (vs.filter fun v => (f32Val v).isFin).foldl (fun m v => if m.toNat < (fabs v).toNat then fabs v else m) 0

/-- One value in the native format at a scale, and whether it sets SAT: R383 with the comparison of R41, before any rounding (log entry
142). -/
def nativeOf (x : Nat) (v : W32) : Byte × Bool :=
  match f32Val v with
  | .fin n m e =>
    let got := roundGrid 24 0 .nearest m (e - ((x : Int) - 127))
    let q := got.1
    let l := got.2
    let q := if 0 ≤ l then q * 2 ^ l.toNat else q
    let k := e - ((x : Int) - 127)
    let sat := decide (127 * 2 ^ (-k).toNat < m * 2 ^ k.toNat)
    let q := min q 127
    (BitVec.ofInt 8 (if n then -(q : Int) else q), sat)
  | _ => (0, true)

/-- What a forwarder sends of a local segment: FMT, data, SAT, SCALE and the error memory (R382, R383, R387). -/
structure WireOut where
  fmt : Nat
  data : List Byte
  sat : Bool
  scale : Nat
  err : List W32
  deriving DecidableEq, Repr

def bitsToBytes (bs : List Bool) : List Byte :=
  (List.range ((bs.length + 7) / 8)).map fun i =>
    BitVec.ofNat 8 (((List.range 8).map fun k => if bs.getD (8 * i + k) false then 2 ^ k else 0).foldl (· + ·) 0)

def wireBf16 (vs : List W32) : WireOut := ⟨2, packElems 16 (vs.map fun v => (bf16Of v).toNat), false, 0, []⟩

def wireNative (x : Nat) (vs : List W32) : WireOut :=
  let qs := vs.map (nativeOf x)
  ⟨0, qs.map (·.1), qs.any (·.2), 0, []⟩

def wireSign (sbase : Nat) (vs es : List W32) : WireOut :=
  let v := List.zipWith fadd vs es
  let a := fmul ((v.map fabs).foldl fadd 0) 0x3A800000
  let s := if a = 0 ∨ (f32Val a).isNaN then sbase
    else (max (sbase : Int) (min ((sbase : Int) + 15) (flog a + 127))).toNat
  let neg (x : W32) : Bool := (f32Val x).cmp (.fin false 0 0) == some (-1)
  let signs := v.map neg
  ⟨3, bitsToBytes signs, v.any fun x => (f32Val x).isNaN, s,
    v.map fun x => if neg x then fadd x (pow2 s) else fsub x (pow2 s)⟩

/-- The addends of a contribution: integers, or FP32 words. -/
def wireAddends (b : Barrow) (p : BiloPacket) : List (Sum Int W32) :=
  match p.fmt with
  | 0 => p.data.map fun x => .inl x.toInt
  | 1 => (words32 p.data).map fun w => .inl w.toInt
  | 2 => (streamElems p.data 16 (p.data.length / 2)).map fun x => .inr (BitVec.ofNat 32 (x * 65536))
  | _ => (List.range (8 * p.data.length)).map fun i =>
      let k : Int := 2 ^ (p.scale.toNat - b.sbase)
      .inl (if (p.data.getD (i / 8) 0).getLsbD (i % 8) then -k else k)

/-- One word of a node segment with an addend; whether it left the 32-bit range. -/
def nodeAddWord (old : W32) : Sum Int W32 → W32 × Bool
  | .inl k =>
    let v := old.toInt + k
    if 2147483647 < v then (0x7FFFFFFF, true)
    else if v < -2147483648 then (0x80000000, true) else (BitVec.ofInt 32 v, false)
  | .inr x => (fadd old x, false)

/-! ### Node segments (R378, R380, R382) -/

/-- The flit of a contribution that holds entry i. -/
def flitOf (fmt i : Nat) : Nat := i * [8, 32, 16, 1].getD fmt 32 / 512

/-- Whether a clear, repair or lock holds accesses of a forwarder: of what it reads or of what it writes (R258, R261, R263). -/
def State.blocked (s : State) (reads writes : List (Nat × Nat)) : Bool :=
  reads.any (s.mustWait false) || writes.any (s.mustWait true)

/-- A barrow packet that has to wait is kept. -/
def State.holdBarrow (s : State) (p : BiloPacket) : State := s.modBilo fun b => { b with held := b.held ++ [p] }

/-- The node segment of a barrow, where the module has one. -/
def Barrow.nodeSpan (b : Barrow) (gen : Byte) (n : Nat) : List (Nat × Nat) :=
  if b.expect = 0 then [] else [(b.at_ b.node gen n, 4096)]

/-- What the conversion of a local segment writes of the error memory. -/
def Barrow.errSpan (b : Barrow) (n : Nat) : List (Nat × Nat) := if b.wire = 2 then [(b.err + 4096 * n, 4096)] else []

/-- The halves of a generation in LOCAL and NODE (R375, R379). -/
def Barrow.halves (b : Barrow) (gen : Byte) : List (Nat × Nat) := [b.local_, b.node].map fun area => (b.at_ area gen 0, b.size)

/-- Whether a local segment's forwarding must wait. -/
def State.localBlocked (s : State) (b : Barrow) (gen : Byte) (n : Nat) : Bool :=
  s.blocked [(b.at_ b.local_ gen n, 4096), (b.scales + n, 1)] (b.nodeSpan gen n ++ b.errSpan n)

/-- A contribution applied at a node segment under its bitmap (R185): its status. A format of before a fallback is
dropped. -/
def State.nodeAdd (s : State) (b : Barrow) (p : BiloPacket) : State × Nat :=
  let a := b.at_ b.node p.gen p.segment.toNat
  let q := s.seg (a / 4096)
  if q.bitmap.getLsbD p.contrib.toNat then (s.countDup, 0)
  else if q.fp32 ∧ p.fmt ≠ 2 then (s, 0)
  else
    let got := s.readFast a 4096
    let s := got.1
    let old := got.2
    let olds := elemsOf old 32 1024
    let sums := (List.zip olds (wireAddends b p)).mapIdx fun i x =>
      let r := nodeAddWord (BitVec.ofNat 32 x.1.1) x.2
      (r.1, x.1.2 || p.poison.getD (flitOf p.fmt i) false, r.2)
    let s := (s.writeFast a (packPoison 32 (sums.map fun r => (r.1.toNat, r.2.1)))).1
    let q := { q with
      bitmap := q.bitmap ||| BitVec.ofNat 64 (2 ^ p.contrib.toNat), gen := some p.gen,
      sat := q.sat || p.sat || sums.any (·.2.2), maxMag := vmax q.maxMag p.max,
      since := if q.since = 0 then (s.stack b.stack).cycles.toNat + 1 else q.since }
    (s.setSeg (a / 4096) q, if sums.any (·.2.1) then 3 else 0)

/-- Whether a generation is in the window of a barrow, waits, or is stale (R376). -/
def Barrow.window (b : Barrow) (gen : Byte) : Nat :=
  let d := (gen - b.gen).toNat
  if d ≤ 1 then 0 else if d ≤ 127 then 1 else 2

/-- A barrow packet's answer to its sender. -/
def State.barrowAnswer (s : State) (b : Barrow) (p : BiloPacket) (status : Nat) : State :=
  (s.forwarderSend b.stack { s.barrowPacket b 6 1 p.src.toNat p.gen p.segment.toNat with
    srcCore := p.srcCore, tag := p.tag, status := status }).1

/-- A type 9 contribution from a child (R376, R378, R382): held while its generation is ahead or its segment cannot be reached; a module
that has no such barrow or node refuses it. -/
def State.barrowContribution (s : State) (p : BiloPacket) : State :=
  match s.barrow p.barrow.toNat with
  | none => (s.forwarderSend 0 { BiloPacket.blank 6 1 p.src.toNat s.ownId with
      srcCore := p.srcCore, tag := p.tag, status := 1, gen := p.gen, barrow := p.barrow, segment := p.segment }).1
  | some b =>
    if b.expect = 0 ∨ b.segments ≤ p.segment.toNat then s.barrowAnswer b p 1
    else match b.window p.gen with
      | 0 =>
        if s.blocked [] (b.nodeSpan p.gen p.segment.toNat) then s.holdBarrow p
        else
          let got := s.nodeAdd b p
          got.1.barrowAnswer b p got.2
      | 1 => s.holdBarrow p
      | _ => s.barrowAnswer b p 4

/-! ### Local segments (R377, R387) -/

/-- A contribution of this module on its way: into its own node, or to the parent; false where no port leads there. -/
def State.contributeUp (s : State) (b : Barrow) (p : BiloPacket) : State × Bool :=
  if b.expect ≠ 0 then ((s.nodeAdd b { p with contrib := BitVec.ofNat 6 b.self }).1, true)
  else s.forwarderSend b.stack { p with dst := BitVec.ofNat 14 b.parent, contrib := BitVec.ofNat 6 b.up }

/-- A local segment converted and contributed; in BF16 where it is marked FP32 (R385). -/
def State.forwardLocal (s : State) (b : Barrow) (gen : Byte) (n : Nat) : State :=
  let a := b.at_ b.local_ gen n
  let q := s.seg (a / 4096)
  let got := s.readFast a 4096
  let s := got.1
  let ps := got.2
  let vs := words32 (dataOf ps)
  let got := s.readFast (b.scales + n) 1
  let s := got.1
  let sc := got.2
  let ea := b.err + 4096 * n
  let sign : Bool := b.wire = 2 && !q.fp32
  let got := if sign then s.readFast ea 4096 else (s, [])
  let s := got.1
  let es := got.2
  let o := if q.fp32 ∨ b.wire = 1 then wireBf16 vs
    else if sign then wireSign b.sbase vs (words32 (dataOf es))
    else wireNative ((sc.headD (0, false)).1).toNat vs
  let flits := (o.data.length + 63) / 64
  -- an entry's poison: its own, its error memory's, its scale byte's; a sign's scale depends on every entry
  let own (i : Nat) : Bool := anyPoison ((ps.drop (4 * i)).take 4) || anyPoison ((es.drop (4 * i)).take 4)
  let all : Bool := (sign && (anyPoison ps || anyPoison es)) || (o.fmt = 0 && anyPoison sc)
  let bad := (List.range 1024).map fun i => all || own i
  let poison := (List.range flits).map fun k => bad.mapIdx (fun i x => x && flitOf o.fmt i == k) |>.any id
  let p := { s.barrowPacket b 9 0 0 gen n with
    fmt := o.fmt, data := o.data, poison := poison, sat := o.sat, scale := BitVec.ofNat 8 o.scale, max := segMax vs }
  let got := s.contributeUp b p
  let s := got.1
  let ok := got.2
  if !ok then s
  else
    let s := if sign then (s.writeFast ea (packPoison 32 (List.zipWith (fun e x => (e.toNat, x)) o.err bad))).1 else s
    s.setSeg (a / 4096) { s.seg (a / 4096) with sent := true }

/-- A filled local segment of the current generation that has not been forwarded (R377, R379). -/
def State.forwardLocalSegment (s : State) (id n : Nat) (gen : Byte) : State :=
  match s.barrow id with
  | none => s
  | some b =>
    let q := s.seg (b.at_ b.local_ gen n / 4096)
    if gen = b.gen ∧ n < b.segments ∧ q.bitmap = b.lexpect ∧ !q.sent ∧ !s.localBlocked b gen n then s.forwardLocal b gen n else s

/-! ### The end of a generation (R379, R384) -/

/-- Step 3 of R379: the halves of a generation cleared. -/
def State.clearHalf (s : State) (b : Barrow) (gen : Byte) : State :=
  (b.halves gen).foldl (fun s x =>
    let s := (s.writeFast x.1 (List.replicate x.2 (0, false))).1
    { s with segs := smClear s.segs (x.1 / 4096) ((x.1 + x.2) / 4096) }) s

/-- Steps 3 to 5: the halves cleared, G advanced, the token sent. -/
def State.endGeneration (s : State) (b : Barrow) : State :=
  let s := (s.clearHalf b b.gen).modBarrow b.id fun x => { x with gen := x.gen + 1, got := [] }
  if b.dtoken = 0 then s
  else s.crier { typ := 1, kind := 0, dest := b.dcore, src := 0x3FF, arg := BitVec.ofNat 6 b.dtoken, payload := 0, event := none }

/-- A packet of barrow control to every child. -/
def State.tellChildren (s : State) (b : Barrow) (p : BiloPacket) : State :=
  b.children.foldl (fun s d => (s.forwarderSend b.stack { p with dst := BitVec.ofNat 14 d }).1) s

/-- The scale byte of the next generation (R384). -/
def nextScale (x : Byte) (m : W32) : Byte :=
  if m = 0 then x else BitVec.ofNat 8 (max 0 (min 254 (flog m - 5 + 127))).toNat

/-- The root ends a generation once every segment has been delivered: the new strip written and sent (R379, R384). -/
def State.rootDone (s : State) (b : Barrow) : State :=
  let segOf (n : Nat) := s.seg (b.at_ b.node b.gen n / 4096)
  if !((List.range b.segments).all fun n => (segOf n).delivered) || s.blocked [] ((b.scales, b.segments) :: b.halves b.gen) then s
  else
    let got := s.readFast b.scales b.segments
    let s := got.1
    let old := got.2
    let strip := (dataOf old).mapIdx fun n x => nextScale x (segOf n).maxMag
    let s := (s.writeFast b.scales (plain strip)).1
    let s := (List.range ((b.segments + 4095) / 4096)).foldl (fun s k =>
      s.tellChildren b { s.barrowPacket b 10 2 0 b.gen (4096 * k) with
        subtype := 1, data := (strip.drop (4096 * k)).take 4096 }) s
    s.endGeneration b

/-- A DONE from the parent (R379): its part of the strip written and sent on; the last part ends the generation. -/
def State.barrowDone (s : State) (p : BiloPacket) : State :=
  match s.barrow p.barrow.toNat with
  | none => s
  | some b =>
    let n := p.segment.toNat
    if b.root ∨ p.gen ≠ b.gen ∨ b.got.contains n then s
    else if s.blocked [] ((b.scales + n, p.data.length) :: b.halves b.gen) then s.holdBarrow p
    else
      let s := (s.writeFast (b.scales + n) (plain p.data)).1
      let s := s.tellChildren b { p with src := BitVec.ofNat 14 s.ownId }
      let got := b.got ++ [n]
      if (b.segments + 4095) / 4096 ≤ got.length then s.endGeneration b
      else s.modBarrow b.id fun x => { x with got := got }

/-! ### Saturation (R385) -/

/-- The fallback of a segment at one module: the node segment cleared and marked, the local one sent again in BF16. -/
def State.fallBack (s : State) (b : Barrow) (gen : Byte) (n : Nat) : State :=
  let na := b.at_ b.node gen n
  let la := b.at_ b.local_ gen n
  let s := if b.expect = 0 then s
    else ((s.writeFast na (List.replicate 4096 (0, false))).1).setSeg (na / 4096) { Seg.reset with fp32 := true }
  let q := s.seg (la / 4096)
  let s := s.setSeg (la / 4096) { q with fp32 := true, sent := false }
  if q.sent then s.forwardLocal b gen n else s

def State.barrowResend (s : State) (p : BiloPacket) : State :=
  match s.barrow p.barrow.toNat with
  | none => s
  | some b =>
    if p.gen ≠ b.gen ∨ b.segments ≤ p.segment.toNat then s
    else if s.localBlocked b p.gen p.segment.toNat then s.holdBarrow p
    else (s.tellChildren b { p with src := BitVec.ofNat 14 s.ownId }).fallBack b p.gen p.segment.toNat

/-! ### Complete node segments (R378, R382 to R385) -/

/-- The result of a sum at the root. -/
def resultOf (b : Barrow) (q : Seg) (x : Nat) (w : W32) : W32 :=
  if q.fp32 ∨ b.wire = 1 then w
  else
    let k := w.toInt
    f32Round (decide (k < 0)) k.natAbs (((if b.wire = 2 then b.sbase else x : Nat) : Int) - 127)

/-- The RESULT write: an FP32 accumulate from the forwarder, on this module or another. -/
def State.writeResult (s : State) (b : Barrow) (gen : Byte) (n : Nat) (ps : List PByte) : State × Bool :=
  let a := b.result + 4096 * n
  if b.rdev = s.ownId then
    let p := { Packet.blank 4 (ownerCore a) 0x3FF 0 with
      addr := BitVec.ofNat 46 a, gen := gen, contrib := b.rcontrib, fmt := 7, data := dataOf ps, poison := flitPoison ps,
      pieces := [(a, 4096)], port := some (8 + b.stack, b.id, n, gen.setWidth 16) }
    (s.injectAt (b.stack * 64) p, true)
  else s.forwarderSend b.stack { s.barrowPacket b 4 0 b.rdev gen n with
    addr := BitVec.ofNat 46 a, contrib := BitVec.ofNat 6 b.rcontrib, fmt := 7, data := dataOf ps, poison := flitPoison ps,
    pieces := [(a, 4096)] }

/-- A complete node segment (R378): forwarded, delivered, or its fallback started; one that has gone on ends the generation where all
have (R379). -/
def State.nodeComplete (s : State) (id n : Nat) (gen : Byte) : State :=
  match s.barrow id with
  | none => s
  | some b =>
    let a := b.at_ b.node gen n
    let q := s.seg (a / 4096)
    if b.expect = 0 ∨ q.bitmap ≠ b.expect ∨ b.segments ≤ n ∨ b.window gen ≠ 0 then s
    else if q.sent then (if b.root ∧ gen = b.gen then s.rootDone b else s)
    else if s.blocked ((a, 4096) :: if b.root then [(b.scales + n, 1)] else [])
        (if b.root then [(b.scales + 16384 + 4 * n, 4)] else []) then s
    else if b.root ∧ q.sat ∧ !q.fp32 then
      if s.localBlocked b gen n then s else
      let s := (s.evStack b.stack 0x50 1 (barrowPayload b gen n)).addSat (pA BILO_SATURATED) 31 0 1
      let s := (s.biloLast b gen n true).tellChildren b { s.barrowPacket b 10 2 0 gen n with subtype := 2 }
      s.fallBack b gen n
    else
      let got := s.readFast a 4096
      let s := got.1
      let ps := got.2
      let es := elemsOf ps 32 1024
      let got :=
        if b.root then
          let got := s.readFast (b.scales + n) 1
          let s := got.1
          let sc := got.2
          let x := ((sc.headD (0, false)).1).toNat
          let s := (s.writeFast (b.scales + 16384 + 4 * n) (plain (bytes32 [q.maxMag]))).1
          s.writeResult b gen n (packPoison 32 (es.map fun e => ((resultOf b q x (BitVec.ofNat 32 e.1)).toNat, e.2)))
        else
          let asBf16 : Bool := q.fp32 || b.wire = 1
          let ds := if asBf16 then packPoison 16 (es.map fun e => ((bf16Of (BitVec.ofNat 32 e.1)).toNat, e.2)) else ps
          s.forwarderSend b.stack { s.barrowPacket b 9 0 b.parent gen n with
            contrib := BitVec.ofNat 6 b.up, fmt := if asBf16 then 2 else 1, data := dataOf ds, poison := flitPoison ds,
            sat := q.sat, max := q.maxMag }
      let s := got.1
      let ok := got.2
      if ok then s.setSeg (a / 4096) { s.seg (a / 4096) with sent := true } else s

/-- A status answer at a forwarder (R380, R381), come in by a port that is up, or over the package where that gives one: after LINK or
ABSORBED the packet is sent again; a delivered RESULT may end the generation; a refused one is reported. -/
def State.forwarderAnswer (s : State) (f : ForwarderAnswer) : State :=
  match s.barrow f.barrow.toNat with
  | none => s
  | some b =>
    let n := f.segment.toNat
    let own : Bool := f.toResult && b.rdev = s.ownId
    let here (p : Packet) : Bool := p.typ = 6 && p.port == some (8 + b.stack, b.id, n, f.gen.setWidth 16) &&
      p.place == .delivered (b.stack * 64)
    let found := if f.toResult then s.net.packets.find? here else none
    if found.isNone && (own || !s.portUp f.port) then s
    else
      let status := found.elim f.status (·.status)
      let s := if found.isSome then s.modNet fun m => { m with packets := m.packets.filter fun p => !here p } else s
      let a := b.at_ b.node f.gen n / 4096
      let mine (x : BiloPacket) : Bool := x.barrow = f.barrow && x.segment = f.segment && x.gen = f.gen &&
        x.typ = (if f.toResult then 4 else 9)
      let answered (s : State) : State := s.modBilo fun x => { x with unanswered := x.unanswered.filter fun y => !mine y.2 }
      if status = 2 ∨ status = 5 then (if own then s.setSeg a { s.seg a with sent := false } else s.forwardLost mine)
      else if !f.toResult then answered s
      else if status = 1 ∨ status = 4 then
        ((answered s).setSeg a { s.seg a with refused := true }).evStack b.stack 0x51 3 (barrowPayload b f.gen n + status * 2 ^ 56)
      else
        let s := (answered s).setSeg a { s.seg a with delivered := true }
        if f.gen = b.gen then s.rootDone b else s

/-- A node segment that has gone the limit without completing (R381), reported once. -/
def State.nodeTimeout (s : State) (id n : Nat) (gen : Byte) : State :=
  match s.barrow id with
  | none => s
  | some b =>
    let a := b.at_ b.node gen n / 4096
    let q := s.seg a
    let limit := s.fld (pA BILO_TIMEOUT) 31 0
    if b.expect = 0 ∨ b.segments ≤ n ∨ b.window gen ≠ 0 ∨ q.since = 0 ∨ q.late ∨ q.bitmap = b.expect ∨ limit = 0 ∨
        (s.stack b.stack).cycles.toNat + 1 < q.since + 1000 * limit then s
    else
      let s := (s.setSeg a { q with late := true }).addSat (pA BILO_MISSING) 31 0 1
      (s.biloLast b gen n false).evStack b.stack 0x51 1
        (barrowPayload b gen n + (b.expect &&& ~~~q.bitmap).toNat * 2 ^ 64)

/-! ### Barrow commands (R374, R375, R381, R389) -/

/-- The end of a command: its ERROR, GO and BUSY clear. -/
def State.biloError (s : State) (n : Nat) : State :=
  (((s.setFld (pA BILO_COMMAND) 29 26 n).setBit (pA BILO_COMMAND) 31 false).setBit (pA BILO_COMMAND) 30 false).modBilo fun x =>
    { x with busy := none }

/-- A valid entry (R375). -/
def Barrow.ok (b : Barrow) (own : Nat) : Bool :=
  let t := b.stack
  let fits (lo n : Nat) : Bool := inFast lo (lo + n) && lo / 2 ^ 37 = t && (lo + n - 1) / 2 ^ 37 = t
  let kids := (List.range 64).filter fun i => b.expect.getLsbD i && i ≠ b.self
  (b.word 0).getLsbD 63 && decide (b.wire ≤ 2) && fits b.local_ (2 * b.size) && fits b.node (2 * b.size)
    && fits b.scales (16384 + 4 * b.segments) && fits b.err b.size
    && (b.expect = 0 || b.expect.getLsbD b.self) && (kids.all fun i => (b.child i).isSome)
    && (b.root = decide (b.parent = own)) && !(b.word 0).getLsbD 60 && bits (b.word 1) 63 60 = 0 && bits (b.word 4) 63 46 = 0
    && bits (b.word 5) 63 60 = 0 && bits (b.word 6) 63 46 = 0 && bits (b.word 7) 36 14 = 0
    && (List.range 48).all (fun i => !(b.word (8 + i / 4)).getLsbD (16 * (i % 4) + 14))
    && (List.range 12).all fun i => b.word (20 + i) = 0

def State.barrowEntryAt (s : State) (id : Nat) : Nat := s.fld (pA BILO_BARROW_BASE) 45 20 * 2 ^ 20 + 256 * id

/-- A command that cannot end yet. -/
def State.biloBusy (s : State) (op id : Nat) : State :=
  ((s.setBit (pA BILO_COMMAND) 31 true).setBit (pA BILO_COMMAND) 30 true).modBilo fun x => { x with busy := some (op, id) }

/-- OP 1: the entry read and checked, its areas zeroed, G taken; the command stays busy while an access of it must wait. -/
def State.barrowOpen (s : State) (id : Nat) : State :=
  if (s.barrow id).isSome then s.biloError 2
  else if s.blocked [(s.barrowEntryAt id, 256)] [] then s.biloBusy 1 id
  else
    let got := s.readFast (s.barrowEntryAt id) 256
    let s := got.1
    let ps := got.2
    let ws := (List.range 32).map fun i => BitVec.ofNat 64 (ofLeBytes (((dataOf ps).drop (8 * i)).take 8))
    let b : Barrow := { id := id, words := ws, gen := BitVec.ofNat 8 (bits (ws.getD 0 0) 53 46), got := [] }
    if anyPoison ps ∨ !b.ok s.ownId then s.biloError 1
    else if s.blocked [] (b.halves b.gen ++ b.halves (b.gen + 1)) then s.biloBusy 1 id
    else
      let s := s.modBilo fun x => { x with barrows := x.barrows ++ [b] }
      ((s.clearHalf b b.gen).clearHalf b (b.gen + 1)).biloError 0

/-- Whether the current generation has a contribution pending: a segment that holds some and has not gone on, but for a RESULT write
that was refused (R381). -/
def State.barrowPending (s : State) (b : Barrow) : Bool :=
  (List.range b.segments).any fun n =>
    let l := s.seg (b.at_ b.local_ b.gen n / 4096)
    let q := s.seg (b.at_ b.node b.gen n / 4096)
    (l.bitmap ≠ 0 && !l.sent) || (b.expect ≠ 0 && q.bitmap ≠ 0 && !(if b.root then q.delivered || q.refused else q.sent))

/-- A barrow retired (R375, R474): its segments unmarked, and VALID cleared in its entry. -/
def State.closeBarrow (s : State) (b : Barrow) : State :=
  let s := s.modBilo fun x => { x with barrows := x.barrows.filter fun y => y.id ≠ b.id }
  let w := (b.word 0) &&& 0x7FFFFFFFFFFFFFFF
  (s.writeFast (s.barrowEntryAt b.id) (plain (leBytes 8 w.toNat))).1

/-- OP 2: the segments unmarked and VALID cleared once nothing is pending; until then the command stays busy. -/
def State.barrowRetire (s : State) (id : Nat) : State :=
  match s.barrow id with
  | none => s.biloError 2
  | some b =>
    if s.barrowPending b || s.blocked [] [(s.barrowEntryAt id, 8)] then s.biloBusy 2 id
    else
      (s.closeBarrow b).biloError 0

/-- OP 3: the contributors of EXCUSE set in every incomplete node segment of a generation; a RESULT that was refused counts
as delivered. -/
def State.barrowExcuse (s : State) (id : Nat) (gen : Byte) : State :=
  match s.barrow id with
  | none => s.biloError 2
  | some b =>
    if b.expect = 0 ∨ b.window gen ≠ 0 then s.biloError 3
    else
      let mask := s.pReg BILO_EXCUSE &&& b.expect
      let s := (List.range b.segments).foldl (fun s n =>
        let a := b.at_ b.node gen n / 4096
        let q := s.seg a
        if q.bitmap ≠ b.expect then s.setSeg a { q with bitmap := q.bitmap ||| mask, gen := some gen }
        else if q.sent && q.refused then s.setSeg a { q with delivered := true } else s) s
      let s := (s.evStack b.stack 0x51 2).biloError 0
      if b.root ∧ gen = b.gen then s.rootDone b else s

/-- Barrow packets that were held tried again, in their order (R376). -/
def State.releaseHeld (s : State) : State :=
  s.bilo.held.foldl (fun s p => if p.typ = 9 then s.barrowContribution p
    else if p.subtype = 1 then s.barrowDone p else s.barrowResend p) (s.modBilo fun b => { b with held := [] })

/-- What waits at the Bilo side goes on where it now can: held packets, and the command in progress. -/
def State.biloOn (s : State) : State :=
  let s := if s.bilo.held.isEmpty then s else s.releaseHeld
  match s.bilo.busy with
  | some (1, id) => s.barrowOpen id
  | some (_, id) => s.barrowRetire id
  | none => s

/-- A write of BILO_COMMAND (R11, R389): the fields are set, and GO starts the command unless one is in progress. -/
def State.biloCommand (s : State) (v : W32) : State :=
  let a := pA BILO_COMMAND
  let op := v.toNat / 2 ^ 24 % 4
  let id := v.toNat / 2 ^ 8 % 2 ^ 12
  let s := ((s.setFld a 25 24 op).setFld a 19 8 id).setFld a 7 0 (v.toNat % 256)
  if s.bit a 30 then s
  else if !v.getLsbD 31 then s
  else match op with
    | 1 => s.barrowOpen id
    | 2 => s.barrowRetire id
    | 3 => s.barrowExcuse id (v.setWidth 8)
    | _ => s.biloError 0

/-! ### Arrival (R227, R366 to R371, R373) -/

/-- A response to a request of another module from the base die it came in by. -/
def State.refuseArrival (s : State) (p : BiloPacket) (status : Nat) : State :=
  if !p.final then s
  else match s.biloPort p.src.toNat p.srcCore.toNat with
  | some q => s.biloSend q { BiloPacket.blank 6 1 p.src.toNat s.ownId with
      srcCore := p.srcCore, tag := p.tag, addr := p.addr, status := status, len := if p.typ = 2 then p.len else p.data.length,
      gen := p.gen, barrow := p.barrow, segment := p.segment }
  | none => s.addSat (pA BILO_NO_DEVICE) 31 0 1

/-- A relayed crier message re-issued (R373): TYPE 9, to the core of a token or to the table that holds an address. -/
def State.relayIn (s : State) (p : BiloPacket) : State :=
  let a := p.addr.toNat
  let dev := p.src.toNat * 2 ^ 16
  let msg (kind dest arg payload : Nat) : Crier :=
    { typ := 9, kind := kind, dest := dest, src := p.srcCore.toNat, arg := BitVec.ofNat 6 arg,
      payload := BitVec.ofNat 32 payload, event := none }
  if p.subtype = 1 then s.crier (msg 0 (a % 1024) 1 (dev + p.tag.toNat % 16))
  else match classify a with
    | .sp c _ => s.crier (msg 0 c 3 (dev + p.tag.toNat))
    | .fast c => s.crier (msg 1 c 3 (dev + p.tag.toNat))
    | .slow t => s.crier (msg 1 (t * 64) 3 (dev + p.tag.toNat))
    | _ => s

/-- A request of another module issued on the package from its arrival port's base die (R227). -/
def State.requestIn (s : State) (port : Nat) (p : BiloPacket) : State :=
  let a := p.addr.toNat
  let size := if p.typ = 2 then p.len else if p.typ = 4 then p.data.length * 32 / contribBits p.fmt else p.data.length
  let spans := if p.pieces.isEmpty then [(a, size)] else p.pieces
  if !spans.all fun x => s.targetOk x.1 x.2 (p.typ = 4 || p.typ = 5) then s.refuseArrival p 1
  else s.injectAt (portStack port * 64) { Packet.blank p.typ (ownerCore a) 0x3FF p.tag with
    addr := p.addr, contrib := p.contrib.toNat, gen := p.gen, fmt := p.fmt, data := p.data, poison := p.poison, len := p.len,
    pieces := spans, unit := p.unit, final := p.final, port := some (port, p.src.toNat, p.srcCore.toNat, p.tag) }

/-- A response for a core of this module (R227): on the package to the issuing core. -/
def State.responseIn (s : State) (port : Nat) (p : BiloPacket) : State :=
  if forwards p then s
  else s.injectAt (portStack port * 64) { Packet.blank p.typ p.srcCore.toNat (portStack port * 64) p.tag with
    addr := p.addr, status := p.status, data := p.data, poison := p.poison, len := p.len }

/-- A packet for another device passes on by the route, its CRC unchecked (R368, R371); where no port leads on, a request is answered
NO_DEVICE. -/
def State.passOn (s : State) (p : BiloPacket) : State :=
  match s.biloPort p.dst.toNat p.srcCore.toNat with
  | some q => s.biloSend q p
  | none =>
    let s := s.addSat (pA BILO_NO_DEVICE) 31 0 1
    if p.cls = 0 then s.refuseArrival p 8 else s

/-- A packet that arrives at a port that is up (R368, R370): passed on where another device is its destination; a request waits at the port
while the module rests or wakes (R407). -/
def State.biloArrival (s : State) (port : Nat) (p : BiloPacket) : State :=
  if !s.portUp port then s
  else if p.dst.toNat ≠ s.ownId then s.passOn p
  else if (s.host.restPhase = 1 ∨ s.host.restPhase = 3) ∧ p.cls = 0 then
    s.trigger.modBilo fun b => { b with waiting := b.waiting ++ [(port, p)] }
  else if !p.crcOk then
    if p.cls = 1 then
      (if forwards p then s.forwardLost fun k => k.barrow = p.barrow && k.segment = p.segment && k.gen = p.gen
        else s.injectAt (portStack port * 64) { Packet.blank 6 p.srcCore.toNat (portStack port * 64) p.tag with
          status := 5, addr := p.addr, len := p.len })
    else if p.typ ≤ 5 ∨ p.typ = 9 then s.refuseArrival p 5 else s
  else match p.typ with
    | 1 | 2 | 4 | 5 => s.requestIn port p
    | 3 | 6 => s.responseIn port p
    | 9 => s.barrowContribution p
    | 10 => if p.subtype = 1 then s.barrowDone p else s.barrowResend p
    | 11 => s.relayIn p
    | _ => s

/-- The requests that waited at their ports, once the module runs again. -/
def State.portsWake (s : State) : State :=
  s.bilo.waiting.foldl (fun s x => s.biloArrival x.1 x.2) (s.modBilo fun b => { b with waiting := [] })

/-! ### Crier messages that act at cores and tables (R119, R208, R373, R472) -/

/-- Increments to a core are dropped until it is On, and while its stack's fence stands (R472, R474). -/
def State.tokenArrives (s : State) (dest t : Nat) : State :=
  let k := s.core dest
  if (s.stack (dest / 64)).fence ∨ k.power ≤ 1 then s
  else (s.count (cA dest TOK_RECEIVED)).incToken dest t

/-- The open writes of one operation dropped from a table: a core's (kind 0), or a vault's and its stack's channel's. -/
def State.dropOpens (s : State) (kind dest : Nat) (dev : Option Nat) (core : Nat) (tag : W16) : State :=
  let keep (w : OpenWrite) : Bool := !(w.device == dev && w.core == core && w.tag == tag)
  if kind = 0 then s.modCore dest fun k => { k with opens := k.opens.filter keep }
  else (s.modVault dest fun v => { v with opens := v.opens.filter keep }).modStack (dest / 64) fun k =>
    { k with slowOpens := k.slowOpens.filter keep }

/-- A crier message of a type taken off the network, where it is the first of its source and destination. -/
def State.takeMsg (s : State) (i typ : Nat) (f : State → Crier → State) : State :=
  match s.net.msgs[i]? with
  | none => s
  | some m => if m.typ ≠ typ ∨ !s.crierFirst i then s else f (s.dropMsg i) m

def State.tokenIncrement (s : State) (i : Nat) : State :=
  s.takeMsg i 1 fun s m => s.tokenArrives m.dest (m.arg.toNat % 16)

def State.settleNotice (s : State) (i : Nat) : State :=
  s.takeMsg i 3 fun s m => s.dropOpens m.kind m.dest none m.src (m.payload.setWidth 16)

def State.biloRelay (s : State) (i : Nat) : State :=
  s.takeMsg i 9 fun s m =>
    if m.arg.toNat % 16 = 1 then s.tokenArrives m.dest (m.payload.toNat % 16)
    else s.dropOpens m.kind m.dest (some (m.payload.toNat / 2 ^ 16 % 2 ^ 14)) m.src (m.payload.setWidth 16)

end Sys2Proof.Machine
end

