-- ==== Sys2Proof/Machine/IccOps.lean ====
section
/-! DEFINITION. The interrupt controllers (R409 to R421): best source, claim, end, freeze and the priority stack, of a core
controller and of the package controller, and the messages that reach the package controller. A controller is named by
its core, or by none for the package controller. -/

namespace Sys2Proof.Machine

/-- A controller: that of a core, or the package controller. -/
abbrev Ctl := Option Nat

/-- A register of a controller that both kinds lay out alike (R422, R423). -/
def icA (k : Ctl) (off : Nat) : Nat :=
  match k with
  | some c => cA c (ICC_STATUS + off)
  | none => pA (ICP_STATUS + off)

/-- The last source of a controller (R409). -/
def icLast (k : Ctl) : Nat := if k.isSome then 63 else 1023

namespace State

def icPending (s : State) (k : Ctl) (n : Nat) : Bool :=
  match k with
  | some c => s.bit (cA c ICC_PENDING) n
  | none => s.bit (icpWord ICP_PENDING0 n) (n % 64)

def icEnabled (s : State) (k : Ctl) (n : Nat) : Bool :=
  match k with
  | some c => s.bit (cA c ICC_ENABLE) n
  | none => s.bit (icpWord ICP_ENABLE0 n) (n % 64)

def icPriority (s : State) (k : Ctl) (n : Nat) : Nat :=
  match k with
  | some c => s.fld (cA c ICC_SRC + 4 * (n - 1)) 3 0
  | none => s.fld (pA ICP_PRI + 4 * (n - 1)) 3 0

/-- A request withdrawn (R412). -/
def icWithdraw (s : State) (k : Ctl) (n : Nat) : State :=
  match k with
  | some c => s.withdrawCore c n
  | none => s.withdrawPkg n

def icFrozen (s : State) (k : Ctl) : Bool := s.bit (icA k 0) 31
def icDepth (s : State) (k : Ctl) : Nat := s.fld (icA k 0) 19 16
def icRunning (s : State) (k : Ctl) : Nat := s.fld (icA k 0) 15 12
def icSetDepth (s : State) (k : Ctl) (n : Nat) : State := s.setFld (icA k 0) 19 16 n
def icSetRunning (s : State) (k : Ctl) (n : Nat) : State := s.setFld (icA k 0) 15 12 n

/-- The place of entry e of the stack, counted from the bottom. -/
def icStackA (k : Ctl) (e : Nat) : Nat := icA k 0x40 + 4 * e
/-- Number and saved priority of an entry. -/
def icEntry (s : State) (k : Ctl) (e : Nat) : Nat × Nat :=
  if k.isSome then (s.fld (icStackA k e) 5 0, s.fld (icStackA k e) 11 8)
  else (s.fld (icStackA k e) 9 0, s.fld (icStackA k e) 15 12)
/-- Number at the top of the stack; 0 if empty. -/
def icTop (s : State) (k : Ctl) : Nat := if s.icDepth k = 0 then 0 else (s.icEntry k (s.icDepth k - 1)).1

/-- The sources that could be best: pending, enabled, above the running priority and above 0 (R415). -/
def icOpen (s : State) (k : Ctl) : List Nat :=
  (List.range (icLast k + 1)).filter fun n =>
    decide (0 < n) && s.icPending k n && s.icEnabled k n && decide (s.icRunning k < s.icPriority k n)
      && decide (0 < s.icPriority k n)

/-- The best source, 0 where none (R415): the highest priority, of equal priorities the lowest number. -/
def icBest (s : State) (k : Ctl) : Nat :=
  (s.icOpen k).foldl (fun b n => if b = 0 ∨ s.icPriority k b < s.icPriority k n then n else b) 0

/-- Whether a core controller presents an interrupt (R415). -/
def icPresents (s : State) (c : Nat) : Bool := !s.icFrozen (some c) && s.icBest (some c) ≠ 0

/-- Whether any source of a core is pending, enabled still or not: what ends a wfi (R124). -/
def icAnyPending (s : State) (c : Nat) : Bool := s.cReg c ICC_PENDING ≠ 0

/-- A freeze (R418): the fault recorded, its event and package source 35. `deep` is a claim beyond depth 8. -/
def icFreeze (s : State) (k : Ctl) (n : Nat) (deep : Bool) : State :=
  let top := s.icTop k
  let depth := s.icDepth k
  let kind := if deep then 1 else 0
  let s := s.setBit (icA k 0) 31 true
  let pay := n + top * 2 ^ 16 + depth * 2 ^ 32
  match k with
  | some c =>
    (s.setReg (icA k 0x10) (BitVec.ofNat 64 (2 ^ 31 + kind * 2 ^ 23 + depth * 2 ^ 16 + top * 2 ^ 8 + n))).evCore c 0x40
      (1 + kind) pay
  | none =>
    (s.setReg (icA k 0x10) (BitVec.ofNat 64 (2 ^ 63 + kind * 2 ^ 55 + depth * 2 ^ 48 + top * 2 ^ 32 + n))).evWarden 0 0x40
      (3 + kind) pay

/-- The result that CLAIM reads (R416). -/
def icResult (s : State) (k : Ctl) (n : Nat) : State := s.setReg (icA k 4) (BitVec.ofNat 64 n)

/-- A claim of number n (R416). -/
def icClaim (s : State) (k : Ctl) (n : Nat) : State :=
  if n = 0 ∨ icLast k < n then s.icResult k 0
  else if s.icFrozen k then s.icResult k 0
  else if !s.icPending k n then s.icResult k 0
  else if 8 ≤ s.icDepth k then (s.icFreeze k n true).icResult k 0
  else
    let d := s.icDepth k
    let run := s.icRunning k
    let word := 2 ^ 31 + n + run * (if k.isSome then 2 ^ 8 else 2 ^ 12)
    let s := s.setReg (icStackA k d) (BitVec.ofNat 64 word)
    let s := (s.icSetDepth k (d + 1)).icSetRunning k (max run (s.icPriority k n))
    (s.icWithdraw k n).icResult k n

/-- An end of number n (R417). -/
def icEoi (s : State) (k : Ctl) (n : Nat) : State :=
  if s.icFrozen k then s
  else if s.icDepth k = 0 ∨ s.icTop k ≠ n then s.icFreeze k n false
  else
    let d := s.icDepth k - 1
    let saved := (s.icEntry k d).2
    ((s.setReg (icStackA k d) 0).icSetDepth k d).icSetRunning k saved

/-- STACK_CTL.RESET (R418): the stack emptied, running priority 0, FROZEN clear. -/
def icStackReset (s : State) (k : Ctl) : State :=
  let s := (List.range 8).foldl (fun s e => s.setReg (icStackA k e) 0) s
  ((s.icSetDepth k 0).icSetRunning k 0).setBit (icA k 0) 31 false

/-- ICC_SEND (R414): one TYPE 2 message with the number; one outside 256 to 1,023 sends nothing. -/
def iccSend (s : State) (c n : Nat) : State :=
  if n < 256 ∨ 1023 < n then s
  else s.crier { typ := 2, kind := 2, dest := 0, src := c, arg := 0, payload := BitVec.ofNat 32 n, event := none }

/-- Software sources of a core raised (R410). -/
def iccRaise (s : State) (c : Nat) (v : W64) : State :=
  (List.range 16).foldl (fun s i => if v.getLsbD (48 + i) then s.raiseCore c (48 + i) else s) s

/-- Pending bits withdrawn by a write of 1 (R412). -/
def iccWithdraw (s : State) (c : Nat) (v : W64) : State :=
  s.setReg (cA c ICC_PENDING) (s.cReg c ICC_PENDING &&& ~~~(v &&& ~~~1))

/-- Program sources of word w raised (R423). -/
def icpRaise (s : State) (w : Nat) (v : W64) : State :=
  if w < 4 then s
  else (List.range 64).foldl (fun s b => if v.getLsbD b then s.raisePkg (64 * w + b) else s) s

/-- Pending bits of word w withdrawn by a write of 1 (R412). -/
def icpWithdraw (s : State) (w : Nat) (v : W64) : State :=
  let a := pA ICP_PENDING0 + 8 * w
  s.setReg a (s.reg a &&& ~~~(if w = 0 then v &&& ~~~1 else v))

/-- Bits of ICP_FWD of stack t cleared (R413): the write that clears the last withdraws the stack's source. -/
def icpFwdClear (s : State) (t : Nat) (v : W64) : State :=
  let a := pA ICP_FWD + 8 * t
  let old := s.reg a
  let s := s.setReg a (old &&& ~~~v)
  if old ≠ 0 ∧ old &&& ~~~v = 0 then s.withdrawPkg (t + 1) else s

/-- A TYPE 2 message taken by the warden (R413, R414): a forward sets the core's bit of ICP_FWD; the source is raised. -/
def interruptToWarden (s : State) (i : Nat) : State :=
  match s.net.msgs[i]? with
  | some m =>
    if m.typ = 2 ∧ s.crierFirst i then
      let s := s.dropMsg i
      let n := m.payload.toNat
      let s := if 1 ≤ n ∧ n ≤ 16 then s.setBit (pA ICP_FWD + 8 * (n - 1)) (m.src % 64) true else s
      s.raisePkg n
    else s
  | none => s

end State

end Sys2Proof.Machine
end

