-- ==== Sys2Proof/Machine/PowerOps.lean ====
section
/-! DEFINITION. Power, temperature and coolant (R424 to R446): the voltage loops, the V/F steps, the throttle demands, bench
predictions and suspect sensors, the hard trip, telemetry frames and the module's time. Each loop counts its own
evaluations (log entry 15). -/

namespace Sys2Proof.Machine

/-! ### Steps (R428 to R430) -/

/-- Frequency in MHz and voltage in mV of a V/F step (R428). -/
def stepMhz (n : Nat) : Nat := [850, 800, 750, 700, 625, 550, 475, 400].getD n 400
def stepMv (n : Nat) : Nat := [800, 770, 740, 710, 680, 650, 620, 600].getD n 600

namespace State

def modThermal (s : State) (t : Nat) (f : Thermal → Thermal) : State :=
  s.modStack t fun k => { k with thermal := f k.thermal }
def modPower (s : State) (f : Power → Power) : State := s.modWarden fun w => { w with power := f w.power }

/-- The cores of a stack in state On or Clearing. -/
def runningCores (s : State) (t : Nat) : List Nat :=
  ((List.range 64).map (t * 64 + ·)).filter fun c => (s.core c).power == 1 || (s.core c).power == 2

/-- A regulator's output sent, kept within its limits (R426): offset from its setpoint, VLG's base being 600 mV. -/
def setOut (s : State) (d : Nat) (mv : Int) : State :=
  let vlg := 4 ≤ d ∧ d < 20
  let v := if vlg then max (-50) (min mv 300) else max (-60) (min mv 60)
  s.modPower fun p => { p with out := smSet 0 p.out d v }

def outOf (s : State) (d : Nat) : Int := smGet 0 s.warden.power.out d

/-- The step whose voltage VLG must follow: the lowest that a running core holds or is to hold (R429, R430). -/
def vlgStep (s : State) (t : Nat) : Nat :=
  (s.runningCores t).foldl (fun n c => min n (min (s.fld (cA c CORE_CLOCK) 2 0) (s.fld (cA c CORE_CLOCK) 10 8))) 7

/-- The VLG target brought to the stack's step (R429, R430): a raise is sent to the regulator at once, and stands as not yet
sensed. -/
def followVlg (s : State) (t : Nat) : State :=
  let a := sA t SPWR_STATUS
  let old := s.fld a 31 16
  let n := s.vlgStep t
  let new := stepMv n
  let s := (s.setFld a 31 16 new).setFld a 2 0 n
  if old < new then
    (s.setOut (4 + t) (s.outOf (4 + t) + (new - old : Nat))).modThermal t fun h =>
      { h with oldTarget := some (h.oldTarget.getD old) }
  else s.modThermal t fun h =>
    { h with oldTarget := h.oldTarget.bind fun o => if o < new then some o else none }

/-- A core's frequency commanded (R81, R430): once its step lies within the VLG target that the sensors have shown. -/
def frequencyCommand (s : State) (c : Nat) : State :=
  let a := cA c CORE_CLOCK
  let t := c / 64
  let n := s.fld a 10 8
  let shown := ((s.stack t).thermal.oldTarget).getD (s.fld (sA t SPWR_STATUS) 31 16)
  if (s.core c).power ≠ 1 ∧ (s.core c).power ≠ 2 then s
  else if s.fld a 2 0 = n ∨ shown < stepMv n then s
  else ((s.setFld a 2 0 n).setFld a 26 16 (stepMhz n)).followVlg t

/-! ### Voltage (R426, R427) -/

/-- One update of a regulator: by target − minimum, at most 25 mV. -/
def regulate (s : State) (d target low : Nat) : State :=
  s.setOut d (s.outOf d + max (-25) (min ((target : Int) - low) 25))

/-- The droop demand raised by one step, to at most 7. -/
def raiseDroop (s : State) (t : Nat) : State :=
  s.setFld (sA t SPWR_CEIL) 6 4 (min (s.fld (sA t SPWR_CEIL) 6 4 + 1) 7)

/-- Whether the compute island of a physical core is powered: it serves a logical core that is On or Clearing. -/
def islandOn (s : State) (t x : Nat) : Bool :=
  (s.runningCores t).any fun c => s.physOf c % 128 == x / 9 * 16 + x % 9

/-- The least of a stack's VLG sensors, those of powered-off islands left out (R426); none where all are. -/
def vlgMin (s : State) (t : Nat) (r : StackSensors) : Option Nat :=
  ((r.vlg.filter fun x => s.islandOn t x.1).map (·.2)).min?

/-- An update of a regulator by the least of its domain's sensors, where there is one. -/
def regulateBy (s : State) (d target : Nat) (low : Option Nat) : State :=
  match low with
  | some low => s.regulate d target low
  | none => s

/-- The VLG regulator of a stack updated; 1 ms at 0.90 V with the minimum below target raises the droop demand (R427). -/
def regulateVlg (s : State) (t low : Nat) : State :=
  let target := s.fld (sA t SPWR_STATUS) 31 16
  let s := (s.setFld (sA t SPWR_MIN_MV) 15 0 low).regulate (4 + t) target low
  let s := if target ≤ low then s.modThermal t fun h => { h with oldTarget := none } else s
  if s.outOf (4 + t) = 300 ∧ low < target then
    if 19 ≤ (s.stack t).thermal.top then (s.modThermal t fun h => { h with top := 0 }).raiseDroop t
    else s.modThermal t fun h => { h with top := h.top + 1 }
  else s.modThermal t fun h => { h with top := 0 }

/-- The voltage loop of a steward (R425, R426), every 50 µs. -/
def voltageUpdate (s : State) (t : Nat) (r : StackSensors) : State :=
  let s := match s.vlgMin t r with
    | some low => s.regulateVlg t low
    | none => s
  let s := if t % 4 = 0 then (s.regulateBy (t / 4) 1050 r.vma.min?).regulateBy (21 + t / 4) 800 r.vmi.min? else s
  if t = 0 then s.regulateBy 20 750 r.vlk.min? else s

/-- A clock stretch (R427): the core's clock halves; more than 16 within 1 ms raise the stack's droop demand. -/
def clockStretch (s : State) (c : Nat) : State :=
  let t := c / 64
  if (s.core c).droop ∨ ((s.core c).power ≠ 1 ∧ (s.core c).power ≠ 2) then s
  else
    let s := (s.modCore c fun k => { k with droop := true, droopAt := s.now }).count (sA t SPWR_DROOPS)
    let now := (s.stack t).thermal.evals
    let recent := now :: (s.stack t).thermal.stretches.filter fun e => now < e + 20
    if 16 < recent.length then
      (s.modThermal t fun h => { h with stretches := [], calm := 0 }).raiseDroop t
    else s.modThermal t fun h => { h with stretches := recent, calm := 0 }

/-- The stretch's end: its time is charged to the droop reason, code 5, in whole µs (R427, R445). -/
def clockStretchEnd (s : State) (c : Nat) : State :=
  let k := s.core c
  if !k.droop then s
  else
    let ns := s.warden.power.droopNs + (s.now - k.droopAt).toNat
    (s.modCore c fun k => { k with droop := false, droopAt := 0 }).modPower fun p =>
      { p with droopNs := ns % 1000, durations := smSet 0 p.durations 5 (smGet 0 p.durations 5 + ns / 1000) }

/-! ### Demands (R431 to R434) -/

/-- The current demand of domain d after an evaluation: up while the current is above the limit, down by one step per ms
below 90 % of it. -/
def domainStep (s : State) (d current : Nat) (limit : Nat) (rises : Bool) : State :=
  s.modPower fun p =>
    let n := smGet 0 p.dem d
    let low := smGet 0 p.demLow d
    if rises && decide (limit < current) then { p with dem := smSet 0 p.dem d (min (n + 1) 7), demLow := smSet 0 p.demLow d 0 }
    else if current * 10 < limit * 9 then
      if 19 ≤ low then { p with dem := smSet 0 p.dem d (n - 1), demLow := smSet 0 p.demLow d 0 }
      else { p with demLow := smSet 0 p.demLow d (low + 1) }
    else { p with demLow := smSet 0 p.demLow d 0 }

/-- The domains a steward evaluates: its VLG, for stacks 0, 4, 8 and 12 the group's VMA and VMI, with stack 0 the VLK. -/
def domainsOf (t : Nat) : List Nat :=
  [4 + t] ++ (if t % 4 = 0 then [t / 4, 21 + t / 4] else []) ++ (if t = 0 then [20] else [])

/-- The current demand of a stack's cores: that of its VLG, VMA and VMI, of VLK and of the input. -/
def currentDemand (s : State) (t : Nat) : Nat :=
  [4 + t, t / 4, 21 + t / 4, 20, 26].foldl (fun n d => max n (smGet 0 s.warden.power.dem d)) 0

/-- Whether a bench's sensors are suspect (R439). -/
def suspect (s : State) (t b : Nat) : Bool := s.bit (sA t STHM_SUSPECT) b

/-- The bench demand of a core of a stack from benches that are, or are not, suspect. -/
def benchDemand (s : State) (t k : Nat) (sus : Bool) : Nat :=
  (List.range 16).foldl (fun n b =>
    if s.suspect t b = sus then max n (smGet 0 (s.stack t).thermal.benchDem (b * 64 + k)) else n) 0

/-- The demands on core c in the order of their codes 1 to 8 (R431). -/
def demands (s : State) (c : Nat) : List Nat :=
  let t := c / 64
  let k := c % 64
  [s.fld (pA PWR_STATUS) 2 0, s.currentDemand t, smGet 0 (s.stack t).thermal.coreDem k, s.benchDemand t k false,
    s.fld (sA t SPWR_CEIL) 6 4, s.fld (pA PWR_STATUS) 6 4, s.fld (pA PWR_HOST_STEP) 2 0, s.benchDemand t k true]

/-- PWR_CAP and PWR_HOST_STEP act on every core; so does the coolant: their events are the warden's. -/
def moduleReason (code : Nat) : Bool := code = 1 || code = 6 || code = 7

/-- A reason that holds n units of stack t through an evaluation (R445, R446): its duration, and its event where it has
held none for 1 s. -/
def holds (s : State) (t code n payload : Nat) : State :=
  if n = 0 then s
  else
    let p := s.warden.power
    let last := smGet 0 p.lastHeld code
    let starts := last = 0 || decide (last - 1 + 1000 ≤ p.frames)
    let s := s.modPower fun p =>
      { p with lastHeld := smSet 0 p.lastHeld code (p.frames + 1),
               durations := smSet 0 p.durations code (smGet 0 p.durations code + 50 * n) }
    if !starts then s
    else if moduleReason code then s.evWarden 0 0x20 code payload
    else (s.evStack t 0x20 code payload).raisePkg (t + 17)

/-- The module-wide demands, once per ms with stack 0's evaluations: the power cap (R431, R432). -/
def capEvaluate (s : State) (avg : Nat) : State :=
  let a := pA PWR_STATUS
  let cap := 1000 * s.fld (pA PWR_CAP) 10 0
  let d := s.fld a 2 0
  let p := s.warden.power
  let top := if d = 7 then p.capTop + 1 else 0
  let s := s.modPower fun p => { p with capTop := top }
  if cap < avg then
    let s := (s.setFld a 2 0 (min (d + 1) 7)).modPower fun p => { p with capLow := 0 }
    if 10 ≤ top ∧ !s.bit a 15 then (s.setBit a 15 true).evWarden 0 0x20 0x09 else s
  else
    let s := s.setBit a 15 false
    if avg + 50000 ≤ cap then
      if 9 ≤ p.capLow then (s.setFld a 2 0 (d - 1)).modPower fun p => { p with capLow := 0 }
      else s.modPower fun p => { p with capLow := p.capLow + 1 }
    else s.modPower fun p => { p with capLow := 0 }

/-- The droop demand falls by one step per 10 ms without a stretch (R427). -/
def droopFall (s : State) (t : Nat) : State :=
  if 199 ≤ (s.stack t).thermal.calm then
    (s.modThermal t fun h => { h with calm := 0 }).setFld (sA t SPWR_CEIL) 6 4 (s.fld (sA t SPWR_CEIL) 6 4 - 1)
  else s.modThermal t fun h => { h with calm := h.calm + 1 }

/-- The current demands of the domains a steward evaluates; more than 1,500 W for 100 µs takes every core's to 7. -/
def currentEvaluate (s : State) (t : Nat) (r : PowerReadings) : State :=
  let of (d : Nat) : Nat := ((r.currents.find? fun x => x.1 == d).map (·.2)).getD 0
  let s := (domainsOf t).foldl (fun s d => s.domainStep d (of d) (s.fld (pA PWR_LIMIT + 4 * d) 15 0) true) s
  let s := if t = 0 then s.domainStep 26 r.inputAvg 1500000 false else s
  let s := if r.over1500 then s.modPower fun p => { p with dem := smSet 0 p.dem 26 7, demLow := smSet 0 p.demLow 26 0 } else s
  s.setFld (sA t SPWR_CEIL) 2 0 (smGet 0 s.warden.power.dem (4 + t))

/-- Which reasons hold the stack's cores, and its marked benches, through an evaluation (R445). -/
def holdAll (s : State) (t : Nat) : State :=
  let marks := (List.range 16).filter fun b => s.bit (sA t STHM_MARKS) b
  (List.range 8).foldl (fun s i =>
    let held := (s.runningCores t).filter fun c =>
      let n := s.fld (cA c CORE_CLOCK) 10 8
      decide (0 < n) && (s.demands c).getD i 0 == n
    let benches := if i = 3 then marks.filter (fun b => !s.suspect t b) else if i = 7 then marks.filter (s.suspect t) else []
    let payload := match held.head? with
      | some c => c + s.fld (cA c CORE_CLOCK) 10 8 * 2 ^ 16
      | none => t * 2 ^ 10
    s.holds t (i + 1) (held.length + benches.length) payload) s

/-- A steward's evaluation of its cores' steps (R431), every 50 µs; with stack 0 also the warden's. -/
def stepEvaluation (s : State) (t : Nat) (r : PowerReadings) : State :=
  let n := (s.stack t).thermal.evals + 1
  let s := s.modThermal t fun h => { h with evals := n }
  let s := s.currentEvaluate t r
  let s := if t = 0 ∧ n % 20 = 0 then s.capEvaluate r.inputAvg else s
  let s := s.droopFall t
  let s := (s.runningCores t).foldl (fun s c => s.setFld (cA c CORE_CLOCK) 10 8 ((s.demands c).foldl max 0)) s
  (s.followVlg t).holdAll t

/-- A write of PWR_CAP (R432). -/
def capWrite (s : State) (v : W32) : State :=
  let w := v.toNat % 2048
  s.setFld (pA PWR_CAP) 10 0 (if w < 500 then 500 else if 1200 < w then 1200 else w / 25 * 25)

/-- A write of PWR_LIMIT d: a value above the default is taken as the default (R433). -/
def limitWrite (s : State) (a v : Nat) : State := s.setFld a 15 0 (min (v % 65536) (regDefault a).toNat)

/-- At wake every temperature and current demand restarts from 0 (R435). -/
def wakeDemands (s : State) : State :=
  let s := s.modPower fun p => { p with dem := [], demLow := [] }
  (List.range 16).foldl (fun s t =>
    (s.modThermal t fun h => { h with benchDem := [], coreDem := [], coreCool := [] }).setFld (sA t SPWR_CEIL) 2 0 0) s

/-! ### The hard trip (R440, R441) -/

/-- A hard trip: THERMTRIP# asserted, its cause recorded, every island stopped and the regulators off. -/
def trip (s : State) (kind t unitNo : Nat) (temp : W16) : State :=
  let s := s.setReg (pA THM_TRIP)
    (BitVec.ofNat 64 (2 ^ 31 + kind % 4 * 2 ^ 29 + t % 16 * 2 ^ 25 + unitNo % 512 * 2 ^ 16 + temp.toNat))
  let s := s.modWarden fun w => { w with
    pins := { w.pins with thermtrip := true }, stopped := 2, step := none, reset := none, renewed := false,
    hot := if w.hot.contains t then w.hot else w.hot ++ [t], power := { w.power with off := true } }
  { s with cores := [], net := { s.net with packets := [], msgs := [] } }

/-! ### Temperatures (R434, R437 to R439) -/

def sens (r : StackSensors) (b k : Nat) : Int := ((r.benches.find? fun x => x.1 == b && x.2.1 == k).map (·.2.2)).getD 0
/-- Power in mW delivered into bench b by a vault in 1 ms: what its controller counted, weighted by the characterised energies (R438). -/
def vaultPower (r : StackSensors) (b v : Nat) : Nat :=
  match r.work.find? fun x => x.bench == b && x.vault == v with
  | some x => (x.rowCycles * Config.energy 0 + x.refreshes * Config.energy 1 + x.steps * Config.energy 2 + x.beuRows * Config.energy 3)
      / 1000000
  | none => 0

/-- Power in mW delivered into bench b by the vaults assigned to position k. -/
def posPower (r : StackSensors) (t b k : Nat) : Nat :=
  (List.range 64).foldl (fun n v => if (Config.sensorOf t v).val = k then n + vaultPower r b v else n) 0

/-- The prediction for bench b at position k, in units of 0.25 °C, rounded down (R438): a suspect neighbour's value is its own
prediction from the previous ms. -/
def predict (s : State) (t : Nat) (r : StackSensors) (b k : Nat) : Int :=
  let at_ (n : Nat) : Int := if s.suspect t n then smGet 0 (s.stack t).thermal.pred (n * 16 + k) else sens r n k
  (32000 * (at_ (b - 1) + at_ (b + 1)) + (s.fld (sA t STHM_GAIN) 15 0 * posPower r t b k : Nat)) / 64000

def maxInt (xs : List Int) : Int := xs.foldl max (xs.headD 0)

/-- The signed 16 bits of a temperature as registers hold it. -/
def temp16 (v : Int) : Nat := (BitVec.ofInt 16 v).toNat

/-- Readings and predictions of a stack taken over (R437, R438). -/
def takeReadings (s : State) (t : Nat) (r : StackSensors) : State :=
  let keys := (List.range 16).flatMap fun b => (List.range 16).map fun k => (b, k)
  let read := keys.foldl (fun (m : SMap Int) x => smSet 0 m (x.1 * 16 + x.2) (sens r x.1 x.2)) []
  let pred := (keys.filter fun x => 1 ≤ x.1 ∧ x.1 ≤ 14).foldl
    (fun (m : SMap Int) x => smSet 0 m (x.1 * 16 + x.2) (s.predict t r x.1 x.2)) []
  let s := s.modThermal t fun h => { h with pred := pred }
  (List.range 16).foldl (fun s b =>
    let top (m : SMap Int) := maxInt ((List.range 16).map fun k => smGet 0 m (b * 16 + k))
    let p := if 1 ≤ b ∧ b ≤ 14 then temp16 (top pred) else 0
    s.setReg (sA t STHM_BENCH + 4 * b) (BitVec.ofNat 64 (temp16 (top read) + p * 65536))) s

/-- A bench's reading, its prediction, and the temperature the steward takes it to be. -/
def benchRead (s : State) (t b : Nat) : Int := (BitVec.ofNat 16 (s.fld (sA t STHM_BENCH + 4 * b) 15 0)).toInt
def benchPred (s : State) (t b : Nat) : Int := (BitVec.ofNat 16 (s.fld (sA t STHM_BENCH + 4 * b) 31 16)).toInt
def benchTemp (s : State) (t b : Nat) : Int := if s.suspect t b then s.benchPred t b else s.benchRead t b

/-- The suspect declaration (R439): at the 50th evaluation in a row of a bench from 1 to 14 more than 8 °C below its
prediction. -/
def suspectBench (s : State) (t b : Nat) : State :=
  if b = 0 ∨ b = 15 ∨ s.suspect t b then s
  else
    let n := if s.benchRead t b + 32 < s.benchPred t b then smGet 0 (s.stack t).thermal.low b + 1 else 0
    if n < 50 then s.modThermal t fun h => { h with low := smSet 0 h.low b n }
    else
      let s := (s.modThermal t fun h => { h with low := smSet 0 h.low b 0 }).setBit (sA t STHM_SUSPECT) b true
      (s.evStack t 0x21 0x01 (b + t * 16 + temp16 (s.benchRead t b) * 2 ^ 16 + temp16 (s.benchPred t b) * 2 ^ 32)).raisePkg
        (t + 17)

/-- A counter of ms in a row. -/
def runOf (m : SMap Nat) (k : Nat) (holds : Bool) : SMap Nat := smSet 0 m k (if holds then smGet 0 m k + 1 else 0)

/-- The refresh interval of a bench (R253): shorter at once, longer after 10 ms 2 °C below its threshold. -/
def rateBench (s : State) (t b : Nat) : State :=
  let x := s.benchTemp t b
  let s := s.modThermal t fun h =>
    { h with cool1 := runOf h.cool1 b (decide (x ≤ 332)), cool2 := runOf h.cool2 b (decide (x ≤ 372)) }
  let h := (s.stack t).thermal
  let old := s.fld (vA (t * 64) VC_BENCH_RATE) (2 * b + 1) (2 * b)
  let new := if 380 ≤ x ∨ (old = 2 ∧ smGet 0 h.cool2 b < 10) then 2
             else if 340 ≤ x ∨ (1 ≤ old ∧ smGet 0 h.cool1 b < 10) then 1 else 0
  if new = old then s
  else (List.range 64).foldl (fun s v => s.setFld (vA (t * 64 + v) VC_BENCH_RATE) (2 * b + 1) (2 * b) new) s

/-- The core whose vault delivers the most power into a bench. -/
def hottestVault (r : StackSensors) (b : Nat) : Nat :=
  (List.range 64).foldl (fun m v => if vaultPower r b m < vaultPower r b v then v else m) 0

/-- The two stages of the bench-temperature reason (R434). -/
def markBench (s : State) (t b : Nat) (r : StackSensors) : State :=
  let x := s.benchTemp t b
  let was := s.bit (sA t STHM_MARKS) b
  let mark := was || decide (360 ≤ x) || s.suspect t b
  let since := if was then smGet 0 (s.stack t).thermal.marked b + 1 else 0
  let s := s.modThermal t fun h =>
    { h with marked := smSet 0 h.marked b (if mark then since else 0), below := runOf h.below b (decide (x < 348)) }
  let cool := smGet 0 (s.stack t).thermal.below b
  let s := s.setBit (sA t STHM_MARKS) b (mark && (s.suspect t b || decide (cool < 10)))
  if mark && decide (5 ≤ since) && decide (360 ≤ x) then
    let k := b * 64 + hottestVault r b
    s.modThermal t fun h => { h with benchDem := smSet 0 h.benchDem k (min (smGet 0 h.benchDem k + 1) 7) }
  else if 10 ≤ cool ∧ cool % 10 = 0 then
    (List.range 64).foldl (fun s v => s.modThermal t fun h =>
      { h with benchDem := smSet 0 h.benchDem (b * 64 + v) (smGet 0 h.benchDem (b * 64 + v) - 1) }) s
  else s

/-- The core-temperature demands of a stack (R431), and its hottest core. -/
def coreTemps (s : State) (t : Nat) (r : StackSensors) : State :=
  let of (k : Nat) : Int := ((r.cores.find? fun x => x.1 == k).map (·.2)).getD 0
  let s := (List.range 64).foldl (fun s k =>
    let x := of k
    s.modThermal t fun h =>
      let d := smGet 0 h.coreDem k
      let n := if x ≤ 380 then smGet 0 h.coreCool k + 1 else 0
      let d' := if 400 ≤ x then min (d + 1) 7 else if n = 10 then d - 1 else d
      { h with coreDem := smSet 0 h.coreDem k d', coreCool := smSet 0 h.coreCool k (n % 10) }) s
  let hot := (List.range 64).foldl (fun m k => if of m < of k then k else m) 0
  s.setReg (sA t STHM_CORE_HOT) (BitVec.ofNat 64 (temp16 (of hot) + hot * 2 ^ 16))

/-- The hottest core and bench of the module (R448). -/
def showHottest (s : State) : State :=
  let core (t : Nat) : Int := (BitVec.ofNat 16 (s.fld (sA t STHM_CORE_HOT) 15 0)).toInt
  let t := (List.range 16).foldl (fun m t => if core m < core t then t else m) 0
  let bench (n : Nat) : Int := s.benchTemp (n / 16) (n % 16)
  let b := (List.range 256).foldl (fun m n => if bench m < bench n then n else m) 0
  (s.setReg (pA THM_HOT) (BitVec.ofNat 64 (temp16 (core t) + temp16 (bench b) * 2 ^ 16))).setReg (pA THM_HOTID)
    (BitVec.ofNat 64 (b + (t * 64 + s.fld (sA t STHM_CORE_HOT) 21 16) * 2 ^ 16))

/-- A predicted temperature at or above 100 °C for 10 ms trips (R440). -/
def predictedTrip (s : State) (t b : Nat) : State :=
  let s := s.modThermal t fun h => { h with trips := runOf h.trips b (s.suspect t b && decide (400 ≤ s.benchPred t b)) }
  if smGet 0 (s.stack t).thermal.trips b = 10 then s.trip 2 t b (BitVec.ofInt 16 (s.benchPred t b)) else s

/-- The first reading at or above its trip limit (R440): a core's 110 °C, or a bench's 100 °C unless its sensors are suspect; kind, unit
and temperature. -/
def readingTrips (s : State) (t : Nat) (r : StackSensors) : Option (Nat × Nat × Int) :=
  match r.cores.find? fun x => decide (440 ≤ x.2) with
  | some x => some (0, s.physOf (t * 64 + x.1) / 16 % 8 * 9 + s.physOf (t * 64 + x.1) % 16, x.2)
  | none => (r.benches.find? fun x => decide (400 ≤ x.2.2) && !s.suspect t x.1).map fun x => (1, x.1, x.2.2)

/-- Whether every temperature of a stack is below its throttle limit (R440, R441). -/
def belowThrottle (r : StackSensors) : Bool := r.cores.all (fun x => decide (x.2 < 400)) && r.benches.all fun x => decide (x.2.2 < 360)

/-- The stacks with a temperature at its throttle limit or above, after a reading of one. -/
def noteHot (s : State) (t : Nat) (r : StackSensors) : State :=
  s.modWarden fun w => { w with hot := w.hot.filter (· ≠ t) ++ if belowThrottle r then [] else [t] }

/-- A steward's reading of its sensors, every 1 ms; the comparators of R440 trip on a reading at its limit. After a trip only they go on. -/
def sensorRead (s : State) (t : Nat) (r : StackSensors) : State :=
  let s := s.noteHot t r
  if s.warden.stopped ≠ 0 then s
  else match s.readingTrips t r with
  | some x => s.trip x.1 t x.2.1 (BitVec.ofInt 16 x.2.2)
  | none =>
  let s := s.takeReadings t r
  let s := (List.range 16).foldl (fun s b => ((s.suspectBench t b).rateBench t b).markBench t b r) s
  let marks := s.fld (sA t STHM_MARKS) 15 0
  let hot := (List.range 16).foldl (fun n b => max n (s.fld (vA (t * 64) VC_BENCH_RATE) (2 * b + 1) (2 * b))) 0
  let s := (List.range 64).foldl (fun s v =>
    (s.setFld (vA (t * 64 + v) NB_THROTTLE) 15 0 marks).setFld (vA (t * 64 + v) VC_STATUS) 9 8 hot) s
  let s := (s.coreTemps t r).showHottest
  (List.range 16).foldl (fun s b => s.predictedTrip t b) s

/-- Suspect bits cleared by the host (R439): evaluation starts afresh. -/
def suspectClear (s : State) (t : Nat) (v : W32) : State :=
  (List.range 16).foldl (fun s b =>
    if v.getLsbD b then
      -- the request that the bit raised is withdrawn (R412)
      let s := if s.suspect t b then s.withdrawPkg (t + 17) else s
      (s.setBit (sA t STHM_SUSPECT) b false).modThermal t fun h => { h with low := smSet 0 h.low b 0 }
    else s) s

/-! ### Coolant (R436, R442) -/

/-- The warden's reading of the coolant, every 10 ms. -/
def coolantRead (s : State) (r : CoolantReadings) : State :=
  let s := s.setReg (pA THM_COOLANT_T) (BitVec.ofNat 64 (temp16 r.inlet + temp16 r.outlet * 2 ^ 16))
  let s := s.setReg (pA THM_COOLANT_F) (BitVec.ofNat 64 (r.flow % 65536 + r.drop % 65536 * 2 ^ 16))
  let three := decide (160 < r.inlet) || decide (r.flow < 300)
  let seven := decide (180 < r.inlet) || decide (r.flow < 200)
  let good := decide (60 ≤ r.inlet) && decide (r.inlet ≤ 160) && decide (300 ≤ r.flow) && decide (r.drop ≤ 600)
  let cold := decide (r.inlet < 60)
  let was := s.warden.power.cold
  let s := s.modPower fun p =>
    { p with cool3 := (if three then p.cool3 + 1 else 0), cool7 := (if seven then p.cool7 + 1 else 0),
             cool0 := (if good then p.cool0 + 1 else 0), cold := cold }
  let p := s.warden.power
  let s := if 100 ≤ p.cool7 then s.setFld (pA PWR_STATUS) 6 4 7
           else if 100 ≤ p.cool3 then s.setFld (pA PWR_STATUS) 6 4 3
           else if 1000 ≤ p.cool0 then s.setFld (pA PWR_STATUS) 6 4 0
           else s
  if cold && !was then s.evWarden 0 0x20 0x0A else s

/-! ### Telemetry and time (R443, R444) -/

/-- The wall time (R443). -/
def wall (s : State) : W64 := s.pReg PWR_TIME_REF + (s.now - s.pReg PWR_TIME_LATCH)

/-- A write of PWR_TIME_REF that takes effect. -/
def timeRefWrite (s : State) (v : W64) : State :=
  ((s.setReg (pA PWR_TIME_REF) v).setReg (pA PWR_TIME_LATCH) s.now).modPower fun p => { p with timeSet := true }

/-- The bytes of a telemetry frame. -/
def frameBytes (s : State) (seq : Nat) (epoch : Bool) (r : PowerReadings) : List Byte :=
  let p := s.warden.power
  let of (d : Nat) : Nat := ((r.currents.find? fun x => x.1 == d).map (·.2)).getD 0
  leBytes 4 seq ++ leBytes 4 ((if epoch then 1 else 0) + if p.timeSet then 2 else 0) ++ leBytes 8 s.wall.toNat
    ++ leBytes 4 s.now.toNat ++ leBytes 4 r.inputAvg ++ leBytes 2 r.inputMv ++ leBytes 2 (s.fld (pA PWR_CAP) 10 0)
    ++ (List.range 26).flatMap (fun d => leBytes 2 (of d))
    ++ (List.range 8).flatMap (fun i => leBytes 4 (smGet 0 p.durations (i + 1)))
    ++ leBytes 2 (s.fld (pA THM_HOT) 15 0) ++ leBytes 2 (s.fld (pA THM_HOTID) 25 16)
    ++ leBytes 2 (s.fld (pA THM_HOT) 31 16) ++ leBytes 2 (s.fld (pA THM_HOTID) 7 0)
    ++ leBytes 2 (s.fld (pA THM_COOLANT_T) 15 0) ++ leBytes 2 (s.fld (pA THM_COOLANT_T) 31 16)
    ++ leBytes 2 (s.fld (pA THM_COOLANT_F) 15 0) ++ leBytes 2 (s.fld (pA THM_COOLANT_F) 31 16)

/-- The device address of telemetry frame slot i. -/
def frameA (i : Nat) : Nat := pA 0x31000 + 0x80 * i

/-- One telemetry frame, every 1 ms: written to slot SEQ mod 64, then PWR_FRAME_SEQ set; the inputs' voltages shown in
SHUT_INPUT (R517). The first frame has SEQ 0 (log entry 16). -/
def telemetryFrame (s : State) (r : PowerReadings) : State :=
  let n := s.warden.power.frames
  let seq := n % 2 ^ 32
  let a := pA PWR_STATUS
  let epoch := decide (n / 2 ^ 32 % 2 = 1)
  let s := s.setBytes (frameA (seq % 64)) (s.frameBytes seq epoch r)
  let s := ((s.setReg (pA PWR_FRAME_SEQ) (BitVec.ofNat 64 seq)).setBit a 14 epoch).setFld a 31 16 (r.inputAvg / 1000 % 65536)
  let s := s.setReg (pA SHUT_INPUT) (BitVec.ofNat 64 (r.vauxMv % 65536 * 65536 + min r.inputMv 65535))
  s.modPower fun p => { p with frames := n + 1, durations := [] }

end State

end Sys2Proof.Machine
end

