-- ==== Sys2Proof/Machine/HostOps.lean ====
section
/-! DEFINITION. The host's queues and launches (R395 to R401), MSI-X unmasking (R405), and Rest (R406, R407). -/

namespace Sys2Proof.Machine

/-- A register of queue q (R408), by the offset of queue 0's. -/
def qA (q off : Nat) : Nat := pA off + 0x20 * q

/-- Bring-up has ended: DONE reads 5 (R452, R453). -/
def State.inService (s : State) : Bool := s.fld (pA BRG_STATUS) 27 25 == 5

/-! ### Queues (R395) -/

/-- Entries pending in a queue. -/
def State.qPending (s : State) (q : Nat) : Nat := (s.fld (qA q Q_TAIL) 7 0 + 256 - s.fld (qA q Q_HEAD) 7 0) % 256

/-- A write of Q_TAIL: with ENABLE set, one that lowers the pending count is a tail fault. -/
def State.tailWrite (s : State) (q v : Nat) : State :=
  let v := v % 256
  if s.bit (qA q Q_CONTROL) 31 && decide ((v + 256 - s.fld (qA q Q_HEAD) 7 0) % 256 < s.qPending q) then
    ((s.setBit (qA q Q_CONTROL) 30 true).setBit (qA q Q_CONTROL) 31 false).addSat (qA q Q_REFUSED) 31 0 1
  else s.setFld (qA q Q_TAIL) 7 0 v

/-- A write of Q_CHEAD frees completion records. -/
def State.cheadWrite (s : State) (q v : Nat) : State := s.setFld (qA q Q_CHEAD) 7 0 (v % 256)

/-- A write of Q_CONTROL: ENABLE keeps its value until DONE reads 5 (R452); TAIL_FAULT is cleared by a 1. -/
def State.qControl (s : State) (q : Nat) (v : W32) : State :=
  let a := qA q Q_CONTROL
  let s := if s.inService then s.setBit a 31 (v.getLsbD 31) else s
  let s := if v.getLsbD 30 then s.setBit a 30 false else s
  s.setFld a 10 0 (v.toNat % 2048)

/-- Whether a queue may take an entry (R395, R406): enabled, one pending, fewer than 255 records not freed, no Rest under
way. -/
def State.takes (s : State) (q : Nat) : Bool :=
  s.bit (qA q Q_CONTROL) 31 && decide (0 < s.qPending q)
    && decide ((s.fld (qA q Q_CTAIL) 7 0 + 256 - s.fld (qA q Q_CHEAD) 7 0) % 256 < 255) && s.host.restPhase == 0
    && !s.bit (pA BRG_STATUS) 29

/-- The bytes of entry i of a queue's ring (R392, R396). -/
def State.entryBytes (s : State) (q i : Nat) : List Byte := s.bar0 (0x1000000 + 0x4000 * q + 64 * i) 64
/-- Word i of an entry. -/
def entryWord (bs : List Byte) (i : Nat) : Nat := ofLeBytes ((bs.drop (8 * i)).take 8)
/-- Bits hi to lo of word i of an entry. -/
def entryFld (bs : List Byte) (i hi lo : Nat) : Nat := entryWord bs i / 2 ^ lo % 2 ^ (hi - lo + 1)

def entryOp (bs : List Byte) : Nat := entryFld bs 0 7 0
def entryIrq (bs : List Byte) : Bool := entryFld bs 0 8 8 = 1
def entryWait (bs : List Byte) : Bool := entryFld bs 0 9 9 = 1
def entryFirst (bs : List Byte) : Nat := entryFld bs 0 41 32
def entryCount (bs : List Byte) : Nat := entryFld bs 0 52 42
/-- The cores of a launch. -/
def entryCores (bs : List Byte) : List Nat := (List.range (entryCount bs)).map (entryFirst bs + ·)

/-- Whether a field that R396 leaves zero is not. -/
def entryReserved (bs : List Byte) : Bool :=
  if entryOp bs = 2 then
    entryFld bs 0 63 10 ≠ 0 || entryFld bs 4 31 0 ≠ 0 || [1, 2, 3, 5, 6, 7].any fun i => entryWord bs i ≠ 0
  else
    entryFld bs 0 63 53 ≠ 0 || entryFld bs 0 31 10 ≠ 0 || entryFld bs 1 62 31 ≠ 0 || entryFld bs 5 62 31 ≠ 0
      || entryFld bs 6 63 22 ≠ 0 || entryWord bs 7 ≠ 0

/-- Whether word i is an address that R400 refuses. -/
def entryBadAddr (bs : List Byte) (i : Nat) : Bool :=
  entryFld bs i 1 0 ≠ 0 || (entryFld bs i 63 63 = 0 && entryFld bs i 30 21 ≠ 0)

/-- The address a word of an entry gives core c (R396). -/
def entryAddr (bs : List Byte) (i c : Nat) : Nat :=
  if entryFld bs i 63 63 = 0 then 0x3E8000000000 + entryFld bs i 20 0 else c * 2 ^ 31 + entryFld bs i 30 0

/-- The reason an entry is refused with, 0 where it is not (R400): the first that holds. -/
def State.entryReason (s : State) (bs : List Byte) : Nat :=
  if (entryOp bs ≠ 1 ∧ entryOp bs ≠ 2) ∨ entryReserved bs then 1
  else if entryOp bs = 2 then 0
  else if entryCount bs = 0 ∨ 1024 < entryFirst bs + entryCount bs then 2
  else if (entryCores bs).any s.unserved then 3
  else if entryBadAddr bs 1 ∨ entryBadAddr bs 5 then 4
  else 0

/-- Q_HEAD past the entry taken, and the rotation past its queue (R397). -/
def State.advanceHead (s : State) (q : Nat) : State :=
  (s.setFld (qA q Q_HEAD) 7 0 ((s.fld (qA q Q_HEAD) 7 0 + 1) % 256)).modHost fun h => { h with rotate := (q + 1) % 64 }

/-- A completion record written whole (R401), then Q_CTAIL advanced, PHASE inverted on a wrap, and with IRQ the queue's
message sent. -/
def State.writeRecord (s : State) (q index : Nat) (bs : List Byte) (status reason core report : Nat) : State :=
  let a := qA q Q_CTAIL
  let ct := s.fld a 7 0
  let ph := s.fld a 8 8
  let w0 := status + entryOp bs * 2 ^ 8 + index * 2 ^ 16 + ph * 2 ^ 24 + reason * 2 ^ 25 + core * 2 ^ 32
  let w1 := entryFld bs 4 63 32 * 2 ^ 32
  let s := s.setBar0 (0x1100000 + 0x2000 * q + 32 * ct) (leBytes 8 w0 ++ leBytes 8 w1 ++ leBytes 8 report ++ leBytes 8 s.now.toNat)
  let s := s.setFld a 7 0 ((ct + 1) % 256)
  let s := if ct = 255 then s.setFld a 8 8 (1 - ph) else s
  if entryIrq bs then s.sendMsix (s.fld (qA q Q_CONTROL) 10 0) else s

/-- An entry refused at once (R400). -/
def State.refuseEntry (s : State) (q : Nat) (bs : List Byte) (reason : Nat) : State :=
  let i := s.fld (qA q Q_HEAD) 7 0
  ((s.advanceHead q).addSat (qA q Q_REFUSED) 31 0 1).writeRecord q i bs 1 reason 0 0

/-! ### Launches (R397 to R399) -/

/-- A core that a launch may take: On, its tally empty, no launch in progress. -/
def State.coreIdle (s : State) (c : Nat) : Bool :=
  (s.core c).power == 2 && (s.core c).tally.isEmpty && (s.core c).launchQ.isNone

/-- Whether earlier entries of a queue are in progress. -/
def State.queueBusy (s : State) (q : Nat) : Bool := s.host.launches.any fun l => l.queue == q

/-- Whether the entry at a queue's head can be taken now (R397): one that is refused, or waits for nothing. -/
def State.servable (s : State) (q : Nat) : Bool :=
  s.takes q &&
    let bs := s.entryBytes q (s.fld (qA q Q_HEAD) 7 0)
    s.entryReason bs ≠ 0 ||
      if entryOp bs = 2 then !s.queueBusy q else !(entryWait bs && s.queueBusy q) && (entryCores bs).all s.coreIdle

/-- Whether it is a queue's turn in the rotation (R397): none before it has an entry that can be taken. DESIGN CHOICE (log entry 147):
after reset the rotation begins with queue 0. -/
def State.queueTurn (s : State) (q : Nat) : Bool :=
  (List.range ((q + 64 - s.host.rotate) % 64)).all fun k => !s.servable ((s.host.rotate + k) % 64)

/-- A core started by a launch (R398): index i of n in it. -/
def State.startCore (s : State) (q index : Nat) (bs : List Byte) (c i n : Nat) : State :=
  s.modCore c fun k =>
    { k with
      icache := [], status := (if entryFld bs 6 21 21 = 1 then 0 else 1), cause := 0, tpc := 0, tval := 0,
      tvec := BitVec.ofNat 64 (entryAddr bs 5 c), scratch0 := 0, scratch1 := 0, seed := BitVec.ofNat 64 (entryWord bs 3),
      stepNo := BitVec.ofNat 32 (entryFld bs 4 31 0), idxBase := 0, vscalar := 0,
      g := smSet 0 (smSet 0 (smSet 0 [] 1 (BitVec.ofNat 64 (entryWord bs 2))) 2 (BitVec.ofNat 64 i)) 3 (BitVec.ofNat 64 n),
      pc := BitVec.ofNat 46 (entryAddr bs 1 c), run := .running, launchQ := some (q, index) }

/-- The entry at a queue's head, a LAUNCH or one that is refused: refused at once, or taken once its cores are idle and,
with WAIT_PREV, every earlier entry has completed. -/
def State.launch (s : State) (q : Nat) : State :=
  if !s.takes q || !s.queueTurn q then s
  else
    let i := s.fld (qA q Q_HEAD) 7 0
    let bs := s.entryBytes q i
    let reason := s.entryReason bs
    if reason ≠ 0 then s.refuseEntry q bs reason
    else if entryOp bs ≠ 1 then s
    else if (entryWait bs && s.queueBusy q) || !(entryCores bs).all s.coreIdle then s
    else
      let s := (s.advanceHead q).modHost fun h => { h with launches := h.launches ++ [⟨q, i, bs, none⟩] }
      let n := entryCount bs
      (List.range n).foldl (fun s j => s.startCore q i bs (entryFirst bs + j) j n) s

/-- A MARK at a queue's head: DONE once every earlier entry has completed (R397). -/
def State.mark (s : State) (q : Nat) : State :=
  if !s.takes q || !s.queueTurn q then s
  else
    let i := s.fld (qA q Q_HEAD) 7 0
    let bs := s.entryBytes q i
    if entryOp bs ≠ 2 ∨ s.entryReason bs ≠ 0 ∨ s.queueBusy q then s
    else (s.advanceHead q).writeRecord q i bs 0 0 0 0

/-- REPORT of a launch (R399): the OR of its cores' words; free where the offset is not aligned to 8 bytes, which R396 asks and R400 does
not refuse (log entry 148). -/
def State.report (s : State) (bs : List Byte) : State × Nat :=
  if entryFld bs 6 2 0 ≠ 0 then
    let got := s.takeFree
    (got.2, got.1.toNat)
  else (entryCores bs).foldl (fun (acc : State × Nat) c =>
    let got := acc.1.readSp c (entryFld bs 6 20 0) 8
    let s := got.1
    let ps := got.2
    (s, Nat.lor acc.2 (ofLeBytes (dataOf ps)))) (s, 0)

/-- The cores of a launch that it still has. -/
def State.launchCores (s : State) (l : Launch) : List Nat :=
  (entryCores l.bytes).filter fun c => (s.core c).launchQ == some (l.queue, l.index)

/-- Whether a launch is over (R399): every core of it has halted, or a core reset has ended it and no other core still runs. -/
def State.launchOver (s : State) (l : Launch) : Bool :=
  (s.launchCores l).all fun c => if l.fault.isSome then (s.core c).run != .running else (s.core c).run == .idle

/-- A launch that is over: its record, and its cores free (R399). A core that a double trap stopped stays so until its reset (R127). -/
def State.launchComplete (s : State) (q index : Nat) : State :=
  match s.host.launches.find? fun l => l.queue == q && l.index == index && s.launchOver l with
  | none => s
  | some l =>
    let cs := s.launchCores l
    if 255 ≤ (s.fld (qA q Q_CTAIL) 7 0 + 256 - s.fld (qA q Q_CHEAD) 7 0) % 256 then s
    else
      let s := s.modHost fun h => { h with launches := h.launches.erase l }
      let s := cs.foldl (fun s c => s.modCore c fun k => { k with launchQ := none }) s
      let got := s.report l.bytes
      let s := got.1
      let r := got.2
      let s := s.count (pA HIF_LAUNCHES)
      match l.fault with
      | none => s.writeRecord q index l.bytes 0 0 0 r
      | some c => s.writeRecord q index l.bytes 2 0 c r

/-- A core reset ends the launch on a core with status FAULTED (R399); the first such core is named. -/
def State.faultLaunch (s : State) (c : Nat) : State :=
  match (s.core c).launchQ with
  | none => s
  | some (q, i) => s.modHost fun h => { h with launches := h.launches.map fun l =>
      if l.queue = q ∧ l.index = i ∧ l.fault.isNone ∧ (entryCores l.bytes).contains c then { l with fault := some c } else l }

/-! ### MSI-X (R405) -/

/-- Messages of vectors whose mask has been cleared sent. -/
def State.msixFlush (s : State) (v : Nat) : State :=
  if v ∈ s.host.pba ∧ ofLeBytes (s.bar0 (0x11C0000 + 16 * v + 12) 4) % 2 = 0 then
    (s.modHost fun h => { h with pba := h.pba.filter (· ≠ v) }).sendMsix v
  else s

/-- The host clears a vector's mask bit. -/
def State.msixUnmask (s : State) (v : Nat) : State :=
  let a := 0x11C0000 + 16 * v + 12
  (s.setBar0 a [BitVec.ofNat 8 ((s.bar0 a 1).headD 0 |>.toNat |> (· / 2 * 2))]).msixFlush v

/-! ### Rest (R100, R255, R315, R406, R407) -/

/-- Entry to Rest by command: refused while a queue holds an entry that has not completed. -/
def State.restEnter (s : State) : State :=
  if s.host.restPhase ≠ 0 then s
  else if !s.host.launches.isEmpty ∨ (List.range 64).any (fun q => s.qPending q ≠ 0) then s.setBit (pA HIF_REST) 1 true
  else (s.setBit (pA HIF_REST) 0 true).modHost fun h => { h with restPhase := 2 }

/-- The function placed in D3hot: the entry to Rest begins, while the module wakes once it has woken. -/
def State.d3hotEntry (s : State) : State :=
  if s.host.d3hot then s
  else s.modHost fun h => { h with d3hot := true, restPhase := if h.restPhase = 0 then 2 else h.restPhase,
                                   turn := h.turn || h.restPhase = 3 }

/-- Whether the work of R406 step 1 has ended: no launch running, nor a core stopped by a double trap (R127), every tally empty,
no near-bank or update-unit command and
no barrow contribution in progress. -/
def State.quiet (s : State) : Bool :=
  s.cores.all (fun p => p.2.tally.isEmpty && p.2.run == .idle) && s.vaults.all (fun p => p.2.cmds.isEmpty && p.2.input.isEmpty)
    && s.stackMap.all (fun p => p.2.updIn.isEmpty && p.2.exacts.isEmpty) && s.net.packets.isEmpty

/-- Unchecked rows of every vault rebuilt (R315). -/
def State.rebuildAll (s : State) (cs : List Nat) : State :=
  cs.foldl (fun s c => (s.vault c).unchecked.foldl State.rebuildRow s) s

/-- The vaults that have bit 0 of a near-bank register set, which is 0 at reset. -/
def State.nbVaults (s : State) (off : Nat) : List Nat :=
  s.regs.filterMap fun p => match regionOf p.1 with
    | some (.stack, t, o) =>
      if NB_MODE ≤ o ∧ o < NB_MODE + 0x10000 ∧ o % 0x400 = off % 0x400 ∧ p.2.getLsbD 0 then some (t * 64 + (o - NB_MODE) / 0x400) else none
    | _ => none

/-- The rest of the entry to Rest: rows rebuilt, cores into Rest, near-bank mode no longer ready. -/
def State.restEntryEnd (s : State) : State :=
  if s.host.restPhase ≠ 2 ∨ !s.quiet then s
  else
    let s := s.rebuildAll (s.vaults.map (·.1))
    let s := (s.nbVaults NB_STATUS).foldl (fun s c => s.setBit (vA c NB_STATUS) 0 false) s
    -- a clear in progress ends first
    let s := ((s.cores.filter fun p => p.2.power == 1).map (·.1)).foldl State.clearCore s
    let on := (s.cores.filter fun p => p.2.power == 2 || p.2.power == 1).map (·.1)
    let s := on.foldl (fun s c =>
      (((s.modCore c Core.rest).setFld (cA c CORE_STATE) 1 0 3).showTiles c false).showTiles c true) s
    s.modHost fun h => { h with restPhase := if h.turn then 3 else 1, turn := false }

/-- Messages kept in D3hot sent (R407). -/
def State.sendDeferred (s : State) : State :=
  let vs := s.host.deferred
  vs.foldl State.sendMsix (s.modHost fun h => { h with deferred := [] })

/-- A trigger of the wake: D0 leaves D3hot, with WAKE# released and the entry that a wake was to be followed by no longer asked for; what
was kept for D0 is sent now unless the module still has to wake. A host access wakes only in D0. -/
def State.wake (s : State) (t : WakeTrigger) : State :=
  if t = .d0 then
    let s := s.modHost fun h => { h with d3hot := false, woken := false, turn := h.turn && h.restPhase ≠ 3 }
    let s := s.trigger
    if s.host.restPhase = 3 then s else s.sendDeferred
  else if t = .hostAccess ∧ s.host.d3hot then s else s.trigger

/-- The wake's end: cores On and idle, temperature and current demands from 0 (R435), near-bank mode ready again; the requests that
waited at their ports are taken, and messages kept until now sent (R407, R421). Where the function has been placed in D3hot meanwhile,
the entry to Rest begins. -/
def State.wakeComplete (s : State) : State :=
  if s.host.restPhase ≠ 3 then s
  else
    let cs := (s.cores.filter fun p => p.2.power == 3).map (·.1)
    let s := cs.foldl (fun s c => (s.modCore c fun k => { k with power := 2 }).setFld (cA c CORE_STATE) 1 0 2) s
    let s := (s.nbVaults NB_MODE).foldl (fun s c => s.setBit (vA c NB_STATUS) 0 true) s
    let s := (s.wakeDemands.setBit (pA HIF_REST) 0 false).modHost fun h =>
      { h with restPhase := if h.turn then 2 else 0, turn := false }
    let s := s.portsWake
    if s.host.d3hot then s else s.sendDeferred

end Sys2Proof.Machine
end

