-- ==== Sys2Proof/Machine/SecOps.lean ====
section
/-! DEFINITION. Security and identity (R479 to R496): keys, the signed configuration, images, measurements, attestation,
updates and the debug lock. Numbers in signed structures are little-endian (R7; log entry 18). -/

namespace Sys2Proof.Machine

/-- Bytes lo to hi of a structure as a number. -/
def numAt (bs : List Byte) (lo hi : Nat) : Nat := ofLeBytes ((bs.drop lo).take (hi - lo + 1))

/-- A public key, x then y, from 64 bytes. -/
def keyAt (bs : List Byte) (lo : Nat) : Nat × Nat := (numAt bs lo (lo + 31), numAt bs (lo + 32) (lo + 63))

/-- Bytes lo to hi are zero. -/
def zeroAt (bs : List Byte) (lo hi : Nat) : Bool := ((bs.drop lo).take (hi - lo + 1)).all (· == 0)

/-- A signature r, s at an offset over a message, by a key. -/
def signedBy (key : Nat × Nat) (msg bs : List Byte) (off : Nat) : Bool :=
  ecdsaVerify key msg (numAt bs off (off + 31)) (numAt bs (off + 32) (off + 63))

/-- A public key as 64 bytes. -/
def keyBytes (k : Nat × Nat) : List Byte := leBytes 32 k.1 ++ leBytes 32 k.2

/-! ### Keys (R479 to R481) -/

def wilgonBytes : List Byte := leBytes 64 Config.wilgonKey.toNat

/-- Wilgon's key, accepted only when its SHA-256 is the fused hash. -/
def wilgon : Option (Nat × Nat) :=
  if sha256 wilgonBytes = leBytes 32 Config.wilgonHash.toNat then some (keyAt wilgonBytes 0) else none

/-- A signature of Wilgon's. -/
def wilgonSigned (msg bs : List Byte) (off : Nat) : Bool :=
  match wilgon with
  | some k => signedBy k msg bs off
  | none => false

/-- The unique device secret that the helper data in flash gives, as bytes. -/
def udsBytes (helper : List Byte) : List Byte := leBytes 32 (Config.uds helper).toNat

/-- The ASCII bytes of "AK16 identity". -/
def identityInfo : List Byte := [0x41, 0x4B, 0x31, 0x36, 0x20, 0x69, 0x64, 0x65, 0x6E, 0x74, 0x69, 0x74, 0x79]

/-- The identity scalar: the first output in range (R480). -/
def identityScalar (helper : List Byte) : Option Nat :=
  (List.range 256).findSome? fun i =>
    let v := ofBeBytes (hkdf (udsBytes helper) (identityInfo ++ [BitVec.ofNat 8 i]))
    if 1 ≤ v ∧ v < ecN then some v else none

/-- A signature as 64 bytes. -/
def sigBytes (d : Nat) (m : List Byte) : List Byte :=
  let got := ecdsaSign d m
  let r := got.1
  let s := got.2
  leBytes 32 r ++ leBytes 32 s

/-- The bytes of a repair record before its signature, as a copy holds them (R459). -/
def RepairRecord.body (r : RepairRecord) : List Byte :=
  leBytes 4 r.magic.toNat ++ leBytes 4 r.seq.toNat ++ leBytes 8 r.serial.toNat ++ leBytes 4 r.entries.length
    ++ List.replicate 44 0 ++ r.entries.flatMap fun e => leBytes 8 e.toNat

/-- A record with its signature by an identity scalar. -/
def RepairRecord.signed (d : Nat) (r : RepairRecord) : RepairRecord := { r with sig := sigBytes d r.body }

/-- Whether MAGIC, serial and signature of a copy hold (R459, R462); without an identity key none does (R480). -/
def RepairRecord.valid (r : RepairRecord) (identity : Option Nat) : Bool :=
  match identity with
  | some d => r.magic == 0x52455041 && r.serial == Config.serial && signedBy (ecPublic d) r.body r.sig 0
  | _ => false

/-! ### The signed configuration (R482) -/

/-- What a configuration says. -/
def cfgSeq (c : Image) : Nat := numAt c.bytes 4 7
def cfgOwner (c : Image) : Nat × Nat := keyAt c.bytes 16
def cfgOwnerSet (c : Image) : Bool := (numAt c.bytes 80 80).testBit 0
def cfgScan (c : Image) : Bool := (numAt c.bytes 80 80).testBit 1
def cfgBurn (c : Image) : Bool := (numAt c.bytes 80 80).testBit 2
/-- MIN_SVN of images of a kind: 1 warden, 2 steward. -/
def cfgMinSvn (c : Image) (kind : Nat) : Nat := if kind = 1 then numAt c.bytes 84 85 else numAt c.bytes 86 87

/-- A configuration's signature, serial and MAGIC. -/
def cfgSigned (c : Image) : Bool :=
  numAt c.bytes 0 3 = 0x47464E43 && numAt c.bytes 8 15 = Config.serial.toNat && wilgonSigned (c.bytes.take 128) c.bytes 128

namespace State

/-- A valid configuration copy. -/
def cfgValid (s : State) (c : Image) : Bool := c.valid && cfgSigned c && decide (s.warden.flash.floor ≤ cfgSeq c)

/-- The configuration in use and whether it is copy B: the valid copy with the higher CONFIG_SEQ. -/
def config (s : State) : Option (Image × Bool) :=
  let a := s.warden.flash.configA
  let b := s.warden.flash.configB
  if s.cfgValid a && (!s.cfgValid b || decide (cfgSeq b ≤ cfgSeq a)) then some (a, false)
  else if s.cfgValid b then some (b, true) else none

/-- The configuration the boot put in use, by SEC_STATUS.CONFIG_B. -/
def configNow (s : State) : Image :=
  let c := if s.bit (pA SEC_STATUS) 0 then s.warden.flash.configB else s.warden.flash.configA
  if s.cfgValid c then c else Image.none

end State

/-! ### Images (R483, R484) -/

def imgSvn (i : Image) : Nat := numAt i.bytes 6 7
def imgLength (i : Image) : Nat := numAt i.bytes 8 11
def imgHeader (i : Image) : List Byte := i.bytes.take 64

/-- The form of an image of a kind: MAGIC, KIND, LENGTH. -/
def imgForm (i : Image) (kind : Nat) : Bool :=
  numAt i.bytes 0 3 = 0x474D4957 && numAt i.bytes 4 5 = kind && decide (1 ≤ imgLength i) && decide (imgLength i ≤ 4194304)
    && decide (i.bytes.length = 256 + imgLength i)

/-- The signatures and the body hash of an image, under a configuration. -/
def imgSigned (c i : Image) : Bool :=
  wilgonSigned (imgHeader i) i.bytes 64 && (!cfgOwnerSet c || signedBy (cfgOwner c) (imgHeader i) i.bytes 128)
    && sha256 (i.bytes.drop 256) = (i.bytes.drop 16).take 32

/-- An accepted image. -/
def imgAccepted (c i : Image) (kind : Nat) : Bool :=
  i.valid && imgForm i kind && imgSigned c i && decide (cfgMinSvn c kind ≤ imgSvn i)

/-- The warden's ROM tries two copies, that with the higher SVN first: the copy accepted, and which, and the events of the
copies that were not. -/
def State.tryImages (s : State) (c a b : Image) (kind : Nat) : State × Option (Image × Bool) :=
  let order := if imgSvn a < imgSvn b then [(b, true), (a, false)] else [(a, false), (b, true)]
  order.foldl (fun (acc : State × Option (Image × Bool)) (x : Image × Bool) =>
    match acc.2 with
    | some _ => acc
    | none =>
      if imgAccepted c x.1 kind then (acc.1, some x)
      else (acc.1.evWarden 0 0x80 0x01 (kind + if x.2 then 256 else 0), none)) (s, none)

namespace State

/-! ### Measurements (R486) -/

def measureA (i : Nat) : Nat := pA 0x70100 + 0x20 * i

/-- A measurement register extended. -/
def extendMeasure (s : State) (i : Nat) (d : List Byte) : State :=
  s.setBytes (measureA i) (sha256 (s.bytes (measureA i) 32 ++ d))

/-- SEC_EXTEND.GO with SLOT written. -/
def extend (s : State) (slot : Nat) : State :=
  let s := s.setFld (pA SEC_EXTEND) 2 0 slot
  if slot % 8 < 4 then s.setBit (pA SEC_EXTEND) 29 true else s.extendMeasure (slot % 8) (s.bytes (pA 0x70040) 32)

/-! ### Attestation (R488) -/

/-- The 416 bytes of a report that are signed. -/
def reportBytes (s : State) (d : Nat) : List Byte :=
  let st := pA SEC_STATUS
  let flags := s.fld (pA DBG_STATUS) 1 0 + (s.fld (pA DBG_STATUS) 3 3) * 4 + s.fld st 3 3 * 8 + s.fld st 6 6 * 16
  leBytes 4 0x54505441 ++ leBytes 4 1 ++ leBytes 8 Config.serial.toNat ++ leBytes 4 (s.pReg SEC_BOOTCOUNT).toNat
    ++ leBytes 4 (s.pReg SEC_SVN).toNat ++ leBytes 4 (s.pReg SEC_CONFIG_SEQ).toNat ++ leBytes 4 flags
    ++ List.replicate 32 0 ++ s.bytes (measureA 0) 256 ++ s.bytes (pA 0x70020) 32 ++ keyBytes (ecPublic d)

/-- SEC_ATTEST.GO. -/
def attest (s : State) : State :=
  match s.warden.identity with
  | none => s.setBit (pA SEC_ATTEST) 29 true
  | some d =>
    if s.bit (pA SEC_STATUS) 4 || s.bit (pA SEC_STATUS) 5 then s.setBit (pA SEC_ATTEST) 29 true
    else
      let r := s.reportBytes d
      s.setBytes (pA 0x70200) (r ++ sigBytes d r)

/-! ### Updates (R493) -/

/-- The inactive copy of a kind: 1 warden, 2 steward, 3 configuration. -/
def setInactive (s : State) (kind : Nat) (i : Image) : State :=
  let st := pA SEC_STATUS
  s.modFlash fun f =>
    if kind = 1 then (if s.bit st 1 then { f with wardenA := i } else { f with wardenB := i })
    else if kind = 2 then (if s.bit st 2 then { f with stewardA := i } else { f with stewardB := i })
    else if s.bit st 0 then { f with configA := i } else { f with configB := i }

/-- An update refused: its error, its event, and no update in progress. -/
def updateFails (s : State) (error : Nat) : State :=
  ((s.setFld (pA SEC_UPDATE) 29 26 error).modWarden fun w => { w with upKind := 0, upNext := 0, upload := [] }).evWarden 0
    0x80 0x03

/-- The verdict on a whole copy: 0, or the error. -/
def updateVerdict (s : State) (kind : Nat) (bs : List Byte) : Nat :=
  let c := s.configNow
  if kind = 3 then
    let i : Image := ⟨true, bs⟩
    if bs.length ≠ 4096 then 4 else if !cfgSigned i then 2 else if cfgSeq i < s.warden.flash.floor then 6 else 0
  else
    let n := 256 + numAt bs 8 11
    let i : Image := ⟨true, bs.take n⟩
    if bs.length ≠ (n + 4095) / 4096 * 4096 ∨ n = 256 ∨ 4194560 < n then 4
    else if !imgForm i kind || !imgSigned c i then 2
    else if imgSvn i < cfgMinSvn c kind then 3
    else 0

/-- SEC_UPDATE.GO: the chunk in SEC_CHUNK taken in order, and after the last the copy verified and marked valid. -/
def updateChunk (s : State) (kind chunk : Nat) (last flashFails : Bool) : State :=
  let a := pA SEC_UPDATE
  let s := ((s.setFld a 25 24 kind).setBit a 23 last).setFld a 15 0 chunk
  let s : State := if chunk = 0 then s.modWarden fun w => { w with upKind := kind, upNext := 0, upload := [] } else s
  if kind = 0 ∨ kind ≠ s.warden.upKind ∨ chunk ≠ s.warden.upNext then s.updateFails 1
  else
    let bs := s.warden.upload ++ s.bytes (pA 0x71000) 4096
    let s := s.setInactive kind ⟨false, bs⟩
    if flashFails then s.updateFails 5
    else if 1025 ≤ chunk then s.updateFails 4
    else if !last then
      (s.setFld a 29 26 0).modWarden fun w => { w with upNext := w.upNext + 1, upload := bs }
    else
      let e := s.updateVerdict kind bs
      if e ≠ 0 then s.updateFails e
      else
        let bs := if kind = 3 then bs else bs.take (256 + numAt bs 8 11)
        let s := (s.setInactive kind ⟨true, bs⟩).modWarden fun w => { w with upKind := 0, upNext := 0, upload := [] }
        (s.setFld a 29 26 0).evWarden 0 0x80 0x04 0

/-! ### The debug lock (R489 to R491) -/

/-- Scope in force. -/
def scope (s : State) : Nat := s.fld (pA DBG_STATUS) 1 0

/-- DBG_CONTROL.CHALLENGE: a nonce drawn. -/
def challenge (s : State) : State :=
  let n := Config.random s.warden.draws
  ((s.modWarden fun w => { w with draws := w.draws + 1 }).setBytes (pA 0x80020) (leBytes 32 n.toNat)).setBit (pA DBG_STATUS) 2 true

/-- The nonce lapses. -/
def nonceLapse (s : State) : State := s.setBit (pA DBG_STATUS) 2 false

/-- A grant of 176 bytes: its SCOPE and EXPIRY, and its signature under a configuration. -/
def grantScope (g : List Byte) : Nat := numAt g 4 7
def grantExpiry (g : List Byte) : Nat := numAt g 8 11
def grantSigned (c : Image) (g : List Byte) : Bool :=
  if grantScope g ≠ 3 ∧ cfgOwnerSet c then signedBy (cfgOwner c) (g.take 112) g 112 else wilgonSigned (g.take 112) g 112

/-- Identity key of a grant is the module's. -/
def grantHere (s : State) (g : List Byte) : Bool :=
  match s.warden.identity with
  | some d => !s.bit (pA SEC_STATUS) 4 && (g.drop 48).take 64 == keyBytes (ecPublic d)
  | none => false

/-- Whether EXPIRY fails against the boot count, which refuses every grant once saturated (R491, R521). -/
def grantExpired (s : State) (g : List Byte) : Bool :=
  let n := (s.pReg SEC_BOOTCOUNT).toNat
  n = 0xFFFFFFFF || decide (grantExpiry g < n) || decide (n + 1000 < grantExpiry g)

/-- The reason a grant is refused with, 0 where it is granted: the first that applies. -/
def grantReason (s : State) (g : List Byte) : Nat :=
  if !s.bit (pA DBG_STATUS) 2 then 1
  else if (g.drop 16).take 32 ≠ s.bytes (pA 0x80020) 32 then 2
  else if !s.grantHere g then 3
  else if grantScope g = 0 ∨ 3 < grantScope g ∨ numAt g 0 3 ≠ 0x4B4E4C55 ∨ !zeroAt g 12 15 then 4
  else if s.grantExpired g then 5
  else if grantScope g = 3 ∧ !cfgScan s.configNow then 6
  else if !grantSigned s.configNow g then 7
  else 0

/-- A grant put in force: scope, EVER and EXPIRY. -/
def applyGrant (s : State) (g : List Byte) : State :=
  ((s.setFld (pA DBG_STATUS) 1 0 (grantScope g)).setBit (pA DBG_STATUS) 3 true).setReg (pA DBG_EXPIRY)
    (BitVec.ofNat 64 (grantExpiry g))

/-- DBG_CONTROL.SUBMIT: the nonce spent; the grant refused, or put in force and stored; scope 3 erases the signer's secrets
and stops every island but the warden. -/
def submit (s : State) : State :=
  let g := s.bytes (pA 0x80100) 176
  let r := s.grantReason g
  let s := s.nonceLapse
  if r ≠ 0 then (s.setReg (pA DBG_RESULT) (BitVec.ofNat 64 (2 ^ 31 + r))).evWarden 0 0x80 0x11 r
  else
    let s := s.applyGrant g
    let s : State :=
      if grantScope g = 3 then
        ((s.modWarden fun w => { w with identity := none, cdi1 := none, cdi2 := none, stopped := max w.stopped 1 }).setBit
          (pA SEC_STATUS) 5 true).modFlash fun f => { f with grant := none }
      else s.modFlash fun f => { f with grant := some ⟨g⟩ }
    s.evWarden 0 0x80 0x10

/-- DBG_CONTROL.RELOCK. -/
def relock (s : State) : State :=
  ((s.setFld (pA DBG_STATUS) 1 0 0).modFlash fun f => { f with grant := none }).evWarden 0 0x80 0x12

/-! ### The boot chain (R451, R480 to R487) -/

/-- The boot count as its two copies give it: the higher, since each advance writes one before the other (log entry 152). -/
def Flash.bootsSoFar (f : Flash) : W32 := if f.bootCount.toNat < f.bootCountB.toNat then f.bootCountB else f.bootCount

/-- The boot count advanced in both its copies before any image is verified (R487). -/
def bootCount (s : State) : State :=
  let n := Flash.bootsSoFar s.warden.flash
  let n := if n = 0xFFFFFFFF then n else n + 1
  (s.modFlash fun f => { f with bootCount := n, bootCountB := n }).setReg (pA SEC_BOOTCOUNT) (n.setWidth 64)

/-- The identity (R480): the fuzzy extractor corrects up to 25 bit errors of the PUF response in each 128-bit group. -/
def bootIdentity (s : State) (pufErrors : List Nat) : State :=
  if pufErrors.all (· ≤ 25) then s.modWarden fun w => { w with identity := identityScalar s.warden.flash.helper }
  else ((s.modWarden fun w => { w with identity := none }).setBit (pA SEC_STATUS) 4 true).evWarden 0 0x80 0x05

/-- Recovery (R485). -/
def bootRecovery (s : State) : State := (s.setBit (pA SEC_STATUS) 6 true).evWarden 0 0x80 0x02

/-- The configuration put in use, and the fuses blown (R482). -/
def bootConfig (s : State) (c : Image) (b : Bool) : State :=
  let floor := if cfgBurn c then max s.warden.flash.floor (min 64 (cfgSeq c)) else s.warden.flash.floor
  let s := s.modFlash fun f => { f with floor := floor }
  let s := ((s.setBit (pA SEC_STATUS) 0 b).setBit (pA SEC_STATUS) 3 (cfgOwnerSet c)).setReg (pA SEC_CONFIG_SEQ)
    (BitVec.ofNat 64 (cfgSeq c))
  s.extendMeasure 2 (sha256 (c.bytes.take 128))

/-- The images verified and measured (R484 to R486). -/
def bootImages (s : State) (c : Image) : State :=
  let f := s.warden.flash
  match s.tryImages c f.wardenA f.wardenB 1 with
  | (s, none) => s.bootRecovery
  | (s, some (w, wb)) =>
    let s := (s.setBit (pA SEC_STATUS) 1 wb).setFld (pA SEC_SVN) 15 0 (imgSvn w)
    let s := s.extendMeasure 0 (sha256 (imgHeader w))
    let s : State := if s.warden.identity.isSome then
        s.modWarden fun k => { k with cdi1 := some (hmac (udsBytes k.flash.helper) (sha256 (imgHeader w))) } else s
    let s := match s.tryImages c f.stewardA f.stewardB 2 with
      | (s, none) => s
      | (s, some (t, tb)) =>
        let s := (s.setBit (pA SEC_STATUS) 2 tb).setFld (pA SEC_SVN) 31 16 (imgSvn t)
        (s.extendMeasure 1 (sha256 (imgHeader t))).modWarden fun k => { k with stewardOk := true }
    s.modWarden fun k => { k with cdi2 := k.cdi1.map fun d => hmac d (s.bytes (measureA 1) 32) }

/-- The steward image that the warden accepted (R484), empty where it accepted none. -/
def stewardImage (s : State) : List Byte :=
  if !s.warden.stewardOk then []
  else if s.bit (pA SEC_STATUS) 2 then s.warden.flash.stewardB.bytes else s.warden.flash.stewardA.bytes

/-- The stored grant applied again (R491), unless the boot count has saturated (R521). -/
def bootGrant (s : State) : State :=
  match s.warden.flash.grant with
  | none => s
  | some g =>
    if s.grantHere g.bytes && !s.grantExpired g.bytes && decide (1 ≤ grantScope g.bytes) && decide (grantScope g.bytes ≤ 2)
        && grantSigned s.configNow g.bytes then s.applyGrant g.bytes
    else s

/-- The certificate and the floor shown (R481, R495). -/
def bootShow (s : State) : State :=
  let cert := s.warden.flash.cert.take 2048
  ((s.setBytes (pA 0x70800) cert).setReg (pA SEC_CERT_LEN) (BitVec.ofNat 64 cert.length)).setReg (pA SEC_FLOOR)
    (BitVec.ofNat 64 s.warden.flash.floor)

/-- The verified boot: count, identity, configuration, images, grant. -/
def bootSecurity (s : State) (pufErrors : List Nat) : State :=
  let s := (s.bootCount.bootIdentity pufErrors)
  let s := match s.config with
    | none => (s.evWarden 0 0x80 0x22).bootRecovery
    | some (c, b) => (s.bootConfig c b).bootImages c
  s.bootGrant.bootShow

end State

end Sys2Proof.Machine
end

