-- ==== Sys2Proof/Machine/BringOps.lean ====
section
/-! DEFINITION. Bring-up, repair and reset (R450 to R478): the bring-up steps and what their tests decide, the map, the
repair record, and the resets of core, stack, partition and package. -/

namespace Sys2Proof.Machine

namespace State

/-! ### Bring-up steps (R453, R454) -/

/-- A step that ends: its result, and where it ran its DONE (R453). -/
def endStep (s : State) (n code elapsed : Nat) : State :=
  let s := s.setReg (pA BRG_RESULT)
    (BitVec.ofNat 64 (n * 2 ^ 29 + code * 2 ^ 27 + s.warden.fastWhy * 2 ^ 20 + elapsed))
  let s := if code = 0 then s.setFld (pA BRG_STATUS) 27 25 n else s
  ((s.setBit (pA BRG_STATUS) 30 false).modWarden fun w => { w with step := none }).raisePkg 39

/-- GO of BRG_COMMAND for step n: started, or ended at once (R453 to R455, R485). Each steward is sent the command (R242), whose
argument is FULL: DESIGN CHOICE (log entry 120). -/
def stepGo (s : State) (n : Nat) (full : Bool) (t : TestResults) (f : State → State) : State :=
  let st := pA BRG_STATUS
  if !s.bit st 31 ∨ s.bit st 30 then s
  else
    let s := (s.setFld (pA BRG_COMMAND) 2 0 n).setBit (pA BRG_COMMAND) 8 full
    if s.bit st 29 ∨ s.bit (pA SEC_STATUS) 6 then s.endStep n 3 0
    else if n ≠ s.fld st 27 25 + 1 ∨ 5 < n then s.endStep n 1 0
    else if n = 1 ∧ !s.warden.stewardOk then s.endStep n 3 0
    else if n = 1 ∧ t.coolantFlow < 200 then s.endStep n 2 0
    else
      let s := (s.setBit st 30 true).modWarden fun w => { w with step := some n }
      let s := (List.range 16).foldl (fun s u => s.crier
        { typ := 8, kind := 1, dest := u * 64, src := 0x3FF, arg := BitVec.ofNat 6 n, payload := if full then 1 else 0,
          event := none }) s
      -- stopped islands take no step (R491; log entry 149)
      if s.warden.stopped = 0 then f s else s

/-- A bring-up command taken by a steward. -/
def bringupCommand (s : State) (i : Nat) : State :=
  match s.net.msgs[i]? with
  | some m => if m.typ = 8 ∧ s.crierFirst i then s.dropMsg i else s
  | none => s

/-- A core whose clear on a wake from Off has ended: On and idle (R99). -/
def wakeCore (s : State) (c : Nat) : State := (s.clearCore c).setPower c 2

/-- The cores among those given whose clear is in progress. -/
def clearing (s : State) (cs : List Nat) : List Nat := cs.filter fun c => (s.core c).power = 1

/-- Whether every bench reads below 85 °C. -/
def benchesCool (s : State) : Bool := (List.range 16).all fun t => (List.range 16).all fun b => decide (s.benchRead t b < 340)

/-- A pause of the retention test begun, once every bench reads below 85 °C (R456): VC_REFRESH.STRETCH shows 128 ms until it is over. The
three pauses are taken as one (log entry 20). -/
def pauseStart (s : State) : State := if s.benchesCool then s.modWarden fun w => { w with pausing := true } else s

/-- A step's end, once every steward has its command; step 2 of a full start has its pauses before, and step 4 ends with every core's
clear (R454, R456). -/
def stepEnd (s : State) (elapsed : W16) : State :=
  match s.warden.step with
  | some n =>
    if s.net.msgs.any (·.typ = 8) then s
    else if n = 2 ∧ !s.bit (pA BRG_STATUS) 24 ∧ !s.warden.pausing then s.pauseStart
    else
      let s := s.modWarden fun w => { w with pausing := false }
      ((if n = 4 then s.clearing (List.range 1024) else []).foldl wakeCore s).endStep n 0 elapsed.toNat
  | none => s

/-- Base dies that fail a test, of their small memories among others (R287): the module fails (R455). -/
def baseFail (s : State) (t : TestResults) : State :=
  if t.baseDies.isEmpty && t.memories.all (·.1.ofCore) then s else s.setBit (pA BRG_STATUS) 29 true

/-- Interfaces trained (R456, R458), ascending: channel 0 to 15, Bilo port p as 16 + p, edge links from 24 on. From saved settings,
or where these are not there or do not train it, fully: which settings train, and what training finds, is free. -/
def train (s : State) (is : List Nat) (saved : Bool) : State :=
  let n := s.freeCtr
  let old := if saved then (s.warden.flash.savedFull.map (·.training)).getD [] else []
  let settings (i : Nat) : W64 := match old.find? (·.1 = i) with
    | some p => if (Config.freeValue n).getLsbD (i % 64) then p.2 else Config.training n i
    | none => Config.training n i
  { s with freeCtr := n + 1 }.modWarden fun w => { w with
    training := w.training.filter (fun (p : Nat × W64) => p.1 < is.headD 0) ++ is.map (fun i => (i, settings i)) ++
      w.training.filter fun (p : Nat × W64) => is.getLastD 0 < p.1 }

/-- The edge links as interfaces, each once: 24 + 4 × (stack × 72 + row × 9 + column) + port at its end of lower stack. -/
def edgeLinks : List Nat :=
  (List.range 4608).filterMap fun i => match linkEnd (i / 288) (i / 4 % 72) (i % 4) with
    | some (u, _, _) => if i / 288 < u then some (24 + i) else none
    | none => none

/-- An edge link that does not train is down, with its detour where it has one (R233, R474). -/
def linkFails (s : State) (l : Nat × Nat × Nat) : State :=
  let s := s.linkDown l.1 l.2.1 l.2.2
  s.modNet fun n => { n with down := n.down.map fun d =>
    if d.stack = l.1 ∧ d.phys = l.2.1 ∧ d.port = l.2.2 then { d with detoured := s.detourOk l.1 l.2.1 l.2.2 } else d }

/-- The accepted steward image copied into a base die (R484). -/
def copyImage (s : State) (t : Nat) : State := s.modStack t fun k => { k with image := s.stewardImage }

/-- Step 1: stewards started from the accepted image; edge links trained. -/
def stepClocks (s : State) (full : Bool) (t : TestResults) : State :=
  let s := (List.range 16).foldl copyImage ((s.baseFail t).train edgeLinks !full)
  t.edgeLinks.foldl linkFails s

/-- The first condition of a fast start that fails (R457), 0 where none does. -/
def fastWhyNow (s : State) (full : Bool) : Nat :=
  if full then 1
  else match s.warden.flash.savedFull with
    | none => 2
    | some r =>
      if !s.bit (pA BRG_RECORD) 31 then 3
      else if !s.warden.power.timeSet ∨ s.wall.toNat < r.wall.toNat then 4
      else if 30 * 86400 * 1000000000 ≤ s.wall.toNat - r.wall.toNat then 5
      else if s.fld (pA BRG_SLOT) 31 0 ≠ r.slot.toNat then 6
      else if r.serial ≠ Config.serial then 7
      else if s.bit (pA THM_TRIP) 31 then 8
      else 0

/-- The repair record in force: the copy with the higher SEQ that is valid (R459). -/
def recordNow (s : State) : RepairRecord :=
  let a := s.warden.flash.recordA
  let b := s.warden.flash.recordB
  let ok (r : RepairRecord) : Bool := r.valid s.warden.identity
  if ok a && (!ok b || decide (b.seq.toNat < a.seq.toNat)) then a else if ok b then b else RepairRecord.none

/-- Whether a repair record is in force. -/
def recordIn (s : State) : Bool := s.recordNow.valid s.warden.identity

/-- Every bit of both tiers cleared (R260, R268). -/
def clearTiers (s : State) : State :=
  let s := { s.invalidate 0 0x020000000000 with segs := [], slowSyn := [], slowA := [], slowB := [] }
  let s := { s with mem := smClear s.mem slowBase 0x04F000000000 }
  { s with vaults := s.vaults.map fun p => (p.1, { p.2 with unchecked := [], writeBacks := [], cached := [] }) }

/-- The remap table of every physical vault that has KIND 1 entries (R256, R257): a row takes the next spare of its own bank. -/
def buildRemaps (s : State) : State :=
  let rows := s.warden.defects.filter fun e => defectKind e = 1
  s.modWarden fun w => { w with remaps := rows.foldl (fun m e =>
    let p := defectPair e
    let old := smGet [] m p
    let bank := defectPlace e / 32768
    smSet [] m p (old ++ [(defectPlace e, (old.filter fun x => x.1 / 32768 = bank).length)])) [] }

/-- Physical vaults with more failing rows than spares: more than 512 in a bank or 8,192 in all (R257). -/
def vaultFails (s : State) : List Nat :=
  (s.warden.remaps.filter fun p =>
    decide (8192 < p.2.length) ||
      (p.2.map fun e => e.1 / 32768).any fun b => decide (512 < (p.2.filter fun e => e.1 / 32768 = b).length)).map (·.1)

/-- Step 2 (R454 to R457). -/
def stepMemory (s : State) (full : Bool) (t : TestResults) : State :=
  let s := s.baseFail t
  let why := s.fastWhyNow full
  let s := (s.setBit (pA BRG_STATUS) 24 (why = 0)).modWarden fun w => { w with fastWhy := why, stepWall := s.wall }
  let s := s.train (List.range 16) (why = 0)
  let s := s.clearTiers
  let s := s.modWarden fun w => { w with defects := if s.bit (pA BRG_RECORD) 31 then s.recordNow.entries else [] }
  -- the retention test runs in a full start only (R456)
  let s := (t.rows ++ if why = 0 then [] else t.retention).foldl (fun s r =>
    s.addDefect (rowDefect (r.1 * 72 + r.2.1) ((r.2.2.1 * 8 + r.2.2.2.1) * 32768 + r.2.2.2.2))) s
  let s := s.buildRemaps
  let s := s.vaultFails.foldl (fun s p => s.addDefect (defectWord 2 (p / 72) (p % 72) 0)) s
  let s := (List.range 16).foldl (fun s u =>
    let s := if t.channels.contains u then s.slowDown u else s.setBit (sA u SLOW_STATUS) 0 true
    (s.setReg (sA u STHM_GAIN) ((Config.thermalGain u).setWidth 64)).setBit (sA u UPD_STATUS) 0 true) s
  if why = 0 then s else s.pauseStart

/-- Step 3: the ports train, once the module has an id (R363, R369); ENABLE, which has its first value from link training (R389), is
set in those that train. -/
def stepLinks (s : State) (t : TestResults) : State :=
  if !s.bit (pA BILO_ID) 31 then s
  else
    let ps := (List.range 8).filter t.ports.contains
    ps.foldl (fun s p =>
      let s := s.setBit (bpA p BPORT_CONTROL) 0 true
      match t.partners.find? fun x => x.1 == p with
      | some (_, id, sw) => s.portTrained p id sw
      | none => s.portTrained p 0 false) (s.train (ps.map (16 + ·)) (s.bit (pA BRG_STATUS) 24))

/-! ### The map (R463 to R466) -/

/-- Pairs that fail step 4: cores that fail, small memories of theirs among it (R287), and cores in which an engine has more than
one failing group (R71). -/
def coreFails (t : TestResults) (known : List W64) : List Nat :=
  let groups := t.groups.map fun g => defectWord 4 g.1 g.2.1 (g.2.2.1 * 2 ^ 48 + g.2.2.2 * 2 ^ 45)
  let all := (known.filter (fun e => defectKind e = 4) ++ groups).dedup
  let engine (e : W64) : Nat := defectPair e * 2 + if e.getLsbD 48 then 1 else 0
  (t.cores.map (fun (c : Nat × Nat) => c.1 * 72 + c.2) ++
    (t.memories.filter fun m => m.1.ofCore).map (fun (m : SmallMemory × Nat × Nat) => m.2.1 * 72 + m.2.2) ++
    (all.filter fun e => decide (1 < (all.filter fun f => engine f = engine e).length)).map defectPair).dedup

/-- The defects in force after step 4: at a full start a KIND 3 pair that passes loses its entry (R463). -/
def mergeDefects (s : State) (t : TestResults) : State :=
  let fails := coreFails t s.warden.defects
  let fast := s.bit (pA BRG_STATUS) 24
  let keep (e : W64) : Bool := defectKind e ≠ 3 || fast || fails.contains (defectPair e)
  let s := s.modWarden fun w => { w with defects := w.defects.filter keep }
  let s := fails.foldl (fun s p => s.addDefect (defectWord 2 (p / 72) (p % 72) 0)) s
  t.groups.foldl (fun s g => s.addDefect (defectWord 4 g.1 g.2.1 (g.2.2.1 * 2 ^ 48 + g.2.2.2 * 2 ^ 45))) s

/-- The pairs retired: those with a KIND 2 or KIND 3 entry. -/
def retiredNow (s : State) : List Nat :=
  ((s.warden.defects.filter fun e => defectKind e = 2 || defectKind e = 3).map defectPair).dedup

/-- The failed columns of a row. -/
def failedCols (s : State) (t r : Nat) : List Nat :=
  (List.range 9).filter fun c => s.warden.retired.contains (t * 72 + r * 9 + c)

/-- SUB of a row (R464). -/
def subOf (s : State) (t r : Nat) : Nat :=
  match s.failedCols t r with
  | [j] => if j ≤ 7 then j else 15
  | _ => 15

/-- The map of a stack: its SUB words, epoch 0, and whether it is down. -/
def buildMap (s : State) (t : Nat) : State :=
  let sub := (List.range 8).foldl (fun n r => n + s.subOf t r * 16 ^ r) 0
  let down := (List.range 8).any fun r => decide (2 ≤ (s.failedCols t r).length)
  let s := (s.setReg (pA MAP_SUB + 4 * t) (BitVec.ofNat 64 sub)).setReg (pA MAP_EPOCH + 4 * t) 0
  let s := s.setMapCopies t (BitVec.ofNat 32 sub) 0
  let s := s.setBit (pA BRG_STACK_DOWN) t down
  (List.range 72).foldl (fun s x =>
    s.setBit (pA BRG_PAIRS + 0xC * t + 4 * (x / 32)) (x % 32) (s.warden.retired.contains (t * 72 + x))) s

/-- Step 4: the defects merged, the map built, the clear of every core that is served begun (R98, R99). -/
def stepCores (s : State) (t : TestResults) : State :=
  let s := s.mergeDefects t
  let s := s.modWarden fun w => { w with retired := s.retiredNow, gated := s.retiredNow }
  let s := (List.range 16).foldl (fun s u => (s.buildMap u).showMap u) s
  ((List.range 1024).filter fun c => !s.unserved c).foldl (fun s c => s.setPower c 1) s

/-! ### The repair record (R459 to R462) -/

/-- A new repair record written into the copy not in force, where the defects differ from it and fit (R461, R519); without
the identity key none can be signed. -/
def repairRecordWrite (s : State) : State :=
  match s.warden.identity with
  | none => s
  | some d =>
    let old := s.recordNow
    let es := s.warden.defects
    if s.recordIn && decide (es = old.entries) then s
    else if 131056 < es.length ∨ (s.recordIn && decide (old.seq = 0xFFFFFFFF)) then (s.setBit (pA BRG_RECORD) 29 true).evWarden 0 0x30 0x0A
    else
      let r := RepairRecord.signed d ⟨0x52455041, if s.recordIn then old.seq + 1 else 1, Config.serial, es, []⟩
      let s := s.modFlash fun f => if s.recordIn && f.recordA == old then { f with recordB := r } else { f with recordA := r }
      let s := (s.setBit (pA BRG_RECORD) 31 true).setFld (pA BRG_RECORD) 17 0 es.length
      s.setReg (pA BRG_RECORD_SEQ) (r.seq.setWidth 64)

/-- Step 5 (R454, R458, R461). -/
def stepService (s : State) : State :=
  -- retirements of a shutter save that the record does not hold yet (R512)
  let s := s.warden.savedRetired.foldl addDefect s
  let s := s.repairRecordWrite
  let s := if s.bit (pA BRG_STATUS) 24 then s
    else (s.modFlash fun f => { f with
      savedFull := some ⟨s.warden.stepWall, (s.pReg BRG_SLOT).setWidth 32, Config.serial, s.warden.training⟩ }).setReg
      (pA BRG_LAST_FULL) s.warden.stepWall
  (List.range 16).foldl (fun s u => s.setReg (sA u STHM_SUSPECT) 0) s

/-! ### Retired cores (R467, R468) -/

/-- A physical core that serves no logical core, or is retired (R239, R466): its local port, crier node and haul port are closed. -/
def pairClosed (s : State) (t x : Nat) : Bool :=
  s.warden.retired.contains (t * 72 + x) || (List.range 64).all fun j => s.physOf (t * 64 + j) % 128 ≠ x / 9 * 16 + x % 9

/-- Index row × 9 + column of a stack's physical core in CORE_ID.PHYS layout. -/
def physWord (t x : Nat) : Nat := t * 128 + x / 9 * 16 + x % 9

/-- What a physical core that serves no logical one sends (R239): refused at its closed local port or crier node, or, past these by a
fault, by the port, SRC and SEPOCH named, dropped by the neighbour that its stale SEPOCH meets (R238). -/
def retiredInjection (s : State) (t x : Nat) (what : RetiredSend) : State :=
  if 72 ≤ x ∨ !s.pairClosed t x then s
  else
    -- an island that sends runs: its gate is not asserted
    let s := s.modWarden fun w => { w with gated := w.gated.filter (· ≠ t * 72 + x) }
    match what with
    | .localPort | .crierNode => s.quarantine (physWord t x) (physWord t x) true 0 0
    | .past port src sepoch =>
      match linkEnd t x port.toNat with
      | none => s
      | some (u, y, _) =>
        let want := s.epochAt u (src.toNat / 64)
        if sepoch = want then s else s.quarantine (physWord u y) (physWord t x) false sepoch.toNat want.toNat

/-- A haul row that meets a retired pair's closed port. -/
def retiredHaulRow (s : State) (t x : Nat) : State :=
  if 72 ≤ x ∨ !s.pairClosed t x then s else s.addSat (pA MAP_QUAR + 4 * t) 31 0 1

/-- The power gates of retired islands asserted (R466, R468, R474). -/
def gate (s : State) (ks : List Nat) : State :=
  s.modWarden fun w => { w with gated := w.gated ++ ks.filter fun k => !w.gated.contains k }

/-- A retired island's supply current checked (R468): above the limit its gate is re-asserted, with an event at most once per second. -/
def retiredCurrent (s : State) (t x : Nat) (above : Bool) : State :=
  let k := t * 72 + x
  let last := smGet 0 s.warden.gateAt k
  if !above ∨ 72 ≤ x ∨ !s.warden.retired.contains k then s
  else if last ≠ 0 ∧ s.now.toNat < last - 1 + 1000000000 then s.gate [k]
  else ((s.gate [k]).modWarden fun w => { w with gateAt := smSet 0 w.gateAt k (s.now.toNat + 1) }).evStack t 0x31 0x03 (x + t * 2 ^ 8)

/-! ### Resets (R470 to R477) -/

/-- Steps 2 to 4 of a core reset (R472): its launch FAULTED, settle notices for its open writes, its lend ended; Off, its
registers at their reset values. -/
def resetCore (s : State) (c : Nat) (hold : Bool) : State :=
  let s := s.faultLaunch c
  let s := ((s.core c).tally.filter fun e => e.state != .failed).foldl (fun s e => s.settleNotices c e) s
  let s := s.endLend (c / 64) c
  let launch := (s.core c).launchQ
  let s := s.resetCoreState c
  s.setCore c { Core.reset with launchQ := launch, resetting := true, held := hold }

/-- A GO of BRG_RESET that is refused (R471). -/
def resetRefused (s : State) (scope target : Nat) : Bool :=
  s.bit (pA BRG_RESET) 30 || !s.inService || 3 ≤ scope || (scope = 0 && s.unserved (target % 1024)) ||
    (scope = 2 && target = 0) || ((scope = 1 || scope = 2) && s.bit (pA MAP_STATUS) 0)

/-- The stacks of a reset. -/
def resetStacks (scope target : Nat) : List Nat :=
  if scope = 1 then [target % 16] else if scope = 2 then (List.range 16).filter fun t => target.testBit t else []

/-- Near-bank commands of a vault before a stack reset (R315): those that have not started are discarded, an NBD answered
ABSORBED and its open-write entry with it. -/
def discardNb (s : State) (c : Nat) : State :=
  let v := s.vault c
  let gone := v.input ++ v.cmds.filter fun k => !k.running
  let of (w : OpenWrite) : Bool := w.rows.isSome && w.nbStatus.isNone && gone.any fun k => k.core == some w.core && k.tag == w.tag
  let s := s.modVault c fun v => { v with
    input := [], cmds := v.cmds.filter fun k => k.running, opens := v.opens.filter fun w => !of w }
  gone.foldl (fun s k => s.nbAnswer c k 2 []) s

/-- Steps 2 and 3 of a stack reset (R474): the fence, the cores, unstarted near-bank work, the update unit (R360), and the
stack's barrows. -/
def fenceStack (s : State) (t : Nat) : State :=
  let s := s.modStack t fun k => { k with fence := true }
  let cs := (List.range 64).map (t * 64 + ·)
  let s := (cs.foldl discardNb s).exactCut t
  let s := (s.stack t).updIn.foldl (fun s k => s.updAnswer t k.core k.tag 2) s
  let s := (cs.filter fun c => !s.unserved c).foldl (fun s c => s.resetCore c false) s
  let s := s.modStack t fun k => { k with updIn := [], lends := [], tensors := [], exacts := [] }
  (s.bilo.barrows.filter fun b => b.stack = t).foldl closeBarrow s

/-- GO of BRG_RESET that is not refused (R471): BUSY, and the reset begins; islands that stand stopped (R491) take no part in it (log
entry 149). -/
def resetGo (s : State) (scope target : Nat) (hold : Bool) : State :=
    let s := (s.setBit (pA BRG_RESET) 30 true).modWarden fun w => { w with reset := some (scope, target) }
    if s.warden.stopped ≠ 0 then s
    else if scope = 0 then s.resetCore (target % 1024) hold else (resetStacks scope target).foldl fenceStack s

/-- RELEASE of BRG_RESET: a held core wakes. -/
def resetRelease (s : State) : State :=
  match s.warden.reset with
  | some (0, target) =>
    let c := target % 1024
    if (s.core c).held then (s.modCore c fun k => { k with held := false }).setPower c 1 else s
  | _ => s

/-- The clear's end on a core's wake (R99). -/
def coreClearEnd (s : State) (c : Nat) : State := if (s.core c).power = 1 then s.wakeCore c else s

/-- A reset's end told to every stack (R210, R472, R474): the payload names the stack, of a core reset DEST the core in its own. -/
def tellReset (s : State) (scope t c : Nat) : State :=
  (List.range 16).foldl (fun s u => s.crier
    { typ := 6, kind := 3, dest := if scope = 0 ∧ u = t then c else u * 64, src := 0x3FF, arg := BitVec.ofNat 6 scope,
      payload := BitVec.ofNat 32 t, event := none }) s

/-- A vault controller after a stack reset (R475): its haul's state, its open writes and what it has still to write back (R276) are
kept. -/
def resetVault (v : Vault) : Vault := { Vault.reset with haulDown := v.haulDown, opens := v.opens, writeBacks := v.writeBacks }

/-- Whether step 3 of a stack reset has ended: no near-bank command runs and no traffic of the reset's stacks drains. -/
def drained (s : State) (ts : List Nat) : Bool :=
  (s.vaults.all fun p => !ts.contains (p.1 / 64) || p.2.cmds.isEmpty) &&
    s.net.packets.all fun p => !(s.drains p (p.dest / 64))

/-- The registers of a stack's spare pairs after its reset: HAUL_DOWN of those whose haul is down. DESIGN CHOICE (log entry 133): all else,
ENGn_RES_COUNT and ENGn_SUSPECT of a pair that serves no logical core among it, is lost, though those of a pair that serves one are
kept; the manual does not say. -/
def renewSpares (s : State) (t : Nat) : State :=
  let s := { s with spareRegs := s.spareRegs.filter fun (p : Nat × W64) => p.1 / 0x100000 / 72 ≠ t }
  (s.spareVaults.filter fun (p : Nat × Vault) => p.1 / 72 = t && p.2.haulDown).foldl (fun s p =>
    { s with spareRegs := smSet 0 s.spareRegs (p.1 * 0x100000 + VC_STATUS) 1 }) s

/-- The edge links of a stack trained again (R474): those that train come up, the others stay or go down with their detours. -/
def retrainLinks (s : State) (t : Nat) (fail : List (Nat × Nat × Nat)) : State :=
  let of (l : DownLink) : Bool := match linkEnd l.stack l.phys l.port with
    | some (u, _, _) => u ≠ l.stack && (l.stack == t || u == t)
    | none => false
  let failed (l : DownLink) : Bool := fail.contains (l.stack, l.phys, l.port) ||
    match linkEnd l.stack l.phys l.port with
    | some e => fail.contains e
    | none => false
  let s := s.modNet fun n => { n with down := n.down.filter fun l => !of l || failed l }
  (fail.filter fun l => of ⟨l.1, l.2.1, l.2.2, false⟩).foldl linkFails s

/-- Steps 4 to 9 of a stack reset (R474, R475): unchecked rows rebuilt, the base die's registers and tables reset, the steward's image
copied, what is kept restored, epoch 0, links and channel trained, retired islands gated, the clear of its cores begun; the fence
stands still. -/
def renewStack (s : State) (r : Retrained) (t : Nat) : State :=
  let cs := (List.range 64).map (t * 64 + ·)
  let s := s.rebuildAll cs
  let s := cs.foldl (fun s c => s.modVault c resetVault) s
  let s := { s with spareVaults := s.spareVaults.map (fun (p : Nat × Vault) => if p.1 / 72 = t then (p.1, resetVault p.2) else p) }
  let s := s.renewSpares t
  let s := (s.resetRegs (sA t 0) (sA t 0x100000)).dropHalvesIn (sA t 0) (sA t 0x100000)
  let s := { s with halves := s.halves.filter fun h => h.1 ≠ Requester.steward (BitVec.ofNat 4 t) }
  let s := s.modStack t fun k => { Stack.reset with
    fence := true, cycles := k.cycles, slowOpens := k.slowOpens, slowBack := k.slowBack, image := s.stewardImage }
  let s := s.setReg (pA MAP_EPOCH + 4 * t) 0
  let s := (List.range 16).foldl (fun s u =>
    s.setMapCopy t u ((s.reg (pA MAP_SUB + 4 * u)).setWidth 32) ((s.reg (pA MAP_EPOCH + 4 * u)).setWidth 8)) s
  let s := if r.channels.contains t then s.slowDown t else s.setBit (sA t SLOW_STATUS) 0 true
  let s := (s.retrainLinks t r.links).setReg (sA t STHM_GAIN) ((Config.thermalGain t).setWidth 64)
  let s := s.gate (s.warden.retired.filter (· / 72 = t))
  let s := (s.setBit (sA t UPD_STATUS) 0 true).showMap t
  let s := (cs.filter fun c => (s.vault c).haulDown).foldl (fun s c => s.setBit (vA c VC_STATUS) 0 true) s
  (cs.filter fun c => !s.unserved c).foldl (fun s c => s.setPower c 1) s

/-- Step 10: the clears ended, the fence lifted, epoch 0 in every copy of the map. -/
def liftFence (s : State) (t : Nat) : State :=
  let cs := (List.range 64).map (t * 64 + ·)
  let s := (s.clearing cs).foldl wakeCore s
  let s := cs.foldl (fun s c => s.modCore c fun k => { k with resetting := false }) s
  (s.modStack t fun k => { k with fence := false }).setMapCopies t ((s.reg (pA MAP_SUB + 4 * t)).setWidth 32) 0

/-- Step 11: the stack's port retrained where it does, else down. -/
def portAfterReset (s : State) (portsUp : List Nat) (t : Nat) : State :=
  match stackPort t with
  | none => s
  | some p =>
    if !s.bit (bpA p BPORT_STATUS) 31 then s
    else if portsUp.contains p then (s.setPort p Port.reset).evStack t 0x30 8
    else s.portDown p

/-- What the warden and steward do next in the reset in progress (R472, R474): once the work of its stacks has drained these are
renewed, and the clear of its cores begins; once it is over the reset ends, and a map change that waited then starts. -/
def resetEnd (s : State) (r : Retrained) : State :=
  let fin (s : State) : State :=
    (s.setBit (pA BRG_RESET) 30 false).modWarden fun w => { w with reset := none, renewed := false }
  match s.warden.reset with
  | none => s
  | some (0, target) =>
    let c := target % 1024
    let k := s.core c
    if k.held then s
    else if k.power = 0 then s.setPower c 1
    else
      let s := (s.clearing [c]).foldl wakeCore s
      (fin (s.modCore c fun k => { k with resetting := false })).tellReset 0 (c / 64) c
  | some (scope, target) =>
    let ts := resetStacks scope target
    if !s.warden.renewed then
      (if s.drained ts then (ts.foldl (fun s t => s.renewStack r t) s).modWarden fun w => { w with renewed := true } else s)
    else
      let s := ts.foldl liftFence s
      let s := ts.foldl (fun s t => s.tellReset 1 t (t * 64)) (fin s)
      (ts.foldl (fun s t => s.portAfterReset r.ports t) s).mapResume

/-! ### Package reset (R441, R450) -/

/-- Whether every temperature is below its throttle limit, as the readings show (R441). -/
def coolNow (s : State) : Bool := s.warden.hot.isEmpty

/-- PERST# asserted, or power applied: everything but flash, MRAM and THM_TRIP as after reset, what the board drives as it stands, the
input switch closed where 54 V is in range (log entry 151); THERMTRIP# stays asserted, with the module stopped and its regulators off,
while a temperature is not below its throttle limit. -/
def packageReset (s : State) : State :=
  -- ignored until a save that was triggered has run (R511)
  if s.warden.save ≠ 0 ∧ s.warden.stopped ≠ 2 then s
  else
    let r := State.reset
    let hot := s.warden.pins.thermtrip && !s.coolNow
    let p := s.warden.pins
    let pins := { r.warden.pins with thermtrip := hot, pwrgdIn := p.pwrgdIn, vaux := p.vaux, main := p.main, inputOn := p.main }
    let w := { r.warden with
      flash := s.warden.flash, draws := s.warden.draws, pins := pins, stopped := (if hot ∨ !p.vaux then 2 else 0), hot := s.warden.hot,
      eid := s.warden.eid, power := { r.warden.power with off := hot } }
    { r with pending := s.pending, freeCtr := s.freeCtr, warden := w, regs := s.regs.filter fun p => p.1 == pA THM_TRIP }

end State

end Sys2Proof.Machine
end

