-- ==== Sys2Proof/Machine/EvtOps.lean ====
section
/-! DEFINITION. The event ring (R524 to R526). -/

namespace Sys2Proof.Machine

/-- The device address of record slot n of the ring. -/
def ringA (n : Nat) : Nat := pA 0x200000 + 32 * (n % 65536)

namespace State

/-- The 32 bytes of a record with its sequence (R524). -/
def recordOf (s : State) (e : Event) (seq : W32) : List Byte :=
  let id := if s.bit (pA BILO_ID) 31 then s.ownId else 0
  [e.cls, e.code] ++ leBytes 3 (id * 2 ^ 10 + e.source.toNat) ++ [if e.isStack then 1 else 0, 0, 0]
    ++ leBytes 4 e.island.toNat ++ leBytes 4 seq.toNat ++ leBytes 16 e.payload.toNat

/-- Records in the ring not yet read. -/
def unread (s : State) : Nat := (s.fld (pA EVT_HEAD) 16 0 + 2 ^ 17 - s.fld (pA EVT_TAIL) 16 0) % 2 ^ 17

/-- A record written to the ring (R525): HEAD advanced, source 33. -/
def ringWrite (s : State) (bs : List Byte) : State :=
  let h := s.fld (pA EVT_HEAD) 16 0
  ((s.setBytes (ringA h) bs).setFld (pA EVT_HEAD) 16 0 ((h + 1) % 2 ^ 17)).modWarden fun w => { w with dropRun := false }

/-- A record the warden accepts: the next sequence taken; written, or dropped where the ring is full, the first drop of a
run raising source 34. -/
def acceptEvent (s : State) (e : Event) : State :=
  let seq := (s.pReg EVT_SEQ).setWidth 32
  let s := s.setReg (pA EVT_SEQ) ((seq + 1).setWidth 64)
  if s.unread = 65536 then
    let first := !s.warden.dropRun
    let s := (s.addSat (pA EVT_DROPPED) 31 0 1).modWarden fun w => { w with dropRun := true }
    if first then s.raisePkg 34 else s
  else (s.ringWrite (s.recordOf e seq)).raisePkg 33

/-- A fault notice taken from the crier network, in the order of its source (R243, R525). -/
def faultNotice (s : State) (i : Nat) : State :=
  s.takeMsg i 4 fun s m => match m.event with
    | some e => s.acceptEvent e
    | none => s

/-- A write of EVT_TAIL (R526): none that leaves more than 65,536 records unread. -/
def evtTail (s : State) (v : Nat) : State :=
  let t := v % 2 ^ 17
  if 65536 < (s.fld (pA EVT_HEAD) 16 0 + 2 ^ 17 - t) % 2 ^ 17 then s else s.setFld (pA EVT_TAIL) 16 0 t

end State

end Sys2Proof.Machine
end

