-- ==== Sys2Proof/Machine/Views.lean ====
section
/-! DEFINITION. What a register shows where it is a view of other state (R101, R103, R220, R244, R316, R362, R389, R408, R415,
R492); every other register shows what it stores. -/

namespace Sys2Proof.Machine

namespace State

/-! ### The tally (R220) -/

/-- The code of a tally state (R201). -/
def stateCode : TState → Nat
  | .queued => 1 | .running => 2 | .replaying => 3 | .completed => 4 | .failed => 5

/-- A tally entry as TALLY_HEAD and TALLY_ENTRY show it. -/
def entryView (s : State) (c : Nat) : Option Entry → W64
  | none => 0
  | some e => BitVec.ofNat 64 (e.tag.toNat * 2 ^ 48 + e.opcode * 2 ^ 42 + e.queue * 2 ^ 39 + stateCode e.state * 2 ^ 36
      + e.word.wait.toNat * 2 ^ 32 + e.word.signal.toNat * 2 ^ 28 + min 8 (s.openProducers c e) * 2 ^ 24
      + (if e.heldR then 8 else 0) + (if e.heldW then 4 else 0) + 1)

/-- The head of a queue as TALLY_QHEADq shows it. -/
def qheadView (s : State) (c q : Nat) : W64 :=
  match s.queueHead c q with
  | none => 0
  | some e =>
    let t := e.word.wait.toNat
    BitVec.ofNat 64 (e.tag.toNat * 2 ^ 16 + t * 2 ^ 12 + s.token c t * 2 ^ 4
      + (if e.heldR || e.heldW || e.short then 2 else 0) + (if !e.tokenTaken && t ≠ 0 && s.token c t = 0 then 1 else 0))

/-- TALLY_STATUS. -/
def tallyView (s : State) (c : Nat) : W64 :=
  let t := (s.core c).tally
  BitVec.ofNat 64 ((t.filter fun e => !(e.state == .failed)).length * 2 ^ 16 + t.length)

/-! ### Views by region -/

/-- A stored value with a view's bits put in its field. -/
def onTop (v : W64) (hi lo n : Nat) : W64 := putBits v hi lo n

/-- Whether an operation of a queue is in progress. -/
def queueRuns (s : State) (c q : Nat) : Bool := (s.core c).tally.any fun e => e.queue == q && e.inProgress

/-- What a register of core c shows: `off` its offset, `i` its copy, `v` what it stores. -/
def coreView (s : State) (c off i : Nat) (v : W64) : W64 :=
  let k := s.core c
  if off = CORE_STATE then onTop v 1 0 k.power
  else if off = CORE_CLOCK then (if k.droop then onTop v 26 16 (bits v 26 16 / 2) else v)
  else if off = TALLY_STATUS then s.tallyView c
  else if off = TALLY_HEAD then s.entryView c k.tally.head?
  else if off = TALLY_ENTRY then s.entryView c (s.entry c (s.fld (cA c TALLY_SELECT) 8 0))
  else if off = TALLY_QHEAD then s.qheadView c i
  else if off = ICC_STATUS then onTop v 5 0 (s.icBest (some c))
  else if off = ENG0_STATUS then onTop v 0 0 (if s.queueRuns c i then 1 else 0)
  else if off = VU_STATUS then onTop v 0 0 (if s.queueRuns c 2 then 1 else 0)
  else if off = NI_LINKS then BitVec.ofNat 64 (s.linksDown c)
  else if off = CDBG_CONTROL then
    -- HALTED: halted between instructions
    BitVec.ofNat 64 ((if k.halted then 1 else 0) + if k.halted ∧ k.power = 2 then 2 else 0)
  else if off = CDBG_PC then k.pc.setWidth 64
  else if off = CDBG_G then s.gpr c (BitVec.ofNat 5 i)
  else v

/-- What a register of stack t shows. -/
def stackView (s : State) (t off i : Nat) (v : W64) : W64 :=
  let k := s.vault (t * 64 + i)
  if off = NB_STATUS then
    let w := onTop v 24 16 (k.cmds.filter fun x => !x.running).length
    let w := onTop w 13 8 (k.cmds.filter fun x => x.running).length
    onTop (onTop w 2 2 (if k.unchecked.isEmpty then 0 else 1)) 1 1 (if k.draining then 1 else 0)
  else if off = VC_REFRESH then (if s.warden.pausing then onTop v 31 16 128 else v)
  else if off = SLOW_STATUS then onTop v 1 1 (if s.host.restPhase = 1 ∨ (s.stack t).fence then 1 else 0)
  else if off = UPD_STATUS then
    let u := s.stack t
    let w := onTop v 24 16 (u.updIn.length + u.lends.length)
    let w := onTop w 14 8 (u.lends.filter fun l => l.effective).length
    let w := onTop w 2 2 (if s.net.packets.any (fun p => p.held == 2 && p.dest / 64 == t) then 1 else 0)
    onTop w 1 1 (match s.exactHead t with
      | some (_, _, q) => if q.started then 1 else 0
      | none => 0)
  else v

/-- Ports as a mask of a bit of BPORT_STATUS. -/
def portMask (s : State) (b : Nat) : Nat := (List.range 8).foldl (fun n p => n + if s.bit (bpA p BPORT_STATUS) b then 2 ^ p else 0) 0

/-- What a package register shows. -/
def pkgView (s : State) (off : Nat) (v : W64) : W64 :=
  if off = ICP_STATUS then onTop v 9 0 (s.icBest none)
  else if off = HIF_STATUS then onTop (onTop v 10 9 s.host.restPhase) 8 8 (if s.host.d3hot then 1 else 0)
  else if off = BILO_STATUS then BitVec.ofNat 64 (s.portMask 30 * 256 + s.portMask 31)
  else v

/-- What the register found at an address shows. -/
def show_ (s : State) (h : RegHit) : W64 :=
  let v := s.reg h.base
  match h.row.region with
  | .core =>
    -- an Off core shows CORE_ID and CORE_STATE alone (R101)
    if (s.core h.owner).power = 0 ∧ h.row.off ≠ CORE_ID ∧ h.row.off ≠ CORE_STATE then 0
    else s.coreView h.owner h.row.off h.idx v
  | .stack => s.stackView h.owner h.row.off h.idx v
  | .package => s.pkgView h.row.off v

end State

end Sys2Proof.Machine
end

