-- ==== Sys2Proof/Machine/ShutOps.lean ====
section
/-! DEFINITION. Power inputs, the hold-up capacitor and the shutter save (R499, R503, R507 to R512), the boot of the warden
(R451), and the management bus (R505, R506). Log entry 19 says how the sections are laid out within. -/

namespace Sys2Proof.Machine

namespace State

/-! ### Status outputs: ALERT#, FAULT# and WAKE# while asserted (R504) -/

def alertPin (s : State) : Bool :=
  s.bit (pA PWR_STATUS) 15 || s.fld (pA PWR_STATUS) 6 4 ≠ 0 || (List.range 16).any (fun t => s.fld (sA t STHM_SUSPECT) 15 0 ≠ 0)
    || s.bit (pA SHUT_STATUS) 5 || s.bit (pA SHUT_STATUS) 6 || s.bit (pA SHUT_STATUS) 7 || s.bit (pA BRG_STATUS) 28

/-- FAULT# is driven while the warden runs, and while it stands stopped after a shutter save with VAUX12 present (R503). -/
def faultDrive (s : State) : Drive :=
  let w := s.warden
  if !w.pins.vaux ∨ (w.stopped = 2 ∧ !w.saved) ∨ (w.pins.perst ∧ w.stopped ≠ 2) then .highZ
  else if s.bit (pA BRG_STATUS) 29 || s.bit (pA SEC_STATUS) 6 || s.fld (pA BRG_STACK_DOWN) 15 0 ≠ 0 || w.saved then .low
  else .high

def faultPin (s : State) : Bool := s.faultDrive == .low

/-- SHUTTER_DONE is driven from HOLDCAP after a save (R503). -/
def shutterDrive (s : State) : Drive := if s.warden.pins.shutterDone then .high else .highZ

def wakePin (s : State) : Bool := s.host.d3hot && s.host.woken

/-! ### The record (R509, R510) -/

/-- Bytes as pairs of offset and byte from an offset. -/
def placed (off : Nat) (bs : List Byte) : List Host.Cell :=
  (bs.mapIdx fun i b => (off + i, b)).filter fun c => c.2 ≠ 0

def secTallies (s : State) : List Byte :=
  (List.range 1024).flatMap fun c => leBytes 8 (s.entryView c (s.core c).tally.head?).toNat

/-- Pairs retired in service that the repair record does not hold. -/
def unsavedRetired (s : State) : List W64 :=
  s.warden.defects.filter fun e => defectKind e = 3 && !s.recordNow.entries.contains e

def secMap (s : State) : List Byte :=
  (List.range 16).flatMap (fun t => leBytes 4 (s.pReg (MAP_SUB + 4 * t)).toNat)
    ++ (List.range 16).flatMap (fun t => leBytes 4 (s.pReg (MAP_EPOCH + 4 * t)).toNat)
    ++ leBytes 4 (match s.net.change with
      | some (t, r, old, new) => 2 ^ 31 + new * 2 ^ 11 + old * 2 ^ 7 + t * 2 ^ 3 + r
      | none => 0)
    ++ leBytes 4 s.unsavedRetired.length ++ s.unsavedRetired.flatMap fun e => leBytes 8 e.toNat

def secInterrupts (s : State) : List Byte :=
  let words (a n : Nat) : List Byte := (List.range n).flatMap fun i => leBytes 8 (s.pReg (a + 8 * i)).toNat
  let icp := words ICP_PENDING0 16 ++ words ICP_ENABLE0 16 ++ words ICP_FWD 16
    ++ (List.range 8).flatMap (fun i => leBytes 4 (s.pReg (ICP_STACK + 4 * i)).toNat) ++ leBytes 4 (s.pReg ICP_STATUS).toNat
  icp ++ List.replicate (4096 - icp.length) 0 ++
    (List.range 1024).flatMap fun c =>
      leBytes 8 (s.cReg c ICC_PENDING).toNat ++
        (List.range 8).map fun i => BitVec.ofNat 8 (s.fld (cA c ICC_STACK + 4 * i) 5 0)

/-- A launch's entry with its queue and index in its last word, which R396 leaves zero. -/
def launchBytes (l : Launch) : List Byte :=
  (l.bytes ++ List.replicate 64 0).take 56 ++ [BitVec.ofNat 8 l.queue, BitVec.ofNat 8 l.index] ++ List.replicate 6 0

def secLaunches (s : State) : List Byte :=
  (List.range 64).flatMap (fun q => leBytes 64 (s.fld (qA q Q_HEAD) 7 0)) ++ s.host.launches.flatMap launchBytes

def secEvents (s : State) : List Byte :=
  (List.range (min s.unread 4096)).flatMap fun i => s.bytes (ringA (s.fld (pA EVT_TAIL) 16 0 + i)) 32

/-- A barrow's entry, G, and the contributor bitmaps of its node segments for G and G + 1. -/
def barrowBytes (s : State) (b : Barrow) : List Byte :=
  b.words.flatMap (fun w => leBytes 8 w.toNat) ++ leBytes 8 b.gen.toNat ++
    if b.expect = 0 then [] else (List.range b.segments).flatMap fun n =>
      let map (g : Byte) : List Byte :=
        let q := s.seg (b.at_ b.node g n / 4096)
        leBytes 8 (if q.gen = some g then q.bitmap.toNat else 0)
      map b.gen ++ map (b.gen + 1)

/-- The open barrows in ascending id. -/
def barrowsUp (s : State) : List Barrow := (List.range 4096).filterMap s.barrow

/-- The barrows that fit their section, and whether some do not. -/
def secBarrows (s : State) : List Byte × Nat × Bool :=
  s.barrowsUp.foldl (fun (acc : List Byte × Nat × Bool) b =>
    let bs := s.barrowBytes b
    if 286720 < acc.1.length + bs.length then (acc.1, acc.2.1, true) else (acc.1 ++ bs, acc.2.1 + 1, acc.2.2)) ([], 0, false)

/-- The header without its CRC: `done` the COMPLETE bit. -/
def headerBytes (s : State) (seq : W32) (cause : Nat) (done trip : Bool) (barrows launches events : Nat) (cut : Bool) :
    List Byte :=
  let flags := 1 + (if done then 2 else 0) + (if cut then 4 else 0) + (if trip then 8 else 0)
    + (if s.host.restPhase = 1 then 16 else 0) + (if s.inService then 0 else 32)
  leBytes 4 0x54554853 ++ leBytes 4 seq.toNat ++ leBytes 8 Config.serial.toNat ++ leBytes 4 s.warden.flash.bootCount.toNat
    ++ leBytes 4 s.now.toNat ++ [BitVec.ofNat 8 cause, BitVec.ofNat 8 flags] ++ leBytes 2 barrows ++ leBytes 4 launches
    ++ leBytes 4 events

end State

/-! ### The slots in force (R512, R521) -/

namespace ShutterRecord

def bytesAt (r : ShutterRecord) (off n : Nat) : List Byte := smGetList 0 r.cells off n
def num (r : ShutterRecord) (lo hi : Nat) : Nat := ofLeBytes (r.bytesAt lo (hi - lo + 1))
def seq (r : ShutterRecord) : W32 := BitVec.ofNat 32 (r.num 4 7)
def flag (r : ShutterRecord) (b : Nat) : Bool := (r.num 25 25).testBit b
def started (r : ShutterRecord) : Bool := r.num 0 3 = 0x54554853 && r.flag 0

/-- The CRC of a record: the header's first 4,092 bytes and every section at its full size. -/
def crc (r : ShutterRecord) : W32 := crc32c (r.bytesAt 0 4092 ++ r.bytesAt 4096 520192)

/-- COMPLETE set, CRC valid, serial here: what the sections hold can be used. -/
def intact (r : ShutterRecord) : Bool :=
  r.flag 1 && r.num 4092 4095 = r.crc.toNat && r.num 8 15 = Config.serial.toNat

/-- REPLAY: intact, BRINGUP and TRUNCATED clear. -/
def replays (r : ShutterRecord) : Bool := r.intact && !r.flag 5 && !r.flag 2

end ShutterRecord

namespace State

/-- Whether slot B is the later save: its SAVE_SEQ is one above slot A's, modulo 2³² (R521). -/
def mramLater (s : State) : Bool :=
  let a := s.warden.flash.mramA
  let b := s.warden.flash.mramB
  b.started && (!a.started || b.seq = a.seq + 1)

/-- The slot of the last save. -/
def mramLast (s : State) : ShutterRecord := if s.mramLater then s.warden.flash.mramB else s.warden.flash.mramA

/-! ### The save (R499, R508, R511) -/

/-- A trigger of a save: none in package reset, nor with a thermal trip in force. -/
def saveTrigger (s : State) (cause : Nat) : State :=
  if s.warden.pins.perst || s.warden.pins.thermtrip || s.warden.save ≠ 0 || s.warden.stopped = 2 then s
  else s.modWarden fun w => { w with save := cause }

/-- The 54 V input out of the range that the module runs on: the input switch opens (R499); where it is removed after a trip, THERMTRIP# is
released (R441). -/
def mainOut (s : State) : State :=
  s.modWarden fun w => { w with pins := { w.pins with main := false, inputOn := false } }

/-- A power input that leaves its range, or comes back (R499, R500). With PERST# asserted the input switch closes again (log entry 151). -/
def inputOut (s : State) (e : InputEvent) : State :=
  match e with
  | .low => if s.warden.stopped = 2 ∨ s.warden.pins.perst then s
            else (s.setBit (pA SHUT_STATUS) 5 true).evWarden 0 0x70 0x04
  | .high => if s.warden.stopped = 2 ∨ s.warden.pins.perst then s
             else (s.setBit (pA SHUT_STATUS) 6 true).evWarden 0 0x70 0x05
  | .under => (s.saveTrigger 1).mainOut.modWarden fun w => { w with pins := { w.pins with thermtrip := false } }
  | .aboveMax => (s.saveTrigger 2).mainOut
  | .vaux => s.saveTrigger 4
  | .back => s.modWarden fun w => { w with pins := { w.pins with main := true, inputOn := w.pins.inputOn || w.pins.perst } }
  | .vauxBack => if s.warden.pins.vaux then s else
      s.modWarden fun w => { w with pins := { w.pins with vaux := true, perst := true } }
  | .pwrgd => s.modWarden fun w => { w with pins := { w.pins with pwrgdIn := w.pins.vaux && w.pins.main } }

/-- PWRGD_IN deasserted. -/
def pwrgdDown (s : State) : State :=
  (s.modWarden fun w => { w with pins := { w.pins with pwrgdIn := false } }).saveTrigger 3

/-- The record as the save writes it: its cells. -/
def saveCells (s : State) (seq : W32) (cause : Nat) (trip dies : Bool) : List Host.Cell :=
  let bar := s.secBarrows
  let events := min s.unread 4096
  let cut := bar.2.2 || decide (4096 < s.unread)
  let header (done : Bool) := s.headerBytes seq cause done trip bar.2.1 s.host.launches.length events cut
  let sections := placed 0x1000 s.secTallies ++ placed 0x3000 s.secMap ++ placed 0x4000 s.secInterrupts
    ++ placed 0x9000 s.secLaunches ++ placed 0x1A000 s.secEvents ++ placed 0x3A000 bar.1
  if dies then placed 0 (header false) ++ sections
  else
    let r : ShutterRecord := ⟨placed 0 (header true) ++ sections, false, false⟩
    placed 0 (header true) ++ placed 4092 (leBytes 4 r.crc.toNat) ++ sections

/-- The shutter save: clocks stopped, the record written into the slot not used by the last save, SHUTTER_DONE driven;
`dies` where HOLDCAP is exhausted before step 7. -/
def shutterSave (s : State) (trip dies : Bool) : State :=
  if s.warden.save = 0 ∨ s.warden.stopped = 2 then s
  else
    let seq := if s.mramLast.started then s.mramLast.seq + 1 else 1
    let r : ShutterRecord := ⟨s.saveCells seq s.warden.save trip dies, false, false⟩
    let intoB := s.mramLast.started && !s.mramLater
    let s := s.modFlash fun f =>
      { (if intoB then { f with mramB := r } else { f with mramA := r }) with sags := f.sags + 1 }
    let s := s.modWarden fun w => { w with
      stopped := 2, pins := { w.pins with thermtrip := w.pins.thermtrip || trip, inputOn := false }, power := { w.power with off := true } }
    if dies then s
    else s.modWarden fun w => { w with saved := true, pins := { w.pins with shutterDone := true } }

/-- HOLDCAP's voltage while the warden stands stopped: below the hold-up converter's minimum of 6.0 V (R507) it is exhausted, and
SHUTTER_DONE no longer driven (R503). -/
def holdcapFalls (s : State) (mv : W16) : State :=
  if mv.toNat < 6000 then s.modWarden fun w => { w with pins := { w.pins with shutterDone := false } } else s

/-- HOLDCAP measured (R507): mV, and units of 10 µF. -/
def holdcap (s : State) (mv cap : W16) : State :=
  let s := s.setReg (pA SHUT_HOLDCAP) (BitVec.ofNat 64 (cap.toNat * 65536 + mv.toNat))
  let s := s.setBit (pA SHUT_STATUS) 0 (decide (15000 ≤ mv.toNat) && decide (300 ≤ cap.toNat))
  s.setBit (pA SHUT_STATUS) 7 (decide (cap.toNat < 300))

/-- VAUX12 removed while the module is not running: the standby domain off, the latched trip and the endpoint ID lost; SHUTTER_DONE is
driven from HOLDCAP until that is exhausted (R503). -/
def vauxLoss (s : State) : State :=
  if !s.warden.pins.perst && s.warden.stopped ≠ 2 then s
  else
    let s := s.modWarden fun w =>
      { w with stopped := 2, eid := 0, pins := { w.pins with vaux := false, thermtrip := false, pwrgdIn := false } }
    { s with regs := s.regs.filter fun p => p.1 ≠ pA THM_TRIP }

/-- SHUT_CONTROL.CLEAR (R512). -/
def shutClear (s : State) : State :=
  let s := ((s.setBit (pA SHUT_STATUS) 1 false).setFld (pA SHUT_STATUS) 3 2 0)
  let later := s.mramLater
  s.modFlash fun f =>
    if later then { f with mramB := { f.mramB with cleared := true } } else { f with mramA := { f.mramA with cleared := true } }

/-! ### The boot of the warden (R451, R462, R512) -/

/-- Saved events first in the ring, with their sequences (R512, R526). -/
def bootEvents (s : State) (r : ShutterRecord) : State :=
  let n := r.num 32 35
  let recs := (List.range n).map fun i => r.bytesAt (0x1A000 + 32 * i) 32
  let s := recs.foldl ringWrite s
  match recs.getLast? with
  | some l => s.setReg (pA EVT_SEQ) (BitVec.ofNat 64 ((ofLeBytes ((l.drop 12).take 4) + 1) % 2 ^ 32))
  | none => s

/-- Retirements a record holds. -/
def savedRetirements (r : ShutterRecord) : List W64 :=
  (List.range (min (r.num 0x3084 0x3087) 495)).map fun i => BitVec.ofNat 64 (r.num (0x3088 + 8 * i) (0x308F + 8 * i))

/-- The shutter record read at step 0: reported until cleared. -/
def bootShutter (s : State) : State :=
  let r := s.mramLast
  let s := s.setReg (pA SHUT_SAGS) (s.warden.flash.sags.setWidth 64)
  let s := s.setReg (pA SHUT_SAVE_SEQ) (r.seq.setWidth 64)
  if !r.started then s
  else if r.cleared then s
  else
    let ok := r.replays
    let st := pA SHUT_STATUS
    let s := (((s.setBit st 1 true).setFld st 3 2 (if ok then 1 else 2)).setBit st 4 r.reported).setBit (pA BRG_STATUS) 28 true
    let s := if r.intact then s.bootEvents r else s
    let s := s.modWarden fun w => { w with savedRetired := if r.intact then savedRetirements r else [] }
    let later := s.mramLater
    let s := s.modFlash fun f =>
      if later then { f with mramB := { f.mramB with reported := true } } else { f with mramA := { f.mramA with reported := true } }
    (s.evWarden 0 0x70 (if ok then 1 else 2) (r.seq.toNat + r.num 24 24 * 2 ^ 32)).raisePkg 41

/-- The repair record read (R459, R462): accepted and measured, or rejected; without an identity key it is rejected. -/
def bootRecord (s : State) : State :=
  let r := s.recordNow
  if s.recordIn then
    let s := ((s.setBit (pA BRG_RECORD) 31 true).setFld (pA BRG_RECORD) 17 0 r.entries.length).setReg (pA BRG_RECORD_SEQ)
      (r.seq.setWidth 64)
    s.extendMeasure 3 (sha256 (r.body ++ r.sig))
  else ((s.setBit (pA BRG_RECORD) 30 true).evWarden 0 0x80 0x21).extendMeasure 3 (List.replicate 32 0)

/-- The warden's boot on the deassertion of PERST#, once the board has asserted PWRGD_IN (R500): the endpoint is presented; then identity,
images, records and the MRAM, and READY. -/
def wardenBoot (s : State) (b : BootFinds) : State :=
  if s.warden.booted || s.warden.stopped ≠ 0 || !s.warden.pins.vaux || !s.warden.pins.pwrgdIn then s
  else if !b.ends then s.modWarden fun w => { w with pins := { w.pins with perst := false } }
  else
    let s := s.modWarden fun w => { w with booted := true, pins := { w.pins with perst := false } }
    let s := s.bootSecurity b.pufErrors
    let s := s.bootRecord
    let s := match s.warden.flash.savedFull with
      | some r => s.setReg (pA BRG_LAST_FULL) r.wall
      | none => s
    let s := s.bootShutter
    let s := if s.bit (pA SHUT_STATUS) 7 then s.evWarden 0 0x70 0x03 else s
    let s := ((s.setFld (pA HIF_STATUS) 7 5 b.speed.toNat).setBit (pA HIF_STATUS) 4 b.flit).setFld (pA HIF_STATUS) 3 0 b.width.toNat
    s.setBit (pA BRG_STATUS) 31 true

/-! ### The management bus (R505, R506) -/

/-- An answer on the management bus. -/
def busAnswer (s : State) (tag : Nat) (bs : List Byte) : State := s.modHost fun h => { h with answers := h.answers ++ [(tag, bs)] }

/-- The latest telemetry frame. -/
def lastFrame (s : State) : List Byte := s.bytes (frameA (s.fld (pA PWR_FRAME_SEQ) 31 0 % 64)) 128

/-- Whether the bus is served: the warden runs. -/
def busUp (s : State) : Bool := s.warden.pins.vaux && s.warden.stopped ≠ 2

/-- A transfer on the bus (R505): the Alert Response Address, 0x0C, is answered with the module's own while ALERT# is asserted; at that
address, 0x63, the module takes requests. -/
def onBus (s : State) (r : BusRequest) (f : State → State) : State :=
  if !s.busUp then s
  else if r.address = 0x0C then (if s.alertPin then s.busAnswer r.tag [0xC6] else s)
  else if r.address = 0x63 then f s
  else s

/-- An MCTP control request, answered as DSP0236 lays answers out (log entry 150): the bus owner sets the endpoint ID (1), and reads it (2),
the UUID (3), the version (4) and the message types, control, PLDM and vendor-defined (5); what would change the state of the module (R506),
and any other command, is answered as unsupported, 0x05. -/
def mctp (s : State) (r : BusRequest) : State :=
  s.onBus r fun s =>
    if r.changesState then s.busAnswer r.tag [0x05]
    else match r.command with
    | 1 => (s.modWarden fun w => { w with eid := r.eid }).busAnswer r.tag [0x00, 0x00, r.eid, 0x00]
    | 2 => s.busAnswer r.tag [0x00, s.warden.eid, 0x00, 0x00]
    | 3 =>
      let a := s.takeFree
      let b := a.2.takeFree
      b.2.busAnswer r.tag (0x00 :: leBytes 8 a.1.toNat ++ leBytes 8 b.1.toNat)
    | 4 =>
      let a := s.takeFree
      a.2.busAnswer r.tag (0x00 :: 0x01 :: leBytes 4 (a.1.toNat % 2 ^ 32))
    | 5 => s.busAnswer r.tag [0x00, 0x03, 0x00, 0x01, 0x7E]
    | _ => s.busAnswer r.tag [0x05]

/-- A PLDM request: unsupported where it would change the state; a state sensor of R505, named from 0x80 upward, or a
numeric sensor, bytes of the telemetry frame. -/
def pldm (s : State) (r : BusRequest) : State :=
  s.onBus r fun s =>
  if r.changesState then s.busAnswer r.tag [0x05]
  else
    let p := s.warden.pins
    let state := [s.faultPin, p.thermtrip, s.alertPin, s.bit (pA BRG_STATUS) 28]
    if 0x80 ≤ r.sensor then s.busAnswer r.tag [0x00, if state.getD (r.sensor - 0x80) false then 1 else 0]
    else s.busAnswer r.tag ([0x00] ++ (s.lastFrame.drop r.sensor).take r.length)

/-- Vendor-defined request 0x01: the latest frame whole. -/
def vendorFrame (s : State) (r : BusRequest) : State :=
  s.onBus r fun s =>
  if r.command ≠ 1 ∨ r.changesState then s.busAnswer r.tag [0x05]
  else s.busAnswer r.tag s.lastFrame

end State

end Sys2Proof.Machine
end

