-- ==== Sys2Proof/Machine/Regs.lean ====
section
/-! DEFINITION. Register accesses (R9 to R13): who may make them, halves of 64-bit registers, access codes, and the effect of
a write on a register that acts (the registers' own rules). -/

namespace Sys2Proof.Machine

/-- Tests that all pass (log entry 20). -/
def TestResults.good : TestResults :=
  { coolantFlow := 300, baseDies := [], edgeLinks := [], channels := [], rows := [], ports := List.range 8, partners := [],
    cores := [], groups := [], memories := [], retention := [] }

def Env.none : Env := ⟨[], TestResults.good, false⟩

/-! ### Codes (R11, R12) -/

/-- The bits of a register that belong to a field. -/
def RegRow.fieldMask (r : RegRow) : W64 :=
  r.fields.foldl (fun m f => m ||| BitVec.ofNat 64 ((2 ^ (f.hi - f.lo + 1) - 1) * 2 ^ f.lo)) 0

/-- Whether a write gives a reserved field, within the bits it writes, a value other than zero (R12). -/
def RegRow.reservedSet (r : RegRow) (v mask : W64) : Bool := (v &&& mask &&& ~~~r.fieldMask) ≠ 0

/-- A register's value after a write of the bits of a mask, field by field. -/
def RegRow.written (r : RegRow) (old v mask : W64) : W64 :=
  r.fields.foldl (fun w f =>
    let m := BitVec.ofNat 64 ((2 ^ (f.hi - f.lo + 1) - 1) * 2 ^ f.lo) &&& mask
    match f.acc with
    | .rw => (w &&& ~~~m) ||| (v &&& m)
    | .w1c => w &&& ~~~(v &&& m)
    | .w1s => w ||| (v &&& m)
    | .ro | .wo | .rc => w) old

/-- A register's value as a read returns it: WO fields read zero. -/
def RegRow.readable (r : RegRow) (v : W64) : W64 :=
  r.fields.foldl (fun w f =>
    if f.acc = .wo then w &&& ~~~(BitVec.ofNat 64 ((2 ^ (f.hi - f.lo + 1) - 1) * 2 ^ f.lo)) else w) v

namespace State

/-! ### Who may access (R97, R109, R195, R245, R269, R286, R294, R375, R413, R420, R452, R485, R489) -/

/-- A region in service for the host and debug (R452); in recovery only the SEC_, DBG_ and BRG_ blocks of the package (R485). -/
def regionUp (s : State) (rg : Region) (off : Nat) : Bool :=
  let ready := s.bit (pA BRG_STATUS) 31
  let done := s.fld (pA BRG_STATUS) 27 25
  if s.bit (pA SEC_STATUS) 6 then
    ready && rg = .package && (decide (0x70000 ≤ off ∧ off < 0x90000) || decide (0x20000 ≤ off ∧ off < 0x30000))
  else match rg with
    | .package => ready
    | .stack => decide (1 ≤ done)
    | .core => decide (4 ≤ done)

/-- Whether a requester reaches a register: a control core in privileged mode its own control block and its own stack's
block, a steward its own stack, the warden, host and debug every block. -/
def reaches (s : State) (req : Requester) (rg : Region) (owner off : Nat) : Bool :=
  match req with
  | .core c =>
    s.privileged c.toNat && ((rg = .core && owner = c.toNat) || (rg = .stack && owner = c.toNat / 64))
  | .steward t => (rg = .stack && owner = t.toNat) || (rg = .core && owner / 64 = t.toNat)
  | .warden => true
  | .host => s.regionUp rg off
  | .debug => s.regionUp rg off

/-- The debug scope that a read or write of a register needs (R489). -/
def scopeNeeded (req : Requester) (rg : Region) (off : Nat) (write : Bool) : Nat :=
  if rg = .core ∧ 0x8000 ≤ off ∧ off < 0x9000 then (if write then 2 else 1)
  else if rg = .package ∧ 0x80000 ≤ off ∧ off < 0x801B0 then 0
  else if rg = .package ∧ 0x801B0 ≤ off ∧ off < 0x90000 then 1
  else if req = .debug then (if write then 2 else 1) else 0

/-- Whether a rule keeps the requester from writing the register. -/
def writerOk (req : Requester) (rg : Region) (off : Nat) : Bool :=
  let host := req == .host
  let debug := req == .debug
  let core := match req with
    | .core _ => true
    | _ => false
  match rg with
  | .core =>
    if PITCH ≤ off ∧ off < PITCH + 0xE0 then host || core || debug
    else if TOK_TARGET ≤ off ∧ off < TOK_TARGET + 0x40 then host || core || debug
    else if off = ICC_CLAIM ∨ off = ICC_EOI then core || debug
    else if off = ICC_STACK_CTL ∨ off = ICC_SEND then host || core || debug
    else true
  | .stack =>
    if off = SCRUB_DIAG then host || debug
    else if VC_STATUS ≤ off ∧ off < VC_STATUS + 0x10000 ∧ off % 0x400 = VC_REFRESH % 0x400 then req == .warden
    else if NB_MODE ≤ off ∧ off < NB_MODE + 0x10000 ∧ off % 0x400 = 0 then host || core || debug
    else true
  | .package =>
    if 0xA0000 ≤ off ∧ off < 0xB0000 then host || debug
    else if off = ICP_CLAIM ∨ off = ICP_EOI ∨ off = ICP_STACK_CTL then host || debug
    else if off = BILO_COMMAND then host
    else true

def mayWrite (s : State) (req : Requester) (rg : Region) (owner off : Nat) : Bool :=
  s.reaches req rg owner off && writerOk req rg off && decide (scopeNeeded req rg off true ≤ s.scope)

def mayRead (s : State) (req : Requester) (rg : Region) (owner off : Nat) : Bool :=
  s.reaches req rg owner off && decide (scopeNeeded req rg off false ≤ s.scope)

/-! ### Registers that act -/

/-- A status bit cleared withdraws the request it raised (R412): the source, where the write clears its bit. -/
def withdrawals (s : State) (c off : Nat) (old new : W64) : State :=
  let gone (b : Nat) : Bool := old.getLsbD b && !new.getLsbD b
  if (off = ENG0_FAULT ∨ off = ENG0_FAULT + 0x800) ∧ gone 0 then s.withdrawCore c 1
  else if off = VU_FAULT ∧ gone 0 then s.withdrawCore c 2
  else if off = CORE_MOVE_FAULT ∧ gone 0 then s.withdrawCore c 3
  else if off = PITCH_FAULT ∧ gone 0 then s.withdrawCore c 4
  else if off = CORE_SP_STARVE ∧ gone 16 then s.withdrawCore c 5
  else if off = CORE_XW_LAST ∧ gone 0 then s.withdrawCore c 6
  -- each bit set raised the request (log entry 153)
  else if off = TOK_OVERFLOW ∧ (List.range 16).any gone then s.withdrawCore c 7
  else if off = NI_RECV_WAIT ∧ gone 16 then s.withdrawCore c 8
  else if off = ICC_FAULT ∧ gone 31 then s.withdrawPkg 35
  else s

/-- NB_MODE.ENABLE written (R294). -/
def nbMode (s : State) (c : Nat) (on : Bool) : State :=
  if on = s.bit (vA c NB_MODE) 0 then s
  else
    let s := (s.nbTurnAway c).setBit (vA c NB_MODE) 0 on
    if on then (if (s.vault c).draining then s else s.modVault c fun v => { v with powering := true })
    else if s.bit (vA c NB_STATUS) 0 then s.modVault c fun v => { v with draining := true }
    else s

/-- CDBG_CONTROL.HALT (R492). -/
def cdbgHalt (s : State) (c : Nat) (halt : Bool) : State := s.modCore c fun k => { k with halted := halt }

/-- CDBG_PC or CDBG_Gn written, while halted. -/
def cdbgWrite (s : State) (c : Nat) (isPc : Bool) (n : BitVec 5) (v : W64) : State :=
  if !(s.core c).halted then s
  else if isPc then s.modCore c fun k => { k with pc := v.setWidth 46 }
  else s.setGpr c n v

/-- A write to a register of core c that acts; none where it only sets its fields. -/
def actCore (s : State) (h : RegHit) (v : W64) : Option State :=
  let c := h.owner
  let off := h.row.off
  if off = ICC_CLAIM then some (s.icClaim (some c) (bits v 5 0))
  else if off = ICC_EOI then some (s.icEoi (some c) (bits v 5 0))
  else if off = ICC_STACK_CTL then some (if v.getLsbD 0 then s.icStackReset (some c) else s)
  else if off = ICC_SEND then some (s.iccSend c (bits v 9 0))
  else if off = ICC_PENDING then some (s.iccWithdraw c v)
  else if off = ICC_RAISE then some (s.iccRaise c v)
  else if off = TALLY_FAILED then some (if v.getLsbD 0 then s.failedClear c else s)
  else if off = CDBG_CONTROL then some (s.cdbgHalt c (v.getLsbD 0))
  else if off = CDBG_PC then some (s.cdbgWrite c true 0 v)
  else if off = CDBG_G then some (s.cdbgWrite c false (BitVec.ofNat 5 h.idx) v)
  else none

/-- A write to a register of a stack that acts. -/
def actStack (s : State) (h : RegHit) (new v : W64) (e : Env) : Option State :=
  let t := h.owner
  let c := t * 64 + h.idx
  let off := h.row.off
  let put := s.setReg h.base new
  if off = VC_CLEAR then
    some (if s.bit h.base 30 then put else if v.getLsbD 31 then (put.setBit h.base 31 false).clearGo c else put)
  else if off = VC_REPAIR then
    some (if s.bit h.base 30 then put else if v.getLsbD 31 then ((put.setBit h.base 31 false).upsets e.ups).repairGo c else put)
  else if off = SLOW_CLEAR then some (if v.getLsbD 31 then s.slowClearGo t else s)
  else if off = NB_MODE then some (s.nbMode c (v.getLsbD 0))
  else if off = NB_CONFIG then
    -- a CAP of 0 or more than 32 is taken as 32 (R314)
    some (let n := bits new 21 16
      if n = 0 ∨ 32 < n then put.setFld h.base 21 16 32 else put)
  else if off = UPD_CONFIG then some (s.updConfig t (v.setWidth 32))
  else if off = STHM_SUSPECT then some (s.suspectClear t (v.setWidth 32))
  else none

/-- GO of BRG_COMMAND for the step it names (R453). -/
def brgCommand (s : State) (v : W64) (t : TestResults) : State :=
  let n := bits v 2 0
  let full := v.getLsbD 8
  s.stepGo n full t fun s =>
    match n with
    | 1 => s.stepClocks full t
    | 2 => s.stepMemory full t
    | 3 => s.stepLinks t
    | 4 => s.stepCores t
    | _ => s.stepService

/-- A write of BRG_RESET (R471, R472): a GO that is refused sets ERROR and does nothing else. -/
def brgReset (s : State) (new v : W64) : State :=
  let a := pA BRG_RESET
  if v.getLsbD 31 && s.resetRefused (bits v 25 24) (bits v 15 0) then s.setBit a 27 true
  else
    let s := s.setReg a (new &&& ~~~0x90000000)
    let s := if v.getLsbD 28 then s.resetRelease else s
    if v.getLsbD 31 then s.resetGo (bits v 25 24) (bits v 15 0) (v.getLsbD 29) else s

/-- A write of DBG_CONTROL (R490, R491): the bits set act in ascending order. -/
def dbgControl (s : State) (v : W64) : State :=
  let s := if v.getLsbD 0 then s.challenge else s
  let s := if v.getLsbD 1 then s.submit else s
  if v.getLsbD 2 then s.relock else s

/-- A write to a package register that acts. -/
def actPkg (s : State) (h : RegHit) (new v : W64) (e : Env) : Option State :=
  let off := h.row.off
  let put := s.setReg h.base new
  if off = ICP_CLAIM then some (s.icClaim none (bits v 9 0))
  else if off = ICP_EOI then some (s.icEoi none (bits v 9 0))
  else if off = ICP_STACK_CTL then some (if v.getLsbD 0 then s.icStackReset none else s)
  else if off = ICP_FAULT then some (if v.getLsbD 63 && s.bit h.base 63 then put.withdrawPkg 35 else put)
  else if off = ICP_PENDING0 then some (s.icpWithdraw 0 v)
  else if off = ICP_PENDING then some (s.icpWithdraw (h.idx + 1) v)
  else if off = ICP_ENABLE0 then
    -- the shutter record's source is raised once enabled (R451)
    some (if !s.bit h.base 41 && new.getLsbD 41 && s.bit (pA BRG_STATUS) 28 then put.raisePkg 41 else put)
  else if off = ICP_RAISE then some (s.icpRaise (h.idx + 4) v)
  else if off = ICP_FWD then some (s.icpFwdClear h.idx v)
  else if off = MAP_COMMAND then
    some (if s.bit (pA MAP_STATUS) 0 then put else if v.getLsbD 31 then (put.setBit h.base 31 false).mapGo else put)
  else if off = BRG_STATUS then some (if v.getLsbD 28 then put.withdrawPkg 41 else put)
  else if off = BRG_COMMAND then some (if v.getLsbD 31 then (put.setBit h.base 31 false).brgCommand v e.tests else put)
  else if off = BRG_RESET then some (s.brgReset new v)
  else if off = PWR_CAP then some (s.capWrite (v.setWidth 32))
  else if off = PWR_LIMIT then some (s.limitWrite h.base (bits v 15 0))
  else if off = PWR_TIME_REF then some (s.timeRefWrite new)
  else if off = HIF_REST then
    let s := if v.getLsbD 1 then s.setBit h.base 1 false else s
    some (if v.getLsbD 0 then s.restEnter else s)
  else if off = Q_CONTROL then some (s.qControl h.idx (v.setWidth 32))
  else if off = Q_TAIL then some (s.tailWrite h.idx (bits v 7 0))
  else if off = Q_CHEAD then some (s.cheadWrite h.idx (bits v 7 0))
  else if off = BILO_ID then some (s.biloIdWrite (v.setWidth 32))
  else if off = BILO_COMMAND then some (s.biloCommand (v.setWidth 32))
  else if off = BPORT_CONTROL then
    let s := put.setBit h.base 1 (s.bit h.base 1)
    some (if v.getLsbD 1 then s.retrain h.idx else s)
  else if off = SEC_ATTEST then
    let s := if v.getLsbD 29 then s.setBit h.base 29 false else s
    some (if v.getLsbD 31 then s.attest else s)
  else if off = SEC_EXTEND then
    let s := if v.getLsbD 29 then s.setBit h.base 29 false else s
    some (if v.getLsbD 31 then s.extend (bits v 2 0) else s.setFld h.base 2 0 (bits v 2 0))
  else if off = SEC_UPDATE then
    some (if v.getLsbD 31 then s.updateChunk (bits v 25 24) (bits v 15 0) (v.getLsbD 23) e.flashFails else put)
  else if off = DBG_CONTROL then some (s.dbgControl v)
  else if off = DBG_OP then some (put.setBit h.base 31 false)
  else if off = SHUT_CONTROL then some (if v.getLsbD 0 then s.shutClear else s)
  else if off = EVT_TAIL then some (s.evtTail (bits v 16 0))
  else none

/-- A write of the bits of a mask to a register: its action, or its fields by their codes. -/
def act (s : State) (h : RegHit) (v mask : W64) (e : Env) : State :=
  let old := s.reg h.base
  let new := h.row.written old v mask
  let v := v &&& mask
  match h.row.region with
  | .core =>
    -- an Off core takes no write (R101)
    if (s.core h.owner).power = 0 then s
    else (s.actCore h (match h.row.off with
      | 0x8008 => (s.show_ h &&& ~~~mask) ||| v
      | 0x8100 => (s.show_ h &&& ~~~mask) ||| v
      | _ => v)).getD ((s.setReg h.base new).withdrawals h.owner (h.base - coreBase h.owner) old new)
  | .stack => (s.actStack h new v e).getD (s.setReg h.base new)
  | .package => (s.actPkg h new v e).getD (s.setReg h.base new)

/-! ### Halves (R9) -/

/-- The requester's held and captured halves, but for the low half or capture that the access at a completes. -/
def dropHalves (s : State) (req : Requester) (keep : Option (Nat × Bool)) : State :=
  { s with halves := s.halves.filter fun x => x.1 ≠ req || (match keep with
      | some (a, cap) => x.2.1 == a && x.2.2.1 == cap
      | none => false) }

/-- The half a requester holds or has captured of a register. -/
def half (s : State) (req : Requester) (a : Nat) (captured : Bool) : Option W32 :=
  (s.halves.find? fun x => x.1 == req && x.2.1 == a && x.2.2.1 == captured).map (·.2.2.2)

/-- A half held or captured. -/
def putHalf (s : State) (req : Requester) (a : Nat) (captured : Bool) (v : W32) : State :=
  { s with halves := s.halves ++ [(req, a, captured, v)] }

/-! ### Byte buffers of the package block (R447, R495, R496, R517, R526) -/

/-- The byte buffers: first offset, bytes, whether writable, whether readable. -/
def buffers : List (Nat × Nat × Bool × Bool) :=
  [(0x31000, 0x2000, false, true), (0x70020, 32, true, true), (0x70040, 32, true, true), (0x70100, 256, false, true),
   (0x70200, 480, false, true), (0x70800, 2048, false, true), (0x71000, 4096, true, false), (0x80020, 32, false, true),
   (0x80100, 176, true, true), (0x200000, 0x200000, false, true)]

def bufferOf (off n : Nat) : Option (Nat × Nat × Bool × Bool) := buffers.find? fun b => decide (b.1 ≤ off) && decide (off + n ≤ b.1 + b.2.1)

/-- The window of a selected vault controller (R478). -/
abbrev BRG_VCWIN : Nat := 0x21000

/-- The VC_ register that BRG_VCWIN (R478) presents at an address, as a register of that place. -/
def vcHit (a : Nat) : Option RegHit :=
  let b := pA BRG_VCWIN
  if b ≤ a ∧ a < b + 0x400 then
    (findReg (vA 0 VC_STATUS + (a - b))).map fun h => { h with base := b + (h.base - vA 0 VC_STATUS) }
  else none

/-- A VC_ register of a controller that serves no logical vault, by physical vault and offset in the per-stack block (R269,
R478). -/
def spareView (s : State) (p off : Nat) : W64 :=
  let v := smGet (regDefault (vA 0 off)) s.spareRegs (p * 0x100000 + off)
  if off = VC_STATUS then
    putBits (putBits v 26 16 (p / 72 * 128 + p % 72 / 9 * 16 + p % 9)) 0 0 (if (smGet Vault.reset s.spareVaults p).haulDown then 1 else 0)
  else if off = VC_SPARES then putBits (putBits v 29 16 (s.sparesOf p).1) 9 0 (s.sparesOf p).2
  else v

/-- What BRG_VCWIN shows at an offset of the window: the register of the controller that BRG_VCSEL selects, zero where it selects
none. -/
def vcValue (s : State) (off : Nat) : W64 :=
  let t := s.fld (pA BRG_VCSEL) 10 7
  let x := s.fld (pA BRG_VCSEL) 6 0
  if 72 ≤ x then 0
  else match (List.range 64).find? fun j => s.physOf (t * 64 + j) % 128 = x / 9 * 16 + x % 9 with
    | some j => ((findReg (vA (t * 64 + j) (VC_STATUS + off))).map fun h => s.show_ h).getD 0
    | none => s.spareView (t * 72 + x) (VC_STATUS + off)

/-- What the package block's byte areas hold at an offset. -/
def bufferBytes (s : State) (off n : Nat) : List Byte :=
  if 0x180000 ≤ off ∧ off < 0x200000 then s.mramLast.bytesAt (off - 0x180000) n
  else match bufferOf off n with
    | some b => if b.2.2.2 then s.bytes (pA off) n else List.replicate n 0
    | none => List.replicate n 0

/-! ### Writes and reads -/

/-- How an access meets a register: 1 whole, 2 low half, 3 high half, 0 not at all (R9, R10). -/
def accessKind (h : RegHit) (a size : Nat) : Nat :=
  if h.row.wide then
    if size = 8 ∧ a = h.base then 1 else if size = 4 ∧ a = h.base then 2 else if size = 4 ∧ a = h.base + 4 then 3 else 0
  else if size = 4 ∧ a = h.base then 1 else 0

/-- A write at a register address: none where it sets a reserved field (R12). -/
def writeReg (s : State) (req : Requester) (a size : Nat) (value : W64) (e : Env := Env.none) : Option State :=
  match regionOf a with
  | none => some (s.dropHalves req none)
  | some (rg, owner, off) =>
    match findReg a with
    | none =>
      let s := s.dropHalves req none
      if rg = .package ∧ s.mayWrite req rg owner off then
        match bufferOf off size with
        | some b => some (if b.2.2.1 then s.setBytes a (leBytes size value.toNat) else s)
        | none => some s
      else some s
    | some h =>
      let off := h.base - rg.base owner
      match accessKind h a size with
      | 0 => some (s.dropHalves req none)
      | k =>
        let v := if k = 3 then value <<< 32 else if size = 4 then value &&& 0xFFFFFFFF else value
        let mask : W64 := if k = 3 then 0xFFFFFFFF00000000 else if k = 2 ∨ !h.row.wide then 0xFFFFFFFF else ~~~0
        let held := s.half req h.base false
        let s := s.dropHalves req none
        if !s.mayWrite req rg owner off then some s
        else if h.row.reservedSet v mask then none
        else if k = 2 then some (s.putHalf req h.base false (v.setWidth 32))
        else match k, held with
          | 3, some lo => some (s.act h (v ||| lo.setWidth 64) (~~~0) e)
          | _, _ => some (s.act h v mask e)

/-- RC fields cleared by a read. -/
def clearRead (s : State) (h : RegHit) : State :=
  let m := h.row.fields.foldl (fun (m : W64) f =>
    if f.acc = .rc then m ||| BitVec.ofNat 64 ((2 ^ (f.hi - f.lo + 1) - 1) * 2 ^ f.lo) else m) 0
  if m = 0 then s else s.setReg h.base (s.reg h.base &&& ~~~m)

/-- The register a read meets: of BRG_VCWIN, the one it presents there. -/
def readHit (a : Nat) : Option RegHit := (findReg a).or (vcHit a)

/-- What a read of it returns. -/
def hitValue (s : State) (h : RegHit) : W64 :=
  h.row.readable (if (findReg h.base).isSome then s.show_ h else s.vcValue (h.base - pA BRG_VCWIN))

/-- A read at a register address. -/
def readReg (s : State) (req : Requester) (a size : Nat) : State × W64 :=
  match regionOf a with
  | none => (s.dropHalves req none, 0)
  | some (rg, owner, off) =>
    match readHit a with
    | none =>
      let s := s.dropHalves req none
      if rg = .package ∧ s.mayRead req rg owner off then (s, BitVec.ofNat 64 (ofLeBytes (s.bufferBytes off size)))
      else (s, 0)
    | some h =>
      let off := h.base - rg.base owner
      match accessKind h a size with
      | 0 => (s.dropHalves req none, 0)
      | k =>
        let cap := s.half req h.base true
        let s := s.dropHalves req none
        if !s.mayRead req rg owner off then (s, 0)
        else
          let v := s.hitValue h
          match k, cap with
          | 2, _ => (s.putHalf req h.base true ((v >>> 32).setWidth 32), v &&& 0xFFFFFFFF)
          | 3, some hi => (s, hi.setWidth 64)
          | 3, none => (s, v >>> 32)
          | _, _ => (s.clearRead h, v)

/-- The outcome of a register write: the fault of R12, or the next state. -/
def written (o : Option State) : Host.Outcome State Fault Refusal :=
  match o with
  | some s => .next s
  | none => .fault .reservedFieldWritten

/-- A step of an island other than the warden's: nothing while they stand stopped (R441, R491, R508). -/
def onIslands (s : State) (f : State → State) : State := if s.warden.stopped = 0 then f s else s
/-- A step of the warden. -/
def onWarden (s : State) (f : State → State) : State := if s.warden.stopped = 2 then s else f s

/-- Whether the island that holds the register at an address runs: the warden's the package block, the cores and base dies
theirs. -/
def regRuns (s : State) (a : Nat) : Bool :=
  s.warden.stopped = 0 || (s.warden.stopped = 1 && (match regionOf a with
    | some (.package, _, _) => true
    | _ => false))

/-- Whether the host's accesses are served now: the warden has booted, the function is in D0 and the module neither rests
nor wakes (R407). -/
def hostOpen (s : State) : Bool :=
  s.warden.booted && !s.warden.pins.perst && s.warden.stopped ≠ 2 && !s.host.d3hot && s.host.restPhase ≠ 1 && s.host.restPhase ≠ 3

/-- Whether the PCI Express function answers at all. -/
def linkUp (s : State) : Bool := s.warden.booted && !s.warden.pins.perst && s.warden.stopped ≠ 2

/-- A host access is a trigger of R407 where it finds the module at rest. -/
def hostWakes (s : State) : State := if s.hostOpen then s else s.trigger

/-- A write of the host kept until it can be performed (R403, R407); one that arrives in Rest wakes the module. -/
def post (s : State) (w : PostedWrite) : State := s.hostWakes.modHost fun h => { h with posted := h.posted ++ [w] }

/-- A completion returned. -/
def completed (s : State) (tag : Nat) (status : Cpl) (ep : Bool) (data : List Byte) : State :=
  s.modHost fun h => { h with completions := h.completions ++ [⟨tag, data, ep, status⟩] }

/-- A read that waits, since it meets an address (R402); one that arrives in Rest wakes the module (R407). -/
def holdRead (s : State) (tag a : Nat) : State :=
  s.hostWakes.modHost fun h => { h with holds := if h.holds.any (·.1 == tag) then h.holds else h.holds ++ [(tag, a)] }

/-- A read of the host that cannot be made now: Unsupported in D3hot, else held (R407). -/
def readLater (s : State) (tag a : Nat) : State :=
  if !s.linkUp then s else if s.host.d3hot then s.completed tag .unsupported false [] else s.holdRead tag a

/-- Whether a requester's register access is made now. -/
def accessible (s : State) (req : Requester) (a : Nat) : Bool := s.regRuns a && (req ≠ .host || s.hostOpen)

/-- A register write as a command; the host's is held where it cannot be made yet (R407). -/
def command (s : State) (req : Requester) (a size : Nat) (value : W64) (e : Env := Env.none) :
    Host.Outcome State Fault Refusal :=
  if s.accessible req a then State.written (s.writeReg req a size value e)
  else if req = .host ∧ s.linkUp ∧ !s.host.d3hot then .next (s.post ⟨none, a, leBytes size value.toNat, false, e⟩)
  else .next s

/-- A value with GO, bit 31. -/
def go (v : W32) : W64 := (v ||| 0x80000000).setWidth 64

end State

end Sys2Proof.Machine
end

