-- ==== Sys2Proof/Machine/Operands.lean ====
section
/-! DEFINITION. The operand forms of the control core's instructions (R105 to R107, R118, R124), their checks, and its data
accesses (R109 to R111). -/

namespace Sys2Proof.Machine

/-- A 16-bit immediate, sign-extended and zero-extended. -/
def sext (imm : W16) : W64 := imm.signExtend 64
def zext (imm : W16) : W64 := imm.setWidth 64

/-- A condition as a result. -/
def truth (b : Bool) : W64 := if b then 1 else 0

namespace State

/-! ### Forms -/

/-- An instruction whose word is `w`: an illegal form traps with cause 1 (R106). -/
def form (s : State) (c : Nat) (legal : Bool) (w : W32) (f : State → State) : State :=
  s.instr c fun s => if legal then f s else s.trap c 1 (w.setWidth 64)

/-- A privileged instruction in user mode traps with cause 2 (R123). -/
def priv (s : State) (c : Nat) (w : W32) (f : State → State) : State :=
  if s.privileged c then f s else s.trap c 2 (w.setWidth 64)

/-- A result written, the instruction completed. -/
def result (s : State) (c : Nat) (rd : BitVec 5) (v : W64) : State := (s.setGpr c rd v).retire c

/-- An ALU operation of two registers. -/
def alu (s : State) (c : Nat) (rd ra rb : BitVec 5) (f : W64 → W64 → W64) : State :=
  s.instr c fun s => s.result c rd (f (s.gpr c ra) (s.gpr c rb))

/-- An ALU operation of one register: rb is zero. -/
def alu1 (s : State) (c : Nat) (rd ra rb : BitVec 5) (fn : Nat) (f : W64 → W64) : State :=
  s.form c (rb == 0) (wordA 0 rd ra rb fn) fun s => s.result c rd (f (s.gpr c ra))

/-- An operation of a register and an immediate. -/
def aluI (s : State) (c : Nat) (rd ra : BitVec 5) (f : W64 → W64) : State :=
  s.instr c fun s => s.result c rd (f (s.gpr c ra))

/-- The address n words of 4 bytes from pc. -/
def jumpTo (pc : Addr) (off : W16) : Addr := pc + off.signExtend 46 * 4

/-- A branch (R107). -/
def branch (s : State) (c : Nat) (ra rb : BitVec 5) (off : W16) (p : W64 → W64 → Bool) : State :=
  s.instr c fun s =>
    if p (s.gpr c ra) (s.gpr c rb) then s.retireTo c (jumpTo (s.core c).pc off) else s.retire c

/-- A token operation (R118): imm [11:4] zero, rd or ra zero where unused. -/
def tok (s : State) (c sub : Nat) (rd ra : BitVec 5) (mid : Byte) (t : BitVec 4) (useRd useRa : Bool) (f : State → State) :
    State :=
  s.form c (mid == 0 && (useRd || rd == 0) && (useRa || ra == 0)) (wordT sub rd ra mid t) f

/-- A system operation (R124): rd, ra and rb zero. -/
def sys (s : State) (c : Nat) (rd ra rb : BitVec 5) (fn : Nat) (f : State → State) : State :=
  s.form c (rd == 0 && ra == 0 && rb == 0) (wordA 1 rd ra rb fn) f

end State

/-! ### Data addresses (R109) -/

/-- What a load or store address reaches: a scratchpad offset, a register, or nothing. -/
inductive Reach where
  | sp (off : Nat)
  | reg (a : Nat)
  | nothing
  deriving DecidableEq, Repr

/-- The ranges of R109 for core c. -/
def reach (c : Nat) (v : W64) : Reach :=
  let a := v.toNat
  if spBase c ≤ a ∧ a < spBase c + 0x200000 then .sp (a % 0x200000)
  else if 0x3E8000000000 ≤ a ∧ a < 0x3E8000200000 then .sp (a % 0x200000)
  else if coreBase c ≤ a ∧ a < coreBase c + 0x10000 then .reg a
  else if 0x3F8000000000 ≤ a ∧ a < 0x3F8000010000 then .reg (coreBase c + a % 0x10000)
  else if stackBase (c / 64) ≤ a ∧ a < stackBase (c / 64) + 0x100000 then .reg a
  else .nothing

/-- n bytes of data as a register holds them. -/
def loaded (n : Nat) (signed : Bool) (v : Nat) : W64 :=
  if signed then (BitVec.ofNat (8 * n) v).signExtend 64 else BitVec.ofNat 64 v

namespace State

/-- A load of n bytes (R109 to R111): address, privilege, alignment, pitch and poison, in this order. -/
def load (s : State) (c : Nat) (rd ra : BitVec 5) (imm : W16) (ups : List Upset) (op n : Nat) (signed : Bool) : State :=
  s.instr c fun s =>
    let s := s.upsets ups
    let a := s.gpr c ra + sext imm
    match reach c a with
    | .nothing => s.trap c 5 a
    | .reg r => s.priv c (wordI op rd ra imm) fun s =>
      if a.toNat % n ≠ 0 then s.trap c 4 a
      else
        let got := s.readReg (.core (BitVec.ofNat 10 c)) r n
        let s := got.1
        let v := got.2
        s.result c rd (loaded n signed v.toNat)
    | .sp off =>
      if a.toNat % n ≠ 0 then s.trap c 4 a
      else if !s.pitchOk c 0 off n false then (s.pitchFail c 0 off false 0).trap c 6 a
      else s.amid ⟨c, false, 0, [(spBase c + off, n)], [], none⟩ (collisionsOf ups) fun s =>
        let got := s.readSp c off n
        if anyPoison got.2 then got.1.trap c 7 a else got.1.result c rd (loaded n signed (ofLeBytes (dataOf got.2)))

/-- A store of n bytes into the scratchpad. -/
def storeSp (s : State) (c off n : Nat) (a v : W64) (ups : List Upset) : State :=
  if a.toNat % n ≠ 0 then s.trap c 4 a
  else if !s.pitchOk c 0 off n true then (s.pitchFail c 0 off true 0).trap c 6 a
  else s.amid ⟨c, false, 0, [], [(spBase c + off, n)], none⟩ (collisionsOf ups) fun s =>
    let got := s.writeSp c off (plain (leBytes n v.toNat))
    if got.2 then got.1.trap c 7 a else (got.1.storedOver c (spBase c + off) n).retire c

/-- A store of n bytes: none where it sets a reserved field of a register (R12). -/
def store (s : State) (c : Nat) (rd ra : BitVec 5) (imm : W16) (ups : List Upset) (op n : Nat) : Option State :=
  let a := s.gpr c ra + sext imm
  let v := s.gpr c rd
  match reach c a with
  | .reg r =>
    if !s.fetching c ∨ (fetchAddr c (s.core c).pc).isNone ∨ !s.privileged c ∨ a.toNat % n ≠ 0 then
      some (s.instr c fun s => s.priv c (wordI op rd ra imm) fun s => s.trap c 4 a)
    else ((s.upsets ups).writeReg (.core (BitVec.ofNat 10 c)) r n v).map fun s => s.retire c
  | .nothing => some (s.instr c fun s => s.trap c 5 a)
  | .sp off => some (s.instr c fun s => (s.upsets ups).storeSp c off n a v ups)

end State

end Sys2Proof.Machine
end

