-- ==== Sys2Proof/Machine/Access.lean ====
section
/-! DEFINITION. Loads and stores of the control core (R107, R109 to R112). -/

namespace Sys2Proof.Machine

/-- lb: 1 byte, sign-extended. -/
def execLb (c : CoreId) (rd ra : BitVec 5) (imm : W16) (ups : List Upset) (s : State) : Host.Outcome State Fault Refusal :=
  .next (s.load c.toNat rd ra imm ups 0x10 1 true)
/-- lbu: 1 byte. -/
def execLbu (c : CoreId) (rd ra : BitVec 5) (imm : W16) (ups : List Upset) (s : State) : Host.Outcome State Fault Refusal :=
  .next (s.load c.toNat rd ra imm ups 0x11 1 false)
/-- lh: 2 bytes, sign-extended. -/
def execLh (c : CoreId) (rd ra : BitVec 5) (imm : W16) (ups : List Upset) (s : State) : Host.Outcome State Fault Refusal :=
  .next (s.load c.toNat rd ra imm ups 0x12 2 true)
/-- lhu: 2 bytes. -/
def execLhu (c : CoreId) (rd ra : BitVec 5) (imm : W16) (ups : List Upset) (s : State) : Host.Outcome State Fault Refusal :=
  .next (s.load c.toNat rd ra imm ups 0x13 2 false)
/-- lw: 4 bytes, sign-extended. -/
def execLw (c : CoreId) (rd ra : BitVec 5) (imm : W16) (ups : List Upset) (s : State) : Host.Outcome State Fault Refusal :=
  .next (s.load c.toNat rd ra imm ups 0x14 4 true)
/-- lwu: 4 bytes. -/
def execLwu (c : CoreId) (rd ra : BitVec 5) (imm : W16) (ups : List Upset) (s : State) : Host.Outcome State Fault Refusal :=
  .next (s.load c.toNat rd ra imm ups 0x15 4 false)
/-- ld: 8 bytes. -/
def execLd (c : CoreId) (rd ra : BitVec 5) (imm : W16) (ups : List Upset) (s : State) : Host.Outcome State Fault Refusal :=
  .next (s.load c.toNat rd ra imm ups 0x16 8 false)
/-- sb: the low 1 byte of rd. -/
def execSb (c : CoreId) (rd ra : BitVec 5) (imm : W16) (ups : List Upset) (s : State) : Host.Outcome State Fault Refusal :=
  State.written (s.store c.toNat rd ra imm ups 0x18 1)
/-- sh: the low 2 bytes of rd. -/
def execSh (c : CoreId) (rd ra : BitVec 5) (imm : W16) (ups : List Upset) (s : State) : Host.Outcome State Fault Refusal :=
  State.written (s.store c.toNat rd ra imm ups 0x19 2)
/-- sw: the low 4 bytes of rd. -/
def execSw (c : CoreId) (rd ra : BitVec 5) (imm : W16) (ups : List Upset) (s : State) : Host.Outcome State Fault Refusal :=
  State.written (s.store c.toNat rd ra imm ups 0x1a 4)
/-- sd: the low 8 bytes of rd. -/
def execSd (c : CoreId) (rd ra : BitVec 5) (imm : W16) (ups : List Upset) (s : State) : Host.Outcome State Fault Refusal :=
  State.written (s.store c.toNat rd ra imm ups 0x1b 8)

end Sys2Proof.Machine
end

