-- ==== Sys2Proof/Machine/Alu.lean ====
section
/-! DEFINITION. The arithmetic of the control core: ALU operations (R108) and immediate forms (R107). -/

namespace Sys2Proof.Machine

/-- Leading zeros. -/
def countLeading (a : W64) : Nat := ((List.range 64).find? fun i => a.getLsbD (63 - i)).getD 64
/-- Trailing zeros. -/
def countTrailing (a : W64) : Nat := ((List.range 64).find? fun i => a.getLsbD i).getD 64
/-- Set bits. -/
def countOnes (a : W64) : Nat := ((List.range 64).filter fun i => a.getLsbD i).length

/-- High half of the signed and of the unsigned product. -/
def mulHigh (a b : W64) : W64 := ((a.signExtend 128 * b.signExtend 128) >>> 64).setWidth 64
def mulHighU (a b : W64) : W64 := ((a.setWidth 128 * b.setWidth 128) >>> 64).setWidth 64

/-- Division (R108): by zero every bit set, and −2⁶³ by −1 is −2⁶³. -/
def divS (a b : W64) : W64 := if b = 0 then ~~~0 else a.sdiv b
def divU (a b : W64) : W64 := if b = 0 then ~~~0 else a.udiv b
/-- Remainder: by zero the dividend. -/
def remS (a b : W64) : W64 := if b = 0 then a else a.srem b
def remU (a b : W64) : W64 := if b = 0 then a else a.umod b

/-- Shifts by [5:0] of a register. -/
def shiftCount (b : W64) : Nat := b.toNat % 64

/-- shi (R107): imm [7:6] selects the shift, 3 is illegal; imm [15:8] zero. -/
def shiftImm (imm : W16) (a : W64) : W64 :=
  let n := imm.toNat % 64
  match imm.toNat / 64 % 4 with
  | 0 => a <<< n
  | 1 => a >>> n
  | _ => a.sshiftRight n

/-- add (R108). -/
def execAdd (c : CoreId) (rd ra rb : BitVec 5) (s : State) : Host.Outcome State Fault Refusal :=
  .next (s.alu c.toNat rd ra rb fun a b => a + b)
/-- sub (R108). -/
def execSub (c : CoreId) (rd ra rb : BitVec 5) (s : State) : Host.Outcome State Fault Refusal :=
  .next (s.alu c.toNat rd ra rb fun a b => a - b)
/-- and (R108). -/
def execAnd (c : CoreId) (rd ra rb : BitVec 5) (s : State) : Host.Outcome State Fault Refusal :=
  .next (s.alu c.toNat rd ra rb fun a b => a &&& b)
/-- or (R108). -/
def execOr (c : CoreId) (rd ra rb : BitVec 5) (s : State) : Host.Outcome State Fault Refusal :=
  .next (s.alu c.toNat rd ra rb fun a b => a ||| b)
/-- xor (R108). -/
def execXor (c : CoreId) (rd ra rb : BitVec 5) (s : State) : Host.Outcome State Fault Refusal :=
  .next (s.alu c.toNat rd ra rb fun a b => a ^^^ b)
/-- sll (R108). -/
def execSll (c : CoreId) (rd ra rb : BitVec 5) (s : State) : Host.Outcome State Fault Refusal :=
  .next (s.alu c.toNat rd ra rb fun a b => a <<< shiftCount b)
/-- srl (R108). -/
def execSrl (c : CoreId) (rd ra rb : BitVec 5) (s : State) : Host.Outcome State Fault Refusal :=
  .next (s.alu c.toNat rd ra rb fun a b => a >>> shiftCount b)
/-- sra (R108). -/
def execSra (c : CoreId) (rd ra rb : BitVec 5) (s : State) : Host.Outcome State Fault Refusal :=
  .next (s.alu c.toNat rd ra rb fun a b => a.sshiftRight (shiftCount b))
/-- slt (R108). -/
def execSlt (c : CoreId) (rd ra rb : BitVec 5) (s : State) : Host.Outcome State Fault Refusal :=
  .next (s.alu c.toNat rd ra rb fun a b => truth (a.slt b))
/-- sltu (R108). -/
def execSltu (c : CoreId) (rd ra rb : BitVec 5) (s : State) : Host.Outcome State Fault Refusal :=
  .next (s.alu c.toNat rd ra rb fun a b => truth (a.ult b))
/-- min (R108). -/
def execMin (c : CoreId) (rd ra rb : BitVec 5) (s : State) : Host.Outcome State Fault Refusal :=
  .next (s.alu c.toNat rd ra rb fun a b => if a.slt b then a else b)
/-- max (R108). -/
def execMax (c : CoreId) (rd ra rb : BitVec 5) (s : State) : Host.Outcome State Fault Refusal :=
  .next (s.alu c.toNat rd ra rb fun a b => if a.slt b then b else a)
/-- minu (R108). -/
def execMinu (c : CoreId) (rd ra rb : BitVec 5) (s : State) : Host.Outcome State Fault Refusal :=
  .next (s.alu c.toNat rd ra rb fun a b => if a.ult b then a else b)
/-- maxu (R108). -/
def execMaxu (c : CoreId) (rd ra rb : BitVec 5) (s : State) : Host.Outcome State Fault Refusal :=
  .next (s.alu c.toNat rd ra rb fun a b => if a.ult b then b else a)
/-- mul (R108). -/
def execMul (c : CoreId) (rd ra rb : BitVec 5) (s : State) : Host.Outcome State Fault Refusal :=
  .next (s.alu c.toNat rd ra rb fun a b => a * b)
/-- mulh (R108). -/
def execMulh (c : CoreId) (rd ra rb : BitVec 5) (s : State) : Host.Outcome State Fault Refusal :=
  .next (s.alu c.toNat rd ra rb fun a b => mulHigh a b)
/-- mulhu (R108). -/
def execMulhu (c : CoreId) (rd ra rb : BitVec 5) (s : State) : Host.Outcome State Fault Refusal :=
  .next (s.alu c.toNat rd ra rb fun a b => mulHighU a b)
/-- div (R108). -/
def execDiv (c : CoreId) (rd ra rb : BitVec 5) (s : State) : Host.Outcome State Fault Refusal :=
  .next (s.alu c.toNat rd ra rb fun a b => divS a b)
/-- divu (R108). -/
def execDivu (c : CoreId) (rd ra rb : BitVec 5) (s : State) : Host.Outcome State Fault Refusal :=
  .next (s.alu c.toNat rd ra rb fun a b => divU a b)
/-- rem (R108). -/
def execRem (c : CoreId) (rd ra rb : BitVec 5) (s : State) : Host.Outcome State Fault Refusal :=
  .next (s.alu c.toNat rd ra rb fun a b => remS a b)
/-- remu (R108). -/
def execRemu (c : CoreId) (rd ra rb : BitVec 5) (s : State) : Host.Outcome State Fault Refusal :=
  .next (s.alu c.toNat rd ra rb fun a b => remU a b)
/-- clz (R108): rb zero. -/
def execClz (c : CoreId) (rd ra rb : BitVec 5) (s : State) : Host.Outcome State Fault Refusal :=
  .next (s.alu1 c.toNat rd ra rb 0x30 fun a => BitVec.ofNat 64 (countLeading a))
/-- ctz (R108): rb zero. -/
def execCtz (c : CoreId) (rd ra rb : BitVec 5) (s : State) : Host.Outcome State Fault Refusal :=
  .next (s.alu1 c.toNat rd ra rb 0x31 fun a => BitVec.ofNat 64 (countTrailing a))
/-- popc (R108): rb zero. -/
def execPopc (c : CoreId) (rd ra rb : BitVec 5) (s : State) : Host.Outcome State Fault Refusal :=
  .next (s.alu1 c.toNat rd ra rb 0x32 fun a => BitVec.ofNat 64 (countOnes a))
/-- addi (R107). -/
def execAddi (c : CoreId) (rd ra : BitVec 5) (imm : W16) (s : State) : Host.Outcome State Fault Refusal :=
  .next (s.aluI c.toNat rd ra fun a => a + sext imm)
/-- andi (R107). -/
def execAndi (c : CoreId) (rd ra : BitVec 5) (imm : W16) (s : State) : Host.Outcome State Fault Refusal :=
  .next (s.aluI c.toNat rd ra fun a => a &&& sext imm)
/-- ori (R107). -/
def execOri (c : CoreId) (rd ra : BitVec 5) (imm : W16) (s : State) : Host.Outcome State Fault Refusal :=
  .next (s.aluI c.toNat rd ra fun a => a ||| zext imm)
/-- xori (R107). -/
def execXori (c : CoreId) (rd ra : BitVec 5) (imm : W16) (s : State) : Host.Outcome State Fault Refusal :=
  .next (s.aluI c.toNat rd ra fun a => a ^^^ zext imm)
/-- slti (R107). -/
def execSlti (c : CoreId) (rd ra : BitVec 5) (imm : W16) (s : State) : Host.Outcome State Fault Refusal :=
  .next (s.aluI c.toNat rd ra fun a => truth (a.slt (sext imm)))
/-- sltiu (R107). -/
def execSltiu (c : CoreId) (rd ra : BitVec 5) (imm : W16) (s : State) : Host.Outcome State Fault Refusal :=
  .next (s.aluI c.toNat rd ra fun a => truth (a.ult (sext imm)))
/-- shori (R107). -/
def execShori (c : CoreId) (rd ra : BitVec 5) (imm : W16) (s : State) : Host.Outcome State Fault Refusal :=
  .next (s.aluI c.toNat rd ra fun a => (a <<< 16) ||| zext imm)
/-- shi (R107). -/
def execShi (c : CoreId) (rd ra : BitVec 5) (imm : W16) (s : State) : Host.Outcome State Fault Refusal :=
  .next (s.form c.toNat (decide (imm.toNat < 0xC0)) (wordI 0x0E rd ra imm) fun s =>
    s.result c.toNat rd (shiftImm imm (s.gpr c.toNat ra)))
/-- lui (R107): ra zero. -/
def execLui (c : CoreId) (rd ra : BitVec 5) (imm : W16) (s : State) : Host.Outcome State Fault Refusal :=
  .next (s.form c.toNat (ra == 0) (wordI 0x0F rd ra imm) fun s => s.result c.toNat rd (sext imm <<< 16))

end Sys2Proof.Machine
end

