-- ==== Sys2Proof/Machine/Bring.lean ====
section
/-! DEFINITION. Bring-up, repair and reset (R450 to R478). -/

namespace Sys2Proof.Machine

/-- BRG_COMMAND with GO: its step and whether a full one is asked for (R453). -/
def brgGo (n : Nat) (full : Bool) : W64 := BitVec.ofNat 64 (0x80000000 + n + if full then 0x100 else 0)

/-- PACKAGE_RESET (R450). -/
def execPackageReset (s : State) : Host.Outcome State Fault Refusal :=
  .next (s.packageReset)

/-- CLOCKS (R454): BRG_COMMAND with STEP 1 and GO. -/
def execClocks (req : Requester) (full : Bool) (t : TestResults) (s : State) : Host.Outcome State Fault Refusal :=
  s.command req (pA BRG_COMMAND) 4 (brgGo 1 full) { Env.none with tests := t }

/-- MEMORY (R456). -/
def execMemory (req : Requester) (full : Bool) (t : TestResults) (s : State) : Host.Outcome State Fault Refusal :=
  s.command req (pA BRG_COMMAND) 4 (brgGo 2 full) { Env.none with tests := t }

/-- LINKS (R454). -/
def execLinks (req : Requester) (full : Bool) (t : TestResults) (s : State) : Host.Outcome State Fault Refusal :=
  s.command req (pA BRG_COMMAND) 4 (brgGo 3 full) { Env.none with tests := t }

/-- CORES (R464). -/
def execCores (req : Requester) (full : Bool) (t : TestResults) (s : State) : Host.Outcome State Fault Refusal :=
  s.command req (pA BRG_COMMAND) 4 (brgGo 4 full) { Env.none with tests := t }

/-- SERVICE (R454). -/
def execService (req : Requester) (full : Bool) (s : State) : Host.Outcome State Fault Refusal :=
  s.command req (pA BRG_COMMAND) 4 (brgGo 5 full)

/-- BRINGUP_STEP_END (R453). -/
def execBringupStepEnd (elapsed : W16) (s : State) : Host.Outcome State Fault Refusal :=
  .next (s.onWarden fun s => s.stepEnd elapsed)

/-- CORE_RESET (R472): BRG_RESET with SCOPE 0 and GO. -/
def execCoreReset (req : Requester) (target : CoreId) (hold : Bool) (s : State) : Host.Outcome State Fault Refusal :=
  s.command req (pA BRG_RESET) 4 (0x80000000 + (if hold then 0x20000000 else 0) + target.setWidth 64)

/-- CORE_RESET_RELEASE (R472). -/
def execCoreResetRelease (req : Requester) (s : State) : Host.Outcome State Fault Refusal :=
  s.command req (pA BRG_RESET) 4 ((s.pReg BRG_RESET &&& 0x2300FFFF) ||| 0x10000000)

/-- STACK_RESET (R474): SCOPE 1. -/
def execStackReset (req : Requester) (st : StackId) (s : State) : Host.Outcome State Fault Refusal :=
  s.command req (pA BRG_RESET) 4 (0x81000000 + st.setWidth 64)

/-- PARTITION_RESET (R476): SCOPE 2. -/
def execPartitionReset (req : Requester) (mask : W16) (s : State) : Host.Outcome State Fault Refusal :=
  s.command req (pA BRG_RESET) 4 (0x82000000 + mask.setWidth 64)

/-- RESET_END (R474). -/
def execResetEnd (portsUp : Retrained) (s : State) : Host.Outcome State Fault Refusal :=
  .next (s.onIslands fun s => s.resetEnd portsUp)

/-- RETIRED_CURRENT_CHECK (R468). -/
def execRetiredCurrentCheck (st : StackId) (phys : Nat) (above : Bool) (s : State) : Host.Outcome State Fault Refusal :=
  .next (s.onIslands fun s => s.retiredCurrent st.toNat phys above)

/-- REPAIR_RECORD_WRITE (R461). -/
def execRepairRecordWrite (s : State) : Host.Outcome State Fault Refusal :=
  .next (s.onWarden fun s => s.repairRecordWrite)

/-- WARDEN_BOOT (R451). -/
def execWardenBoot (b : BootFinds) (s : State) : Host.Outcome State Fault Refusal :=
  .next (s.wardenBoot b)

end Sys2Proof.Machine
end

