-- ==== Sys2Proof/Machine/Bulk.lean ====
section
/-! DEFINITION. Bulk instructions at issue (R79, R105, R106, R117, R129 to R132, R143, R166, R167): each with the checks of
its words. -/

namespace Sys2Proof

/-! ### Forms -/

/-- Unit flags within a mask; FWD is allowed on every opcode (R131). -/
def BulkWord.flagsIn (w : BulkWord) (m : BitVec 4) : Bool := w.flags &&& ~~~(m ||| 8) == 0
/-- Op-specific bits within a mask. -/
def BulkWord.opIn (w : BulkWord) (m : BitVec 20) : Bool := w.op &&& ~~~m == 0
/-- BMODE (R154). -/
def BulkWord.bmode (w : BulkWord) : Nat := w.flags.toNat % 4
/-- Op-specific [19:16]. -/
def BulkWord.c (w : BulkWord) : Nat := w.op.toNat / 65536

/-- The engine queue that ENG names (R143). -/
def BulkWord.engineQueue (w : BulkWord) : Nat := w.flags.toNat % 2

/-- With GLOBAL clear, DEVICE is zero (R181). -/
def BulkWord.deviceOk (w : BulkWord) : Bool := w.flags.getLsbD 2 || w.op &&& 0x3FFF == 0

end Sys2Proof

namespace Sys2Proof.Machine

def sldForm (mode : Byte) (w : BulkWord) : Bool := w.flagsIn 1 && mode == 0 && w.b == 0 && w.d == 0 && w.op == 0
def mmaForm (mode : Byte) (w : BulkWord) : Bool := mode == 0 && w.b == 0 && w.d == 0 && w.opIn 0x1FF
def ardForm (mode : Byte) (w : BulkWord) : Bool := w.flagsIn 3 && mode == 0 && w.b == 0 && w.op == 0
/-- VOP (R154): a function of one operand takes B, C and BMODE zero; C serves fma and sel; BMODE 3 takes B zero. -/
def vopForm (mode : Nat) (w : BulkWord) : Bool :=
  w.flagsIn 3 && w.opIn 0xF0000 && (vopTernary mode || w.c == 0) &&
    (if vopBinary mode then w.bmode ≠ 3 || w.b == 0 else w.b == 0 && w.bmode == 0)
def vredForm (w : BulkWord) : Bool := w.flagsIn 0 && w.b == 0 && w.op == 0
def cvtForm (mode : Byte) (w : BulkWord) : Bool := w.flagsIn 0 && mode &&& 0x1F == 0 && w.b == 0 && w.op == 0
/-- SMS (R158): FIRST takes B zero. -/
def smsForm (mode : Byte) (w : BulkWord) : Bool :=
  w.flagsIn 0 && mode &&& 0xFC == 0 && (!mode.getLsbD 1 || w.b == 0) && w.opIn 0xF0000
/-- TOPK (R160): B and C zero unless MERGE. -/
def topkForm (mode : Byte) (w : BulkWord) : Bool :=
  w.flagsIn 0 && mode &&& 0xFC == 0 && w.opIn 0xFF07F && (mode.getLsbD 1 || (w.b == 0 && w.c == 0))
/-- HMOV and SMOV (R172, R176). -/
def moveForm (mode : Byte) (w : BulkWord) : Bool := w.flagsIn 0 && mode == 0 && w.b == 0 && w.op == 0
/-- NSEND and NRECV (R177): RED 3 traps. -/
def nsendForm (mode : Byte) (w : BulkWord) : Bool :=
  w.flagsIn 0 && decide (mode.toNat < 3) && w.b == 0 && w.d == 0 && w.opIn 0xFFFFC
def nrecvForm (mode : Byte) (w : BulkWord) : Bool :=
  w.flagsIn 0 && decide (mode.toNat < 3) && w.a == 0 && w.b == 0 && w.opIn 0x0FFFC
def remoteForm (mode : Byte) (w : BulkWord) : Bool := w.flagsIn 4 && mode == 0 && w.b == 0 && w.opIn 0x3FFF && w.deviceOk
/-- RACC and RMRG (R185): mode is GEN, op-specific [19:14] CONTRIB. -/
def contribForm (w : BulkWord) : Bool := w.flagsIn 4 && w.b == 0 && w.deviceOk
def tsigForm (mode : Byte) (w : BulkWord) : Bool :=
  w.flagsIn 0 && mode == 0 && w.a == 0 && w.b == 0 && w.d == 0 && w.opIn 0xF
/-- NBD (R191): B serves RESULT. -/
def nbdForm (mode : Byte) (w : BulkWord) : Bool := w.flagsIn 2 && mode == 0 && w.op == 0 && (w.flags.getLsbD 1 || w.b == 0)
def uddForm (mode : Byte) (w : BulkWord) : Bool := w.flagsIn 0 && mode == 0 && w.b == 0 && w.d == 0 && w.op == 0

/-! ### Instructions -/

/-- SLD (R144). -/
def execSld (c : CoreId) (mode : Byte) (w : BulkWord) (s : State) : Host.Outcome State Fault Refusal :=
  .next (s.issue c.toNat 0x01 w.engineQueue mode w (sldForm mode w))
/-- MMA (R147). -/
def execMma (c : CoreId) (mode : Byte) (w : BulkWord) (s : State) : Host.Outcome State Fault Refusal :=
  .next (s.issue c.toNat 0x02 w.engineQueue mode w (mmaForm mode w))
/-- ARD (R150). -/
def execArd (c : CoreId) (mode : Byte) (w : BulkWord) (s : State) : Host.Outcome State Fault Refusal :=
  .next (s.issue c.toNat 0x03 w.engineQueue mode w (ardForm mode w))
/-- VOP copy (R154). -/
def execVopCopy (c : CoreId) (w : BulkWord) (s : State) : Host.Outcome State Fault Refusal :=
  .next (s.issue c.toNat 0x08 2 0x0 w (vopForm 0x0 w))
/-- VOP add (R154). -/
def execVopAdd (c : CoreId) (w : BulkWord) (s : State) : Host.Outcome State Fault Refusal :=
  .next (s.issue c.toNat 0x08 2 0x1 w (vopForm 0x1 w))
/-- VOP sub (R154). -/
def execVopSub (c : CoreId) (w : BulkWord) (s : State) : Host.Outcome State Fault Refusal :=
  .next (s.issue c.toNat 0x08 2 0x2 w (vopForm 0x2 w))
/-- VOP mul (R154). -/
def execVopMul (c : CoreId) (w : BulkWord) (s : State) : Host.Outcome State Fault Refusal :=
  .next (s.issue c.toNat 0x08 2 0x3 w (vopForm 0x3 w))
/-- VOP max (R154). -/
def execVopMax (c : CoreId) (w : BulkWord) (s : State) : Host.Outcome State Fault Refusal :=
  .next (s.issue c.toNat 0x08 2 0x4 w (vopForm 0x4 w))
/-- VOP min (R154). -/
def execVopMin (c : CoreId) (w : BulkWord) (s : State) : Host.Outcome State Fault Refusal :=
  .next (s.issue c.toNat 0x08 2 0x5 w (vopForm 0x5 w))
/-- VOP fma (R154). -/
def execVopFma (c : CoreId) (w : BulkWord) (s : State) : Host.Outcome State Fault Refusal :=
  .next (s.issue c.toNat 0x08 2 0x6 w (vopForm 0x6 w))
/-- VOP cmplt (R154). -/
def execVopCmplt (c : CoreId) (w : BulkWord) (s : State) : Host.Outcome State Fault Refusal :=
  .next (s.issue c.toNat 0x08 2 0x8 w (vopForm 0x8 w))
/-- VOP cmple (R154). -/
def execVopCmple (c : CoreId) (w : BulkWord) (s : State) : Host.Outcome State Fault Refusal :=
  .next (s.issue c.toNat 0x08 2 0x9 w (vopForm 0x9 w))
/-- VOP cmpeq (R154). -/
def execVopCmpeq (c : CoreId) (w : BulkWord) (s : State) : Host.Outcome State Fault Refusal :=
  .next (s.issue c.toNat 0x08 2 0xa w (vopForm 0xa w))
/-- VOP sel (R154). -/
def execVopSel (c : CoreId) (w : BulkWord) (s : State) : Host.Outcome State Fault Refusal :=
  .next (s.issue c.toNat 0x08 2 0xb w (vopForm 0xb w))
/-- VOP div (R154). -/
def execVopDiv (c : CoreId) (w : BulkWord) (s : State) : Host.Outcome State Fault Refusal :=
  .next (s.issue c.toNat 0x08 2 0x10 w (vopForm 0x10 w))
/-- VOP sqrt (R154). -/
def execVopSqrt (c : CoreId) (w : BulkWord) (s : State) : Host.Outcome State Fault Refusal :=
  .next (s.issue c.toNat 0x08 2 0x11 w (vopForm 0x11 w))
/-- VOP exp2 (R154). -/
def execVopExp2 (c : CoreId) (w : BulkWord) (s : State) : Host.Outcome State Fault Refusal :=
  .next (s.issue c.toNat 0x08 2 0x12 w (vopForm 0x12 w))
/-- VOP log2 (R154). -/
def execVopLog2 (c : CoreId) (w : BulkWord) (s : State) : Host.Outcome State Fault Refusal :=
  .next (s.issue c.toNat 0x08 2 0x13 w (vopForm 0x13 w))
/-- VOP rcp (R154). -/
def execVopRcp (c : CoreId) (w : BulkWord) (s : State) : Host.Outcome State Fault Refusal :=
  .next (s.issue c.toNat 0x08 2 0x14 w (vopForm 0x14 w))
/-- VOP rsqrt (R154). -/
def execVopRsqrt (c : CoreId) (w : BulkWord) (s : State) : Host.Outcome State Fault Refusal :=
  .next (s.issue c.toNat 0x08 2 0x15 w (vopForm 0x15 w))
/-- VOP exp (R154). -/
def execVopExp (c : CoreId) (w : BulkWord) (s : State) : Host.Outcome State Fault Refusal :=
  .next (s.issue c.toNat 0x08 2 0x16 w (vopForm 0x16 w))
/-- VOP abs (R154). -/
def execVopAbs (c : CoreId) (w : BulkWord) (s : State) : Host.Outcome State Fault Refusal :=
  .next (s.issue c.toNat 0x08 2 0x18 w (vopForm 0x18 w))
/-- VOP neg (R154). -/
def execVopNeg (c : CoreId) (w : BulkWord) (s : State) : Host.Outcome State Fault Refusal :=
  .next (s.issue c.toNat 0x08 2 0x19 w (vopForm 0x19 w))
/-- VRED sum (R156). -/
def execVredSum (c : CoreId) (w : BulkWord) (s : State) : Host.Outcome State Fault Refusal :=
  .next (s.issue c.toNat 0x09 2 0x0 w (vredForm w))
/-- VRED max (R156). -/
def execVredMax (c : CoreId) (w : BulkWord) (s : State) : Host.Outcome State Fault Refusal :=
  .next (s.issue c.toNat 0x09 2 0x1 w (vredForm w))
/-- VRED min (R156). -/
def execVredMin (c : CoreId) (w : BulkWord) (s : State) : Host.Outcome State Fault Refusal :=
  .next (s.issue c.toNat 0x09 2 0x2 w (vredForm w))
/-- VRED sumsq (R156). -/
def execVredSumsq (c : CoreId) (w : BulkWord) (s : State) : Host.Outcome State Fault Refusal :=
  .next (s.issue c.toNat 0x09 2 0x3 w (vredForm w))
/-- VRED absmax (R156). -/
def execVredAbsmax (c : CoreId) (w : BulkWord) (s : State) : Host.Outcome State Fault Refusal :=
  .next (s.issue c.toNat 0x09 2 0x4 w (vredForm w))
/-- CVT (R157). -/
def execCvt (c : CoreId) (mode : Byte) (w : BulkWord) (s : State) : Host.Outcome State Fault Refusal :=
  .next (s.issue c.toNat 0x0A 2 mode w (cvtForm mode w))
/-- SMS (R158). -/
def execSms (c : CoreId) (mode : Byte) (w : BulkWord) (s : State) : Host.Outcome State Fault Refusal :=
  .next (s.issue c.toNat 0x0B 2 mode w (smsForm mode w))
/-- TOPK (R160). -/
def execTopk (c : CoreId) (mode : Byte) (w : BulkWord) (s : State) : Host.Outcome State Fault Refusal :=
  .next (s.issue c.toNat 0x0C 2 mode w (topkForm mode w))
/-- HMOV (R172). -/
def execHmov (c : CoreId) (mode : Byte) (w : BulkWord) (s : State) : Host.Outcome State Fault Refusal :=
  .next (s.issue c.toNat 0x20 3 mode w (moveForm mode w))
/-- SMOV (R176). -/
def execSmov (c : CoreId) (mode : Byte) (w : BulkWord) (s : State) : Host.Outcome State Fault Refusal :=
  .next (s.issue c.toNat 0x21 3 mode w (moveForm mode w))
/-- NSEND (R177). -/
def execNsend (c : CoreId) (mode : Byte) (w : BulkWord) (s : State) : Host.Outcome State Fault Refusal :=
  .next (s.issue c.toNat 0x24 4 mode w (nsendForm mode w))
/-- NRECV (R177). -/
def execNrecv (c : CoreId) (mode : Byte) (w : BulkWord) (s : State) : Host.Outcome State Fault Refusal :=
  .next (s.issue c.toNat 0x25 4 mode w (nrecvForm mode w))
/-- RWR (R181). -/
def execRwr (c : CoreId) (mode : Byte) (w : BulkWord) (s : State) : Host.Outcome State Fault Refusal :=
  .next (s.issue c.toNat 0x28 4 mode w (remoteForm mode w))
/-- RRD (R181). -/
def execRrd (c : CoreId) (mode : Byte) (w : BulkWord) (s : State) : Host.Outcome State Fault Refusal :=
  .next (s.issue c.toNat 0x29 4 mode w (remoteForm mode w))
/-- RACC (R181, R185). -/
def execRacc (c : CoreId) (mode : Byte) (w : BulkWord) (s : State) : Host.Outcome State Fault Refusal :=
  .next (s.issue c.toNat 0x2A 4 mode w (contribForm w))
/-- RMRG (R181, R185). -/
def execRmrg (c : CoreId) (mode : Byte) (w : BulkWord) (s : State) : Host.Outcome State Fault Refusal :=
  .next (s.issue c.toNat 0x2B 4 mode w (contribForm w))
/-- TSIG (R190). -/
def execTsig (c : CoreId) (mode : Byte) (w : BulkWord) (s : State) : Host.Outcome State Fault Refusal :=
  .next (s.issue c.toNat 0x30 4 mode w (tsigForm mode w))
/-- NBD (R191). -/
def execNbd (c : CoreId) (mode : Byte) (w : BulkWord) (s : State) : Host.Outcome State Fault Refusal :=
  .next (s.issue c.toNat 0x34 5 mode w (nbdForm mode w))
/-- UDD (R192). -/
def execUdd (c : CoreId) (mode : Byte) (w : BulkWord) (s : State) : Host.Outcome State Fault Refusal :=
  .next (s.issue c.toNat 0x38 6 mode w (uddForm mode w))

end Sys2Proof.Machine
end

