-- ==== Sys2Proof/Machine/Control.lean ====
section
/-! DEFINITION. Branches, jumps, system instructions, interrupt entry and instruction fetch of the control core (R107, R113,
R114, R123 to R127). -/

namespace Sys2Proof.Machine

/-- beq (R107). -/
def execBeq (c : CoreId) (ra rb : BitVec 5) (off : W16) (s : State) : Host.Outcome State Fault Refusal :=
  .next (s.branch c.toNat ra rb off fun a b => a == b)
/-- bne (R107). -/
def execBne (c : CoreId) (ra rb : BitVec 5) (off : W16) (s : State) : Host.Outcome State Fault Refusal :=
  .next (s.branch c.toNat ra rb off fun a b => a != b)
/-- blt (R107). -/
def execBlt (c : CoreId) (ra rb : BitVec 5) (off : W16) (s : State) : Host.Outcome State Fault Refusal :=
  .next (s.branch c.toNat ra rb off fun a b => a.slt b)
/-- bge (R107). -/
def execBge (c : CoreId) (ra rb : BitVec 5) (off : W16) (s : State) : Host.Outcome State Fault Refusal :=
  .next (s.branch c.toNat ra rb off fun a b => !a.slt b)
/-- bltu (R107). -/
def execBltu (c : CoreId) (ra rb : BitVec 5) (off : W16) (s : State) : Host.Outcome State Fault Refusal :=
  .next (s.branch c.toNat ra rb off fun a b => a.ult b)
/-- bgeu (R107). -/
def execBgeu (c : CoreId) (ra rb : BitVec 5) (off : W16) (s : State) : Host.Outcome State Fault Refusal :=
  .next (s.branch c.toNat ra rb off fun a b => !a.ult b)

/-- jal (R107): ra zero. -/
def execJal (c : CoreId) (rd ra : BitVec 5) (imm : W16) (s : State) : Host.Outcome State Fault Refusal :=
  .next (s.form c.toNat (ra == 0) (wordI 0x26 rd ra imm) fun s =>
    let pc := (s.core c.toNat).pc
    (s.setGpr c.toNat rd ((pc + 4).setWidth 64)).retireTo c.toNat (State.jumpTo pc imm))

/-- jalr (R107): a target off its alignment traps with cause 3. -/
def execJalr (c : CoreId) (rd ra : BitVec 5) (imm : W16) (s : State) : Host.Outcome State Fault Refusal :=
  .next (s.instr c.toNat fun s =>
    let t := s.gpr c.toNat ra + sext imm
    if t.toNat % 4 ≠ 0 then s.trap c.toNat 3 t
    else (s.setGpr c.toNat rd (((s.core c.toNat).pc + 4).setWidth 64)).retireTo c.toNat (t.setWidth 46))

/-- eret (R124): MODE, IE and pc restored, TRAP clear; privileged. DESIGN CHOICE (log entry 99): its form is checked before
the privilege. -/
def execEret (c : CoreId) (rd ra rb : BitVec 5) (s : State) : Host.Outcome State Fault Refusal :=
  .next (s.sys c.toNat rd ra rb 0 fun s => s.priv c.toNat (wordA 1 rd ra rb 0) fun s =>
    let k := s.core c.toNat
    (s.modCore c.toNat fun k => { k with status := eretStatus k.status }).retireTo c.toNat (k.tpc.setWidth 46))

/-- ecall (R124): cause 10. -/
def execEcall (c : CoreId) (rd ra rb : BitVec 5) (s : State) : Host.Outcome State Fault Refusal :=
  .next (s.sys c.toNat rd ra rb 1 fun s => s.trap c.toNat 10 0)

/-- brk (R124): cause 9. -/
def execBrk (c : CoreId) (rd ra rb : BitVec 5) (s : State) : Host.Outcome State Fault Refusal :=
  .next (s.sys c.toNat rd ra rb 2 fun s => s.trap c.toNat 9 0)

/-- fence (R124): stalls while an operation of the program has not settled. -/
def execFence (c : CoreId) (rd ra rb : BitVec 5) (s : State) : Host.Outcome State Fault Refusal :=
  .next (s.sys c.toNat rd ra rb 3 fun s =>
    if (s.core c.toNat).tally.all (fun e => e.unit) then s.retire c.toNat else s)

/-- ifence (R124): the instruction cache invalidated. -/
def execIfence (c : CoreId) (rd ra rb : BitVec 5) (s : State) : Host.Outcome State Fault Refusal :=
  .next (s.sys c.toNat rd ra rb 4 fun s => (s.modCore c.toNat fun k => { k with icache := [] }).retire c.toNat)

/-- wfi (R124): stalls until a source of the core's controller is pending. -/
def execWfi (c : CoreId) (rd ra rb : BitVec 5) (s : State) : Host.Outcome State Fault Refusal :=
  .next (s.sys c.toNat rd ra rb 5 fun s => if s.icAnyPending c.toNat then s.retire c.toNat else s)

/-- halt (R124): stalls until the tally is empty, then the core's part in the launch ends (R399). -/
def execHalt (c : CoreId) (rd ra rb : BitVec 5) (s : State) : Host.Outcome State Fault Refusal :=
  .next (s.sys c.toNat rd ra rb 6 fun s =>
    if (s.core c.toNat).tally.isEmpty then (s.retire c.toNat).modCore c.toNat fun k => { k with run := .idle } else s)

/-- An interrupt taken between instructions (R126, R415): cause 1 with bit 63, value 0. -/
def execInterruptEntry (c : CoreId) (s : State) : Host.Outcome State Fault Refusal :=
  .next (if s.fetching c.toNat && s.intEnabled c.toNat && s.icPresents c.toNat then s.enterTrap c.toNat 0x8000000000000001 0 else s)

/-! ### The instruction cache (R113, R114) -/

/-- The set of a line of 64 bytes: 32 KiB in four ways. -/
def icacheSet (line : Nat) : Nat := line / 64 % 128

/-- A cache with a line put in: where its set is full one way, which the manual does not name, is displaced. -/
def fillLine (c fills : Nat) (cache : List (Nat × List Byte)) (line : Nat) (bs : List Byte) : List (Nat × List Byte) :=
  let ways := cache.filter fun x => icacheSet x.1 = icacheSet line
  if ways.length < 4 then cache ++ [(line, bs)]
  else
    let v := (ways.getD (Config.icacheVictim c (icacheSet line) fills % 4) (line, [])).1
    (cache.filter fun x => x.1 ≠ v) ++ [(line, bs)]

/-- The line of pc fetched from scratchpad or vault, and what is done with it: nothing where the vault does not serve it now. -/
def State.fetchLine (s : State) (c line : Nat) (ups : List Upset) (f : State → List PByte → State) : State :=
  if spBase c ≤ line then
    let got := s.amidRead ⟨c, false, 0, [(line, 64)], [], none⟩ (collisionsOf ups) fun s => s.readSp c (line - spBase c) 64
    f got.1 got.2
  else if (s.vault c).haulDown then s
  else s.whenFree (.fetch c) false [(line, 64)] fun s =>
    let got := (s.haulTurn c false).readFast line 64
    f got.1 got.2

/-- A miss at pc, or a cached line whose parity is wrong: its line fetched; poison, like a pc outside the fetched memories, traps
with cause 3 (R113). -/
def execIcacheMissFill (c : CoreId) (ups : List Upset) (s : State) : Host.Outcome State Fault Refusal :=
  let c := c.toNat
  let pc := (s.core c).pc
  .next (s.instr c fun s =>
    match fetchAddr c pc with
    | none => s
    | some a =>
      let line := a / 64 * 64
      -- a parity error invalidates the line, which is fetched again (R275)
      let s := s.upsets ups
      if (s.core c).icache.any fun x => x.1 = line then s
      else s.fetchLine c line ups fun s ps =>
        if anyPoison ps then s.trap c 3 (pc.setWidth 64)
        else s.modCore c fun k => { k with icache := fillLine c k.fills k.icache line (dataOf ps), fills := k.fills + 1 })

end Sys2Proof.Machine
end

