-- ==== Sys2Proof/Machine/Crier.lean ====
section
/-! DEFINITION. Messages of the crier network that arrive (R119, R208, R210, R211, R240, R242, R243, R373, R413, R525). -/

namespace Sys2Proof.Machine

/-- TOKEN_INCREMENT (R119). -/
def execTokenIncrement (i : Nat) (s : State) : Host.Outcome State Fault Refusal :=
  .next (s.onIslands fun s => s.tokenIncrement i)

/-- INTERRUPT_TO_WARDEN (R413). -/
def execInterruptToWarden (i : Nat) (s : State) : Host.Outcome State Fault Refusal :=
  .next (s.onWarden fun s => s.interruptToWarden i)

/-- SETTLE_NOTICE (R208). -/
def execSettleNotice (i : Nat) (s : State) : Host.Outcome State Fault Refusal :=
  .next (s.onIslands fun s => s.settleNotice i)

/-- FAULT_NOTICE (R525). -/
def execFaultNotice (i : Nat) (s : State) : Host.Outcome State Fault Refusal :=
  .next (s.onWarden fun s => s.faultNotice i)

/-- MAP_UPDATE (R240). -/
def execMapUpdate (i : Nat) (s : State) : Host.Outcome State Fault Refusal :=
  .next (s.onIslands fun s => s.mapUpdate i)

/-- RESET_ENDED (R210). -/
def execResetEnded (i : Nat) (s : State) : Host.Outcome State Fault Refusal :=
  .next (s.onIslands fun s => s.resetEnded i)

/-- REDUCTION_RESTART (R211). -/
def execReductionRestart (i : Nat) (s : State) : Host.Outcome State Fault Refusal :=
  .next (s.onIslands fun s => s.reductionRestart i)

/-- BRINGUP_COMMAND (R242). -/
def execBringupCommand (i : Nat) (s : State) : Host.Outcome State Fault Refusal :=
  .next (s.onIslands fun s => s.bringupCommand i)

/-- BILO_RELAY (R373). -/
def execBiloRelay (i : Nat) (s : State) : Host.Outcome State Fault Refusal :=
  .next (s.onIslands fun s => s.biloRelay i)

end Sys2Proof.Machine
end

