-- ==== Sys2Proof/Machine/Special.lean ====
section
/-! DEFINITION. State registers (R115, R116, R142), tile descriptors (R117) and token instructions (R118 to R121) of the control core. -/

namespace Sys2Proof.Machine

/-- The state registers of R115 and R142: whether privileged. -/
def stateRegs : List (Nat × Bool) :=
  [(0x000, true), (0x001, true), (0x002, true), (0x003, true), (0x004, true), (0x005, true), (0x006, true), (0x008, false),
   (0x009, false), (0x00A, false), (0x010, false), (0x100, false), (0x101, false), (0x102, false), (0x103, false)]

/-- A state register is privileged, is not, or does not exist. -/
def stateReg (n : Nat) : Option Bool := (stateRegs.find? fun r => r.1 = n).map (·.2)

/-- What a state register reads as. -/
def State.stateValue (s : State) (c n : Nat) : W64 :=
  let k := s.core c
  match n with
  | 0x000 => k.status
  | 0x001 => k.cause
  | 0x002 => k.tpc
  | 0x003 => k.tval
  | 0x004 => k.tvec
  | 0x005 => k.scratch0
  | 0x006 => k.scratch1
  | 0x008 => s.reg (cA c CORE_CYCLES)
  | 0x009 => k.retired
  | 0x00A => BitVec.ofNat 64 c
  | 0x010 => BitVec.ofNat 64 (512 - k.tally.length)
  | 0x100 => k.seed
  | 0x101 => k.stepNo.setWidth 64
  | 0x102 => k.idxBase.setWidth 64
  | _ => k.vscalar.setWidth 64

/-- The bits of a state register that may be set; none for one that is read-only (R115, R116, R142). -/
def stateWritable (n : Nat) : Option W64 :=
  match n with
  | 0x000 => some 0x1F
  | 0x001 => some 0x80000000000000FF
  | 0x002 | 0x003 | 0x004 | 0x005 | 0x006 | 0x100 => some 0xFFFFFFFFFFFFFFFF
  | 0x101 | 0x102 | 0x103 => some 0xFFFFFFFF
  | _ => none

/-- A core with a state register written; TRAP_VECTOR [1:0] as zero. -/
def Core.setState (k : Core) (n : Nat) (v : W64) : Core :=
  match n with
  | 0x000 => { k with status := v }
  | 0x001 => { k with cause := v }
  | 0x002 => { k with tpc := v }
  | 0x003 => { k with tval := v }
  | 0x004 => { k with tvec := v &&& ~~~3 }
  | 0x005 => { k with scratch0 := v }
  | 0x006 => { k with scratch1 := v }
  | 0x100 => { k with seed := v }
  | 0x101 => { k with stepNo := v.setWidth 32 }
  | 0x102 => { k with idxBase := v.setWidth 32 }
  | 0x103 => { k with vscalar := v.setWidth 32 }
  | _ => k

/-- mfs (R115, R116): ra and imm [15:12] zero. -/
def execMfs (c : CoreId) (rd ra : BitVec 5) (imm : W16) (s : State) : Host.Outcome State Fault Refusal :=
  let w := wordI 0x2C rd ra imm
  .next (s.form c.toNat (ra == 0 && (stateReg imm.toNat).isSome) w fun s =>
    if stateReg imm.toNat = some true ∧ !s.privileged c.toNat then s.trap c.toNat 2 (w.setWidth 64)
    else s.result c.toNat rd (s.stateValue c.toNat imm.toNat))

/-- mts (R115, R116, R142): rd and imm [15:12] zero; a value in a field marked zero traps with cause 1. -/
def execMts (c : CoreId) (rd ra : BitVec 5) (imm : W16) (s : State) : Host.Outcome State Fault Refusal :=
  let w := wordI 0x2D rd ra imm
  .next (s.form c.toNat (rd == 0 && (stateWritable imm.toNat).isSome) w fun s =>
    let v := s.gpr c.toNat ra
    if stateReg imm.toNat = some true ∧ !s.privileged c.toNat then s.trap c.toNat 2 (w.setWidth 64)
    else if v &&& ~~~((stateWritable imm.toNat).getD 0) ≠ 0 then s.trap c.toNat 1 (w.setWidth 64)
    else (s.modCore c.toNat fun k => k.setState imm.toNat v).retire c.toNat)

/-- tdw (R117): rd and imm [15:6] zero. -/
def execTdw (c : CoreId) (rd ra : BitVec 5) (imm : W16) (s : State) : Host.Outcome State Fault Refusal :=
  .next (s.form c.toNat (rd == 0 && decide (imm.toNat < 64)) (wordI 0x2E rd ra imm) fun s =>
    (s.modCore c.toNat fun k => { k with td := smSet 0 k.td imm.toNat (s.gpr c.toNat ra) }).retire c.toNat)

/-- tdr (R117): ra and imm [15:6] zero. -/
def execTdr (c : CoreId) (rd ra : BitVec 5) (imm : W16) (s : State) : Host.Outcome State Fault Refusal :=
  .next (s.form c.toNat (ra == 0 && decide (imm.toNat < 64)) (wordI 0x2F rd ra imm) fun s =>
    s.result c.toNat rd (smGet 0 (s.core c.toNat).td imm.toNat))

/-- tinc (R118, R120): at 255 a trap of cause 8, and nothing changes. -/
def execTinc (c : CoreId) (rd ra : BitVec 5) (mid : Byte) (t : BitVec 4) (s : State) : Host.Outcome State Fault Refusal :=
  .next (s.tok c.toNat 0 rd ra mid t false false fun s =>
    if s.token c.toNat t.toNat = 255 then s.trap c.toNat 8 (t.setWidth 64)
    else (s.setToken c.toNat t.toNat (s.token c.toNat t.toNat + 1)).retire c.toNat)

/-- twait (R118): stalls, counted, while the counter is zero; token 0 does not stall. -/
def execTwait (c : CoreId) (rd ra : BitVec 5) (mid : Byte) (t : BitVec 4) (s : State) : Host.Outcome State Fault Refusal :=
  .next (s.tok c.toNat 1 rd ra mid t false false fun s =>
    if t ≠ 0 ∧ s.token c.toNat t.toNat = 0 then s.count (cA c.toNat CORE_ISSUE_STALL)
    else (s.decToken c.toNat t.toNat).retire c.toNat)

/-- ttry (R118). -/
def execTtry (c : CoreId) (rd ra : BitVec 5) (mid : Byte) (t : BitVec 4) (s : State) : Host.Outcome State Fault Refusal :=
  .next (s.tok c.toNat 2 rd ra mid t true false fun s =>
    if s.token c.toNat t.toNat = 0 then s.result c.toNat rd 0 else (s.decToken c.toNat t.toNat).result c.toNat rd 1)

/-- tread (R118). -/
def execTread (c : CoreId) (rd ra : BitVec 5) (mid : Byte) (t : BitVec 4) (s : State) : Host.Outcome State Fault Refusal :=
  .next (s.tok c.toNat 3 rd ra mid t true false fun s =>
    s.result c.toNat rd (BitVec.ofNat 64 (s.token c.toNat t.toNat)))

/-- tsend (R118, R121): one increment to logical core ra [9:0]; token 0 sends nothing. -/
def execTsend (c : CoreId) (rd ra : BitVec 5) (mid : Byte) (t : BitVec 4) (s : State) : Host.Outcome State Fault Refusal :=
  .next (s.tok c.toNat 4 rd ra mid t false true fun s =>
    (if t = 0 then s else s.sendToken c.toNat ((s.gpr c.toNat ra).toNat % 1024) t.toNat).retire c.toNat)

/-- tset (R118): privileged; the counter becomes ra [7:0]. DESIGN CHOICE (log entry 99): its form is checked before the
privilege. -/
def execTset (c : CoreId) (rd ra : BitVec 5) (mid : Byte) (t : BitVec 4) (s : State) : Host.Outcome State Fault Refusal :=
  .next (s.tok c.toNat 5 rd ra mid t false true fun s => s.priv c.toNat (wordT 5 rd ra mid t) fun s =>
    (s.setToken c.toNat t.toNat ((s.gpr c.toNat ra).toNat % 256)).retire c.toNat)

end Sys2Proof.Machine
end

