-- ==== Sys2Proof/Machine/Window.lean ====
section
/-! DEFINITION. Accesses by the host window and by debug to device addresses (R95, R286, R295, R305, R392 to R394, R402, R403,
R452, R465): what they read and write, what holds them, and what becomes of those no region takes. -/

namespace Sys2Proof.Machine

/-- What an access reads: its bytes with their poison, whether the completion is marked EP, whether a pitch refused it. -/
structure Read where
  bytes : List PByte
  ep : Bool
  refused : Bool
  deriving DecidableEq, Repr

/-- A read that returns zeros. -/
def Read.zeros (n : Nat) (ep : Bool := false) : Read := ⟨List.replicate n (0, false), ep, false⟩
/-- A read that returns what was read. -/
def Read.of (ps : List PByte) : Read := ⟨ps, anyPoison ps, false⟩

/-- What a write comes to: held, a reserved field set (R12), or a next state and whether a pitch refused it. -/
inductive Wrote where
  | held
  | reserved
  | done (s : State) (refused : Bool)

namespace State

/-- The master of host and debug accesses (R76). -/
def masterOf (req : Requester) : Nat := if req = .debug then 6 else 5

/-- Whether the region of an address is in service for host and debug (R452). -/
def inServiceAt (s : State) (a : Nat) : Bool :=
  let done := s.fld (pA BRG_STATUS) 27 25
  let up := s.bit (pA BRG_STATUS) 31 && !s.bit (pA SEC_STATUS) 6
  match classify a with
  | .fast _ | .slow _ | .nbWindow => up && decide (2 ≤ done)
  | .sp _ _ => up && decide (4 ≤ done)
  | .register => (match regionOf a with
    | some (rg, _, off) => s.regionUp rg off
    | none => false)
  | .nothing => false

/-- An access that no region in service takes (R394): counted for the host. -/
def unmapped (s : State) (req : Requester) : State :=
  if req = .host then (s.addSat (pA HIF_UNMAPPED) 31 0 1).setBit (pA HIF_STATUS) 12 true else s

/-- An access to the near-bank window that is neither a command nor a record read (R295). -/
def nbBad (s : State) (c : Nat) : State := s.addSat (vA c NB_BAD) 31 0 1

/-- The logical core whose vault an address of the near-bank window aliases. -/
def nbCore (a : Nat) : Nat := vaultOf (a - 0x100000000000)

/-- Whether a core under reset, or its stack, holds host accesses to its vault and scratchpad (R402, R472, R474). -/
def resetHolds (s : State) (c : Nat) : Bool := (s.stack (c / 64)).fence || (s.core c).resetting

/-- Register reads of any length: a register, or bytes of the package block's buffers. -/
def readBytes (s : State) (req : Requester) (a n : Nat) : State × List Byte :=
  if n ≤ 8 then
    let got := s.readReg req a n
    let s := got.1
    let v := got.2
    (s, leBytes n v.toNat)
  else
    let s := s.dropHalves req none
    match regionOf a, findReg a with
    | some (.package, o, off), none =>
      (s, if s.mayRead req .package o off then s.bufferBytes off n else List.replicate n 0)
    | _, _ => (s, List.replicate n 0)

/-- A read or write of scratchpad bytes by host or debug, each bank word of it under the pitches (R84, R95): a word that none
covers reads as zero and is not written. DESIGN CHOICE (log entry 121): it is one failure, of its first such byte. -/
def readOutside (s : State) (m c off n : Nat) (ups : List Upset) : State × Read :=
  let parts := (wordParts off n).map fun p => (p, s.pitchOk c m p.1 p.2 false)
  let spans := (parts.filter (·.2)).map fun p => (spBase c + p.1.1, p.1.2)
  let got := s.amidRead ⟨c, false, 0, spans, [], none⟩ (collisionsOf ups) fun s => parts.foldl (fun (acc : State × List PByte) p =>
    if p.2 then
      let got := acc.1.readSp c p.1.1 p.1.2
      (got.1, acc.2 ++ got.2)
    else (acc.1, acc.2 ++ List.replicate p.1.2 (0, false))) (s, [])
  match s.pitchGap c m off n false with
  | none => (got.1, Read.of got.2)
  | some gap => (got.1.pitchFail c m gap false 0, { Read.of got.2 with refused := true })

def writeOutside (s : State) (m c off : Nat) (ps : List PByte) (ups : List Upset) : Wrote :=
  let parts := (wordParts off ps.length).filter fun p => s.pitchOk c m p.1 p.2 true
  let t := s.amid ⟨c, false, 0, [], parts.map fun p => (spBase c + p.1, p.2), none⟩ (collisionsOf ups) fun s =>
    parts.foldl (fun s p => ((s.writeSp c p.1 ((ps.drop (p.1 - off)).take p.2)).1).overwrite (spBase c + p.1) p.2) s
  match s.pitchGap c m off ps.length true with
  | none => .done t false
  | some gap => .done (t.pitchFail c m gap true 0) true

/-- A held access noted at the vault whose near-bank command it waits for (R305, R313). -/
def noteHeld (s : State) (req : Requester) (a n : Nat) (write : Bool) : State :=
  match classify a with
  | .fast _ => s.noteWait (.outside req) a n write
  | .nbWindow => s.noteBehind (.outside req) (nbCore a) a (s.nbRecordOf (nbCore a) (a - 0x100000000000))
  | _ => s

/-- A read of n bytes by host or debug; none while it is held. Nothing but the warden answers where islands stand stopped. -/
def readAt (s : State) (req : Requester) (a n : Nat) (ups : List Upset := []) : Option (State × Read) :=
  if !s.regRuns a then none
  else if !s.inServiceAt a then some ((if classify a = .register then s.dropHalves req none else s).unmapped req, Read.zeros n)
  else match classify a with
    | .fast c =>
      if s.stackDown (c / 64) ∨ (s.vault c).haulDown then some (s, Read.zeros n true)
      else if s.resetHolds c ∨ s.fastWaits a n false ∨ s.uncommitted a (a + n) then none
      else
        let got := ((s.endWait (.outside req) a).haulTurn c false).readDiag a n
        let s := got.1
        let ps := got.2
        some (s, Read.of ps)
    | .slow t =>
      if s.bit (sA t SLOW_STATUS) 3 then some (s, Read.zeros n true)
      else if (s.stack t).fence ∨ s.bit (sA t SLOW_STATUS) 2 ∨ s.uncommitted a (a + n) then none
      else
        let got := s.readSlow a n
        let s := got.1
        let ps := got.2
        some (s, Read.of ps)
    | .sp c off =>
      if s.stackDown (c / 64) then some (s, Read.zeros n true)
      else if s.resetHolds c ∨ (s.core c).power ≤ 1 ∨ s.uncommitted a (a + n) then none
      else some (s.readOutside (masterOf req) c off n ups)
    | .nbWindow =>
      let c := nbCore a
      if s.stackDown (c / 64) ∨ (s.vault c).haulDown then some (s, Read.zeros n true)
      else if s.resetHolds c then none
      else if n ≠ 64 ∨ a % 512 ≠ 0 then some (s.nbBad c, Read.zeros n)
      else if (s.nbRecordOf c (a - 0x100000000000)).isSome then none
      else some ((s.served (.outside req) c a).haulTurn c false, Read.of (plain (s.nbRecord c (a - 0x100000000000))))
    | .register =>
      let got := s.readBytes req a n
      let s := got.1
      let bs := got.2
      some (s, Read.of (plain bs))
    | .nothing => some (s, Read.zeros n)

/-- A register write of any length: a register, or bytes of the package block's buffers. -/
def writeBytes (s : State) (req : Requester) (a : Nat) (bs : List Byte) (e : Env) : Option State :=
  if bs.length ≤ 8 then s.writeReg req a bs.length (BitVec.ofNat 64 (ofLeBytes bs)) e
  else
    let s := s.dropHalves req none
    match regionOf a, findReg a with
    | some (.package, o, off), none =>
      some (if s.mayWrite req .package o off && (match bufferOf off bs.length with
        | some b => b.2.2.1
        | none => false) then s.setBytes a bs else s)
    | _, _ => some s

/-- A write of bytes by host or debug; `ep` for a write received poisoned (R394). -/
def writeAt (s : State) (req : Requester) (a : Nat) (bs : List Byte) (ep : Bool) (e : Env) : Wrote :=
  let n := bs.length
  let ps : List PByte := bs.map (·, ep)
  if !s.regRuns a then .held
  else if !s.inServiceAt a then .done ((if classify a = .register then s.dropHalves req none else s).unmapped req) false
  else match classify a with
    | .fast c =>
      if s.stackDown (c / 64) ∨ (s.vault c).haulDown then .done s false
      else if s.resetHolds c ∨ s.fastWaits a n true then .held
      else .done (((s.endWait (.outside req) a).haulTurn c true).writeDiag a ps) false
    | .slow t =>
      if s.bit (sA t SLOW_STATUS) 3 then .done s false
      else if (s.stack t).fence ∨ s.bit (sA t SLOW_STATUS) 2 then .held
      else .done (s.writeSlow a ps).1 false
    | .sp c off =>
      if s.stackDown (c / 64) then .done s false
      else if s.resetHolds c ∨ (s.core c).power ≤ 1 then .held
      else s.writeOutside (masterOf req) c off ps e.ups
    | .nbWindow =>
      let c := nbCore a
      if s.stackDown (c / 64) ∨ (s.vault c).haulDown then .done s false
      else if s.resetHolds c then .held
      else if req ≠ .host ∨ n ≠ 64 ∨ a % 512 ≠ 0 ∨ ep then .done (s.nbBad c) false
      else .done ((s.haulTurn c true).modVault c fun v => { v with input := v.input ++ [nbArrived bs a none 0] }) false
    | .register =>
      if ep then .done (s.dropHalves req none) false
      else match s.writeBytes req a bs e with
        | some s => .done s false
        | none => .reserved
    | .nothing => .done s false

end State

end Sys2Proof.Machine
end

