-- ==== Sys2Proof/Machine/Debug.lean ====
section
/-! DEFINITION. Debug (R489, R492, R496): a step of a halted control core and the accesses of DBG_OP; and a register write
with everything it starts. -/

namespace Sys2Proof.Machine

/-- An instruction of a control core, as CDBG_CONTROL.STEP runs it. -/
def runInstr (i : Instr) (st : State) : Host.Outcome State Fault Refusal :=
  match i with
  | .add c rd ra rb => execAdd c rd ra rb st
  | .sub c rd ra rb => execSub c rd ra rb st
  | .and c rd ra rb => execAnd c rd ra rb st
  | .or c rd ra rb => execOr c rd ra rb st
  | .xor c rd ra rb => execXor c rd ra rb st
  | .sll c rd ra rb => execSll c rd ra rb st
  | .srl c rd ra rb => execSrl c rd ra rb st
  | .sra c rd ra rb => execSra c rd ra rb st
  | .slt c rd ra rb => execSlt c rd ra rb st
  | .sltu c rd ra rb => execSltu c rd ra rb st
  | .min c rd ra rb => execMin c rd ra rb st
  | .max c rd ra rb => execMax c rd ra rb st
  | .minu c rd ra rb => execMinu c rd ra rb st
  | .maxu c rd ra rb => execMaxu c rd ra rb st
  | .mul c rd ra rb => execMul c rd ra rb st
  | .mulh c rd ra rb => execMulh c rd ra rb st
  | .mulhu c rd ra rb => execMulhu c rd ra rb st
  | .div c rd ra rb => execDiv c rd ra rb st
  | .divu c rd ra rb => execDivu c rd ra rb st
  | .rem c rd ra rb => execRem c rd ra rb st
  | .remu c rd ra rb => execRemu c rd ra rb st
  | .clz c rd ra rb => execClz c rd ra rb st
  | .ctz c rd ra rb => execCtz c rd ra rb st
  | .popc c rd ra rb => execPopc c rd ra rb st
  | .eret c rd ra rb => execEret c rd ra rb st
  | .ecall c rd ra rb => execEcall c rd ra rb st
  | .brk c rd ra rb => execBrk c rd ra rb st
  | .fence c rd ra rb => execFence c rd ra rb st
  | .ifence c rd ra rb => execIfence c rd ra rb st
  | .wfi c rd ra rb => execWfi c rd ra rb st
  | .halt c rd ra rb => execHalt c rd ra rb st
  | .tinc c rd ra mid t => execTinc c rd ra mid t st
  | .twait c rd ra mid t => execTwait c rd ra mid t st
  | .ttry c rd ra mid t => execTtry c rd ra mid t st
  | .tread c rd ra mid t => execTread c rd ra mid t st
  | .tsend c rd ra mid t => execTsend c rd ra mid t st
  | .tset c rd ra mid t => execTset c rd ra mid t st
  | .shori c rd ra imm => execShori c rd ra imm st
  | .addi c rd ra imm => execAddi c rd ra imm st
  | .andi c rd ra imm => execAndi c rd ra imm st
  | .ori c rd ra imm => execOri c rd ra imm st
  | .xori c rd ra imm => execXori c rd ra imm st
  | .slti c rd ra imm => execSlti c rd ra imm st
  | .sltiu c rd ra imm => execSltiu c rd ra imm st
  | .shi c rd ra imm => execShi c rd ra imm st
  | .lui c rd ra imm => execLui c rd ra imm st
  | .lb c rd ra imm ups => execLb c rd ra imm ups st
  | .lbu c rd ra imm ups => execLbu c rd ra imm ups st
  | .lh c rd ra imm ups => execLh c rd ra imm ups st
  | .lhu c rd ra imm ups => execLhu c rd ra imm ups st
  | .lw c rd ra imm ups => execLw c rd ra imm ups st
  | .lwu c rd ra imm ups => execLwu c rd ra imm ups st
  | .ld c rd ra imm ups => execLd c rd ra imm ups st
  | .sb c rd ra imm ups => execSb c rd ra imm ups st
  | .sh c rd ra imm ups => execSh c rd ra imm ups st
  | .sw c rd ra imm ups => execSw c rd ra imm ups st
  | .sd c rd ra imm ups => execSd c rd ra imm ups st
  | .beq c ra rb off => execBeq c ra rb off st
  | .bne c ra rb off => execBne c ra rb off st
  | .blt c ra rb off => execBlt c ra rb off st
  | .bge c ra rb off => execBge c ra rb off st
  | .bltu c ra rb off => execBltu c ra rb off st
  | .bgeu c ra rb off => execBgeu c ra rb off st
  | .jal c rd ra imm => execJal c rd ra imm st
  | .jalr c rd ra imm => execJalr c rd ra imm st
  | .mfs c rd ra imm => execMfs c rd ra imm st
  | .mts c rd ra imm => execMts c rd ra imm st
  | .tdw c rd ra imm => execTdw c rd ra imm st
  | .tdr c rd ra imm => execTdr c rd ra imm st
  | .vopCopy c w => execVopCopy c w st
  | .vopAdd c w => execVopAdd c w st
  | .vopSub c w => execVopSub c w st
  | .vopMul c w => execVopMul c w st
  | .vopMax c w => execVopMax c w st
  | .vopMin c w => execVopMin c w st
  | .vopFma c w => execVopFma c w st
  | .vopCmplt c w => execVopCmplt c w st
  | .vopCmple c w => execVopCmple c w st
  | .vopCmpeq c w => execVopCmpeq c w st
  | .vopSel c w => execVopSel c w st
  | .vopDiv c w => execVopDiv c w st
  | .vopSqrt c w => execVopSqrt c w st
  | .vopExp2 c w => execVopExp2 c w st
  | .vopLog2 c w => execVopLog2 c w st
  | .vopRcp c w => execVopRcp c w st
  | .vopRsqrt c w => execVopRsqrt c w st
  | .vopExp c w => execVopExp c w st
  | .vopAbs c w => execVopAbs c w st
  | .vopNeg c w => execVopNeg c w st
  | .vredSum c w => execVredSum c w st
  | .vredMax c w => execVredMax c w st
  | .vredMin c w => execVredMin c w st
  | .vredSumsq c w => execVredSumsq c w st
  | .vredAbsmax c w => execVredAbsmax c w st
  | .sld c mode w => execSld c mode w st
  | .mma c mode w => execMma c mode w st
  | .ard c mode w => execArd c mode w st
  | .cvt c mode w => execCvt c mode w st
  | .sms c mode w => execSms c mode w st
  | .topk c mode w => execTopk c mode w st
  | .hmov c mode w => execHmov c mode w st
  | .smov c mode w => execSmov c mode w st
  | .nsend c mode w => execNsend c mode w st
  | .nrecv c mode w => execNrecv c mode w st
  | .rwr c mode w => execRwr c mode w st
  | .rrd c mode w => execRrd c mode w st
  | .racc c mode w => execRacc c mode w st
  | .rmrg c mode w => execRmrg c mode w st
  | .tsig c mode w => execTsig c mode w st
  | .nbd c mode w => execNbd c mode w st
  | .udd c mode w => execUdd c mode w st
  | _ => .next st

/-- An outcome's next state changed. -/
def onNext (o : Host.Outcome State Fault Refusal) (f : State → State) : Host.Outcome State Fault Refusal :=
  match o with
  | .next s => .next (f s)
  | .fault e => .fault e
  | .refused r => .refused r

namespace State

/-! ### The step of a halted core -/

/-- The instruction word at pc in the core's instruction cache. -/
def cachedWord (s : State) (c a : Nat) : Option W32 :=
  ((s.core c).icache.find? fun x => x.1 = a / 64 * 64).map fun x => BitVec.ofNat 32 (ofLeBytes ((x.2.drop (a % 64)).take 4))

/-- The instruction at pc, run: its line fetched where the cache does not hold it; a word that is no instruction traps with
cause 1. -/
def stepNow (s : State) (c : Nat) : Host.Outcome State Fault Refusal :=
  let id : CoreId := BitVec.ofNat 10 c
  match fetchAddr c (s.core c).pc with
  | none => .next (s.instr c fun s => s)
  | some a => match execIcacheMissFill id [] s with
    | .next s => match s.cachedWord c a, s.cachedWord c (a + 4) with
      | some w, w1 =>
        let i := if isBulkWord w then decodeBulk id w (w1.getD 0) else decodeScalar id w
        (match i with
          | some i => runInstr i s
          | none => .next (s.instr c fun s => s.trap c 1 (w.setWidth 64)))
      | none, _ => .next s
    | o => o

/-- CDBG_CONTROL.STEP on a halted core: one instruction, then halted again. -/
def cdbgStep (s : State) (c : Nat) : Host.Outcome State Fault Refusal :=
  if !(s.core c).halted then .next s
  else onNext ((s.cdbgHalt c false).stepNow c) fun s => s.cdbgHalt c true

/-- The core that a register write asks to step: STEP beside HALT, allowed, while halted. -/
def stepAsked (s : State) (req : Requester) (a size : Nat) (v : W64) : Option Nat :=
  match regionOf a with
  | some (.core, c, 0x8000) =>
    if size = 4 ∧ s.mayWrite req .core c 0x8000 ∧ (s.core c).power ≠ 0 ∧ (s.core c).halted ∧ v.getLsbD 0 ∧ v.getLsbD 2 then some c
    else none
  | _ => none

/-- A register write and the step it starts. -/
def writeStep (s : State) (req : Requester) (a size : Nat) (v : W64) (e : Env) : Host.Outcome State Fault Refusal :=
  match State.written (s.writeReg req a size v e) with
  | .next s' => match s.stepAsked req a size v with
    | some c => s'.cdbgStep c
    | none => .next s'
  | o => o

/-! ### DBG_OP (R489, R496) -/

/-- A field of DBG_OP set: BUSY and ERROR. -/
def dbgBusy (s : State) (on : Bool) : State := s.setBit (pA DBG_OP) 30 on
def dbgError (s : State) : State := s.setBit (pA DBG_OP) 29 true

/-- The operation DBG_OP names, on the bytes at DBG_ADDR as master 6: held, BUSY; with a scope too low or refused by a
pitch, ERROR. -/
def dbgRun (s : State) (ups : List Upset) : Host.Outcome State Fault Refusal :=
  let n := 2 ^ s.fld (pA DBG_OP) 1 0
  let write := s.bit (pA DBG_OP) 2
  let a := s.fld (pA DBG_ADDR) 45 0
  let s := (s.dbgBusy false).upsets ups
  if s.scope < (if write then 2 else 1) then .next s.dbgError
  else if write then
    let bs := leBytes n (s.pReg DBG_DATA).toNat
    if classify a = .register && s.inServiceAt a && s.regRuns a then s.writeStep .debug a n (s.pReg DBG_DATA) Env.none
    else match s.writeAt .debug a bs false { Env.none with ups := ups } with
      | .held => .next ((s.noteHeld .debug a n true).dbgBusy true)
      | .reserved => .fault .reservedFieldWritten
      | .done s refused => .next (if refused then s.dbgError else s)
  else match s.readAt .debug a n ups with
    | none => .next ((s.noteHeld .debug a n false).dbgBusy true)
    | some (s, r) =>
      let s := s.setReg (pA DBG_DATA) (BitVec.ofNat 64 (ofLeBytes (dataOf r.bytes)))
      .next (if r.refused then s.dbgError else s)

/-- DBG_OP written with GO: its fields, then the operation. In scope 0 nothing happens. -/
def dbgGo (s : State) (write : Bool) (size : BitVec 2) (ups : List Upset) : Host.Outcome State Fault Refusal :=
  if s.scope = 0 then .next s
  else
    let s := s.setFld (pA DBG_OP) 2 0 ((if write then 4 else 0) + size.toNat)
    s.dbgRun ups

/-- Whether a register write sets DBG_OP.GO. -/
def goAsked (s : State) (req : Requester) (a size : Nat) (v : W64) : Bool :=
  a == pA DBG_OP && size == 4 && s.mayWrite req .package 0 DBG_OP && v.getLsbD 31

/-- A register write and everything it starts. -/
def writeAny (s : State) (req : Requester) (a size : Nat) (v : W64) (e : Env) : Host.Outcome State Fault Refusal :=
  match s.writeStep req a size v e with
  | .next s' => if s.goAsked req a size v then s'.dbgRun e.ups else .next s'
  | o => o

end State

/-! ### Commands -/

/-- DEBUG_READ (R489). -/
def execDebugRead (size : BitVec 2) (ups : List Upset) (s : State) : Host.Outcome State Fault Refusal :=
  if s.warden.stopped = 2 then .next s else s.dbgGo false size ups

/-- DEBUG_WRITE (R489). -/
def execDebugWrite (size : BitVec 2) (ups : List Upset) (s : State) : Host.Outcome State Fault Refusal :=
  if s.warden.stopped = 2 then .next s else s.dbgGo true size ups

/-- CDBG_STEP (R492): CDBG_CONTROL written with HALT and STEP. -/
def execCdbgStep (req : Requester) (c : CoreId) (ups : List Upset) (s : State) : Host.Outcome State Fault Refusal :=
  if s.accessible req (cA c.toNat CDBG_CONTROL) then (s.upsets ups).writeStep req (cA c.toNat CDBG_CONTROL) 4 5 Env.none
  else .next s

/-- REGISTER_WRITE (R9 to R12). -/
def execRegisterWrite (req : Requester) (addr : Addr) (size : Nat) (value : W64) (s : State) :
    Host.Outcome State Fault Refusal :=
  if s.accessible req addr.toNat then s.writeAny req addr.toNat size value Env.none
  else s.command req addr.toNat size value

/-- REGISTER_READ (R9 to R11): the host's completes on PCI Express; any other is answered with its data. -/
def execRegisterRead (req : Requester) (tag : Nat) (addr : Addr) (size : Nat) (s : State) :
    Host.Outcome State Fault Refusal :=
  if !s.accessible req addr.toNat then .next (if req = .host then s.readLater tag addr.toNat else s)
  else
    let got := s.readReg req addr.toNat size
    let s := got.1
    let v := got.2
    let bs := leBytes size v.toNat
    .next (s.modHost fun h =>
      if req = .host then { h with completions := h.completions ++ [⟨tag, bs, false, .successful⟩] }
      else { h with answers := h.answers ++ [(tag, bs)] })

end Sys2Proof.Machine
end

