-- ==== Sys2Proof/Machine/Host.lean ====
section
/-! DEFINITION. The host interface (R390 to R408): configuration requests, the two windows, doorbells, launches, Rest. -/

namespace Sys2Proof.Machine

namespace State

/-! ### Completions -/

/-- A read that no longer waits. -/
def endHold (s : State) (tag : Nat) : State := s.modHost fun h => { h with holds := h.holds.filter fun x => x.1 ≠ tag }

/-! ### Windows (R392, R393) -/

/-- The device address of a BAR2 offset: HIF_BAR2_BASE has no effect while BAR2 is 64 TiB. -/
def bar2Addr (s : State) (off : Nat) : Nat :=
  if s.host.bar2Log = 46 then off % 2 ^ 46 else ((s.pReg HIF_BAR2_BASE).toNat + off) % 2 ^ 46

/-- Whether n bytes at an offset are one request of a window: within it, and crossing no 4 KiB boundary. -/
def inWindow (s : State) (bar2 : Bool) (off n : Nat) : Bool :=
  decide (0 < n) && decide (off % 4096 + n ≤ 4096) && decide (off + n ≤ if bar2 then 2 ^ s.host.bar2Log else 2 ^ 25)

/-- The largest payload of a write, and the most reads outstanding (R390). -/
def maxPayload : Nat := 512
def maxReads : Nat := 1024

/-- The pending bit array. -/
def pbaBytes (s : State) : List Byte :=
  (List.range 256).map fun i => BitVec.ofNat 8 ((List.range 8).foldl (fun n b => n + if 8 * i + b ∈ s.host.pba then 2 ^ b else 0) 0)

/-- The register a doorbell page's offset is: Q_TAIL or Q_CHEAD. -/
def doorbell (off : Nat) : Option Nat :=
  let q := (off - 0x1180000) / 4096
  if off % 4096 < 4 then some (qA q Q_TAIL + off % 4096) else if off % 4096 < 8 then some (qA q Q_CHEAD + off % 4096 - 4) else none

/-- A read of BAR0 above the package block. -/
def readBar0 (s : State) (off n : Nat) : State × List Byte :=
  if off < 0x1180000 then (s, s.bar0 off n)
  else if off < 0x11C0000 then (match doorbell off with
    | some a => s.readBytes .host a n
    | none => (s, List.replicate n 0))
  else if off < 0x11C8000 then (s, s.bar0 off n)
  else (s, ((s.pbaBytes ++ List.replicate 4096 0).drop (off - 0x11C8000)).take n ++ List.replicate (n + off - 0x11C9100) 0)

/-- A write of BAR0 above the package block: rings, doorbells and the MSI-X table, whose unmasked vectors send what they
hold. -/
def writeBar0 (s : State) (off : Nat) (bs : List Byte) : Option State :=
  let n := bs.length
  if off < 0x1180000 then some (s.setBar0 off bs)
  else if off < 0x11C0000 then (match doorbell off with
    | some a => s.writeReg .host a n (BitVec.ofNat 64 (ofLeBytes bs))
    | none => some s)
  else if off < 0x11C8000 then
    let v := (off - 0x11C0000) / 16
    some ((List.range (n / 16 + 2)).foldl (fun s i => s.msixFlush (v + i)) (s.setBar0 off bs))
  else some s

/-! ### Accesses -/

/-- What a host read of a window comes to; none while it is held. -/
def hostReadAt (s : State) (bar2 : Bool) (off n : Nat) (ups : List Upset) : Option (State × Read) :=
  if bar2 then s.readAt .host (s.bar2Addr off) n ups
  else if off < 0x1000000 then s.readAt .host (pA off) n
  else
    let got := s.readBar0 off n
    let s := got.1
    let bs := got.2
    some (s, Read.of (plain bs))

/-- Whether two runs of bytes share a 64-byte word. -/
def sameWord (a n b m : Nat) : Bool := decide (a / 64 ≤ (b + m - 1) / 64) && decide (b / 64 ≤ (a + n - 1) / 64)

/-- The write as a posted write: its address as the window gives it on arrival (R393). -/
def postedAt (s : State) (bar2 : Bool) (off : Nat) (bs : List Byte) (ep : Bool) (e : Env) : PostedWrite :=
  ⟨if !bar2 && decide (0x1000000 ≤ off) then some off else none, if bar2 then s.bar2Addr off else pA off, bs, ep, e⟩

/-- A host read (R394, R402): Unsupported in D3hot, held in Rest and where its data is not committed, else completed. PRESUMED (log entry
145): it does not pass a posted write to the same 64-byte word. -/
def hostRead (s : State) (tag : Nat) (bar2 : Bool) (off n : Nat) (ups : List Upset) : State :=
  let a := if bar2 then s.bar2Addr off else pA off
  if !s.linkUp || !s.inWindow bar2 off n then s
  else if maxReads ≤ s.host.holds.length ∧ !s.host.holds.any (·.1 == tag) then s
  else if !s.hostOpen || s.host.posted.any (fun w => sameWord w.addr w.data.length a n) then s.readLater tag a
  else match s.hostReadAt bar2 off n ups with
    | none => (s.noteHeld .host a n false).holdRead tag a
    | some (s, r) => (s.endHold tag).completed tag .successful r.ep (dataOf r.bytes)

/-- Whether a posted write is a doorbell's (R392, R403). -/
def isDoorbell (w : PostedWrite) : Bool :=
  match w.above with
  | some off => decide (0x1180000 ≤ off) && decide (off < 0x11C0000)
  | none => false

/-- Whether a write waits behind one that came before it and is still held (R403): a doorbell behind any, another behind one to the same
64-byte word. -/
def behindPosted (held : List PostedWrite) (w : PostedWrite) : Bool :=
  held.any fun x => isDoorbell w || sameWord x.addr x.data.length w.addr w.data.length

/-- One posted write performed, or none where it is held (R403, R407). -/
def perform (s : State) (w : PostedWrite) : Option (Host.Outcome State Fault Refusal) :=
  let n := w.data.length
  if !s.hostOpen then none
  else match w.above with
    | some off => some (State.written (if w.ep then some s else s.writeBar0 off w.data))
    | none =>
      if classify w.addr = .register && s.inServiceAt w.addr && s.regRuns w.addr && decide (n ≤ 8) && !w.ep then
        some (s.writeAny .host w.addr n (BitVec.ofNat 64 (ofLeBytes w.data)) w.env)
      else match s.writeAt .host w.addr w.data w.ep w.env with
        | .held => none
        | .reserved => some (.fault .reservedFieldWritten)
        | .done s _ => some (.next s)

/-- The writes of a list performed in their order, `held` the ones before them that are held; a write that an access waits for is noted at
its vault. -/
def performFrom (s : State) (held : List PostedWrite) : List PostedWrite → Host.Outcome State Fault Refusal
  | [] => .next (s.modHost fun h => { h with posted := held })
  | w :: ws =>
    if behindPosted held w then performFrom s (held ++ [w]) ws
    else match s.perform w with
      | none => performFrom (s.noteHeld .host w.addr w.data.length true) (held ++ [w]) ws
      | some (.next s) => performFrom s held ws
      | some o => o

/-- The posted writes that can be, performed (R403). -/
def performPosted (s : State) : Host.Outcome State Fault Refusal := performFrom s [] s.host.posted

/-- A host write (R394, R403): dropped in D3hot; else posted, and performed with those before it once nothing holds it. -/
def hostWrite (s : State) (bar2 : Bool) (off : Nat) (bs : List Byte) (ep : Bool) (e : Env) :
    Host.Outcome State Fault Refusal :=
  if !s.linkUp || !s.inWindow bar2 off bs.length || decide (maxPayload < bs.length) || s.host.d3hot then .next s
  else (s.post (s.postedAt bar2 off bs ep e)).performPosted

/-- A doorbell of queue q written (R392, R395). -/
def doorbellWrite (s : State) (off : Nat) (value : W32) : Host.Outcome State Fault Refusal :=
  s.hostWrite false off (leBytes 4 value.toNat) false Env.none

/-! ### Configuration space (R390) -/

/-- The standard capabilities that the features of R390 need, and the extended ones, by their PCI Express identifiers: power management,
MSI-X, PCI Express; Advanced Error Reporting, Resizable BAR, the physical layers at 16, 32 and 64 GT/s, lane margining. PRESUMED (log
entry 50). -/
def capabilities (extended : Bool) : List Nat := if extended then [0x01, 0x15, 0x26, 0x2A, 0x31, 0x27] else [0x01, 0x11, 0x10]

/-- The header of a capability at an offset: its identifier and the place of the next, 0 after the last, so that the two lists hold no
capability but these. -/
def capHeader (extended : Bool) (off : BitVec 12) : Option Nat :=
  let ids := capabilities extended
  (List.range ids.length).findSome? fun i =>
    if Config.capability extended i = off then
      let next := if i + 1 < ids.length then (Config.capability extended (i + 1)).toNat else 0
      some (ids.getD i 0 + if extended then next * 2 ^ 20 else next * 2 ^ 8)
    else none

/-- A word of configuration space: what the manual fixes of it, over a free value. -/
def configWord (s : State) (off : BitVec 12) (free : W32) : W32 :=
  if off = Config.rebarOffset then (free &&& 0xFFFFC0FF) ||| BitVec.ofNat 32 ((s.host.bar2Log - 20) * 256)
  else if off = Config.pmcsrOffset then
    (free &&& 0xFFFF7FFC) ||| BitVec.ofNat 32 ((if s.host.pmeStatus then 0x8000 else 0) + if s.host.d3hot then 3 else 0)
  else match capHeader false off, capHeader true off with
    | some h, _ => (free &&& 0xFFFF0000) ||| BitVec.ofNat 32 h
    | none, some h => (free &&& 0x000F0000) ||| BitVec.ofNat 32 h
    | none, none =>
      -- the pointer to the first standard capability
      if off = 0x34 then (free &&& 0xFFFFFF00) ||| BitVec.ofNat 32 ((Config.capability false 0).toNat % 256) else free

end State

/-! ### Commands -/

/-- CONFIG_REQUEST (R390, R451): unanswered before the endpoint is presented (R500), retried until the boot has ended; then completed, a
read with what the manual fixes of the word, a write of the Resizable BAR control with BAR2's size, one of the power management register
with PME_Status cleared by a 1. -/
def execConfigRequest (r : ConfigReq) (s : State) : Host.Outcome State Fault Refusal :=
  .next (if s.warden.stopped = 2 ∨ s.warden.pins.perst then s
    else if !s.bit (pA BRG_STATUS) 31 then s.completed r.tag .retry false []
    else if r.write then
      let n := 20 + r.value.toNat / 256 % 64
      let s : State := if r.offset = Config.rebarOffset ∧ 30 ≤ n ∧ n ≤ 46 then s.modHost fun h => { h with bar2Log := n } else s
      let s : State := if r.offset = Config.pmcsrOffset ∧ r.value.getLsbD 15 then s.modHost fun h => { h with pmeStatus := false } else s
      s.completed r.tag .successful false []
    else
      let got := s.takeFree
      let v := got.1
      let s := got.2
      s.completed r.tag .successful false (leBytes 4 (s.configWord r.offset (v.setWidth 32)).toNat))

/-- HOST_READ (R402). -/
def execHostRead (tag : Nat) (bar2 : Bool) (off : Nat) (len : Nat) (ups : List Upset) (s : State) :
    Host.Outcome State Fault Refusal :=
  .next ((s.upsets ups).hostRead tag bar2 off len ups)

/-- HOST_WRITE (R403). -/
def execHostWrite (bar2 : Bool) (off : Nat) (data : List Byte) (ep : Bool) (ups : List Upset) (s : State) :
    Host.Outcome State Fault Refusal :=
  (s.upsets ups).hostWrite bar2 off data ep { Env.none with ups := ups }

/-- HOST_HOLD_LIMIT (R402): a held read ends with Completer Abort; a limit of 0 holds without end. -/
def execHostHoldLimit (tag : Nat) (s : State) : Host.Outcome State Fault Refusal :=
  .next (if s.fld (pA HIF_HOLD_LIMIT) 31 0 ≠ 0 && s.host.holds.any (·.1 == tag) && s.linkUp then
      (((s.endHold tag).addSat (pA HIF_ABORTS) 31 0 1).setBit (pA HIF_STATUS) 11 true).completed tag .abort false []
    else s)

/-- DOORBELL_TAIL (R395, R403): Q_TAIL written through the doorbell. -/
def execDoorbellTail (q : BitVec 6) (value : W32) (s : State) : Host.Outcome State Fault Refusal :=
  s.doorbellWrite (0x1180000 + 4096 * q.toNat) value

/-- DOORBELL_CHEAD (R395). -/
def execDoorbellChead (q : BitVec 6) (value : W32) (s : State) : Host.Outcome State Fault Refusal :=
  s.doorbellWrite (0x1180000 + 4096 * q.toNat + 4) value

/-- Q_CONTROL_WRITE (R395). -/
def execQControlWrite (req : Requester) (q : BitVec 6) (value : W32) (s : State) : Host.Outcome State Fault Refusal :=
  s.command req (qA q.toNat Q_CONTROL) 4 (value.setWidth 64)

/-- LAUNCH (R398), and the refusal of a faulty entry (R400). -/
def execLaunch (q : BitVec 6) (s : State) : Host.Outcome State Fault Refusal := .next (s.onIslands fun s => s.launch q.toNat)

/-- MARK (R397). -/
def execMark (q : BitVec 6) (s : State) : Host.Outcome State Fault Refusal := .next (s.onIslands fun s => s.mark q.toNat)

/-- LAUNCH_COMPLETE (R399). -/
def execLaunchComplete (q : BitVec 6) (index : Byte) (s : State) : Host.Outcome State Fault Refusal :=
  .next (s.onIslands fun s => s.launchComplete q.toNat index.toNat)

/-- MSIX_UNMASK (R405). -/
def execMsixUnmask (v : BitVec 11) (s : State) : Host.Outcome State Fault Refusal :=
  if s.hostOpen then .next (s.msixUnmask v.toNat)
  else
    let off := 0x11C0000 + 16 * v.toNat + 12
    s.hostWrite false off ((s.bar0 off 4).set 0 (((s.bar0 off 1).headD 0) &&& 0xFE)) false Env.none

/-- REST_ENTER (R406): HIF_REST.ENTER written. -/
def execRestEnter (req : Requester) (s : State) : Host.Outcome State Fault Refusal := s.command req (pA HIF_REST) 4 1

/-- D3HOT_ENTRY (R406). -/
def execD3hotEntry (s : State) : Host.Outcome State Fault Refusal := .next (if s.linkUp then s.d3hotEntry else s)

/-- REST_ENTRY_END (R406). -/
def execRestEntryEnd (s : State) : Host.Outcome State Fault Refusal := .next (s.onIslands fun s => s.restEntryEnd)

/-- WAKE (R407). -/
def execWake (t : WakeTrigger) (s : State) : Host.Outcome State Fault Refusal := .next (s.onIslands fun s => s.wake t)

/-- WAKE_COMPLETE (R407): the host's writes that were held are performed. -/
def execWakeComplete (s : State) : Host.Outcome State Fault Refusal :=
  if s.warden.stopped ≠ 0 then .next s else s.wakeComplete.performPosted

/-- NB_RESULT_READ (R305): a 64-byte read of the near-bank window; the host's completes on PCI Express. -/
def execNbResultRead (req : Requester) (tag : Nat) (a : Addr) (s : State) : Host.Outcome State Fault Refusal :=
  .next (if classify a.toNat ≠ .nbWindow || s.warden.stopped ≠ 0 then s
    else if req = .host && !s.hostOpen then s.readLater tag a.toNat
    else match s.readAt req a.toNat 64 with
      | none =>
        let s := s.noteHeld req a.toNat 64 false
        if req = .host then s.holdRead tag a.toNat else s
      | some (s, r) =>
        if req = .host then (s.endHold tag).completed tag .successful r.ep (dataOf r.bytes)
        else s.modHost fun h => { h with answers := h.answers ++ [(tag, dataOf r.bytes)] })

end Sys2Proof.Machine
end

