-- ==== Sys2Proof/Machine/Interrupts.lean ====
section
/-! DEFINITION. Writes of the interrupt controllers that act (R410 to R423). -/

namespace Sys2Proof.Machine

/-- ICC_CLAIM (R416). -/
def execIccClaim (req : Requester) (c : CoreId) (n : BitVec 6) (s : State) : Host.Outcome State Fault Refusal :=
  s.command req (cA c.toNat ICC_CLAIM) 4 (n.setWidth 64)

/-- ICC_EOI (R417). -/
def execIccEoi (req : Requester) (c : CoreId) (n : BitVec 6) (s : State) : Host.Outcome State Fault Refusal :=
  s.command req (cA c.toNat ICC_EOI) 4 (n.setWidth 64)

/-- ICC_STACK_RESET (R418). -/
def execIccStackReset (req : Requester) (c : CoreId) (s : State) : Host.Outcome State Fault Refusal :=
  s.command req (cA c.toNat ICC_STACK_CTL) 4 1

/-- ICC_SEND (R414). -/
def execIccSend (req : Requester) (c : CoreId) (n : BitVec 10) (s : State) : Host.Outcome State Fault Refusal :=
  s.command req (cA c.toNat ICC_SEND) 4 (n.setWidth 64)

/-- ICC_RAISE (R410). -/
def execIccRaise (req : Requester) (c : CoreId) (bits : W64) (s : State) : Host.Outcome State Fault Refusal :=
  s.command req (cA c.toNat ICC_RAISE) 8 bits

/-- ICC_PENDING_CLEAR (R412). -/
def execIccPendingClear (req : Requester) (c : CoreId) (bits : W64) (s : State) : Host.Outcome State Fault Refusal :=
  s.command req (cA c.toNat ICC_PENDING) 8 bits

/-- ICP_CLAIM (R416). -/
def execIcpClaim (req : Requester) (n : BitVec 10) (s : State) : Host.Outcome State Fault Refusal :=
  s.command req (pA ICP_CLAIM) 4 (n.setWidth 64)

/-- ICP_EOI (R417). -/
def execIcpEoi (req : Requester) (n : BitVec 10) (s : State) : Host.Outcome State Fault Refusal :=
  s.command req (pA ICP_EOI) 4 (n.setWidth 64)

/-- ICP_STACK_RESET (R418). -/
def execIcpStackReset (req : Requester) (s : State) : Host.Outcome State Fault Refusal :=
  s.command req (pA ICP_STACK_CTL) 4 1

/-- ICP_RAISE (R423): w counts the register's copies. -/
def execIcpRaise (req : Requester) (w : BitVec 4) (bits : W64) (s : State) : Host.Outcome State Fault Refusal :=
  s.command req (pA ICP_RAISE + 8 * w.toNat) 8 bits

/-- ICP_PENDING_CLEAR (R412): word w of the bank. -/
def execIcpPendingClear (req : Requester) (w : BitVec 4) (bits : W64) (s : State) : Host.Outcome State Fault Refusal :=
  s.command req (pA ICP_PENDING0 + 8 * w.toNat) 8 bits

/-- ICP_FWD_CLEAR (R413). -/
def execIcpFwdClear (req : Requester) (st : StackId) (bits : W64) (s : State) : Host.Outcome State Fault Refusal :=
  s.command req (pA ICP_FWD + 8 * st.toNat) 8 bits

end Sys2Proof.Machine
end

