-- ==== Sys2Proof/Machine/Life.lean ====
section
/-! DEFINITION. The life of an operation in the tally (R77, R78, R133, R134, R189, R201 to R215), the starvation limit (R88) and
the clear of a waking core (R99). -/

namespace Sys2Proof.Machine

/-- BULK_START (R78, R133). -/
def execBulkStart (c : CoreId) (q : Nat) (f : RunFaults) (s : State) : Host.Outcome State Fault Refusal :=
  .next (s.onIslands fun s => s.bulkStart c.toNat q f)

/-- BULK_COMPLETE (R134). -/
def execBulkComplete (c : CoreId) (slot : BitVec 9) (s : State) : Host.Outcome State Fault Refusal :=
  .next (s.onIslands fun s => s.bulkComplete c.toNat slot.toNat)

/-- SETTLE (R203). -/
def execSettle (c : CoreId) (slot : BitVec 9) (s : State) : Host.Outcome State Fault Refusal :=
  .next (s.onIslands fun s => s.settle c.toNat slot.toNat)

/-- REPLAY (R210). -/
def execReplay (c : CoreId) (slot : BitVec 9) (f : RunFaults) (s : State) : Host.Outcome State Fault Refusal :=
  .next (s.onIslands fun s => s.replay c.toNat slot.toNat f)

/-- REPLAY_WAIT_EXPIRY (R210, R212). -/
def execReplayWaitExpiry (c : CoreId) (slot : BitVec 9) (s : State) : Host.Outcome State Fault Refusal :=
  .next (s.onIslands fun s => s.replayExpiry c.toNat slot.toNat)

/-- POISON_REPAIR (R215). -/
def execPoisonRepair (c : CoreId) (slot : BitVec 9) (s : State) : Host.Outcome State Fault Refusal :=
  .next (s.onIslands fun s => s.poisonRepair c.toNat slot.toNat)

/-- TALLY_FAILED_CLEAR (R213): TALLY_FAILED.VALID written 1. -/
def execTallyFailedClear (req : Requester) (c : CoreId) (s : State) : Host.Outcome State Fault Refusal :=
  s.command req (cA c.toNat TALLY_FAILED) 8 1

/-- SP_STARVE_LIMIT (R88). -/
def execSpStarveLimit (c : CoreId) (s : State) : Host.Outcome State Fault Refusal :=
  .next (s.onIslands fun s => s.starve c.toNat)

/-- CORE_CLEAR (R99). -/
def execCoreClear (c : CoreId) (s : State) : Host.Outcome State Fault Refusal :=
  .next (s.onIslands fun s => s.coreClearEnd c.toNat)

end Sys2Proof.Machine
end

