-- ==== Sys2Proof/Machine/Links.lean ====
section
/-! DEFINITION. Bilo links, packets between modules and gradient reduction (R363 to R387). -/

namespace Sys2Proof.Machine

/-- BILO_COMMAND with GO and an OP (R375). -/
def biloOp (n : Nat) (v : W32) : W64 := putBits (State.go v) 25 24 n

/-- CODEWORD_RECEIVE (R364, R365). -/
def execCodewordReceive (port : BitVec 3) (w : Codeword) (s : State) : Host.Outcome State Fault Refusal :=
  .next (s.onIslands fun s => s.codeword port.toNat w)

/-- RETRAIN (R365). -/
def execRetrain (port : BitVec 3) (s : State) : Host.Outcome State Fault Refusal :=
  .next (s.onIslands fun s => s.retrain port.toNat)

/-- RETRAIN_COMPLETE (R365). -/
def execRetrainComplete (port : BitVec 3) (partner : BitVec 14) (isSwitch : Bool) (s : State) :
    Host.Outcome State Fault Refusal :=
  .next (s.onIslands fun s => s.retrainComplete port.toNat partner.toNat isSwitch)

/-- BILO_PACKET_ARRIVAL (R370). -/
def execBiloPacketArrival (port : BitVec 3) (p : BiloPacket) (s : State) : Host.Outcome State Fault Refusal :=
  .next (s.onIslands fun s => s.biloArrival port.toNat p)

/-- BILO_ID_WRITE (R369). -/
def execBiloIdWrite (req : Requester) (value : W32) (s : State) : Host.Outcome State Fault Refusal :=
  s.command req (pA BILO_ID) 4 (value.setWidth 64)

/-- BARROW_OPEN (R375): BILO_COMMAND with OP 1. -/
def execBarrowOpen (req : Requester) (value : W32) (s : State) : Host.Outcome State Fault Refusal :=
  s.command req (pA BILO_COMMAND) 4 (biloOp 1 value)

/-- BARROW_RETIRE (R375): BILO_COMMAND with OP 2. -/
def execBarrowRetire (req : Requester) (value : W32) (s : State) : Host.Outcome State Fault Refusal :=
  s.command req (pA BILO_COMMAND) 4 (biloOp 2 value)

/-- BARROW_EXCUSE (R381): BILO_COMMAND with OP 3. -/
def execBarrowExcuse (req : Requester) (value : W32) (s : State) : Host.Outcome State Fault Refusal :=
  s.command req (pA BILO_COMMAND) 4 (biloOp 3 value)

/-- FORWARD_LOCAL_SEGMENT (R377). -/
def execForwardLocalSegment (barrow : BitVec 12) (segment : BitVec 14) (gen : Byte) (s : State) :
    Host.Outcome State Fault Refusal :=
  .next (s.onIslands fun s => s.forwardLocalSegment barrow.toNat segment.toNat gen)

/-- NODE_COMPLETE (R378). -/
def execNodeComplete (barrow : BitVec 12) (segment : BitVec 14) (gen : Byte) (s : State) :
    Host.Outcome State Fault Refusal :=
  .next (s.onIslands fun s => s.nodeComplete barrow.toNat segment.toNat gen)

/-- BARROW_CONTRIBUTION (R382). -/
def execBarrowContribution (p : BiloPacket) (s : State) : Host.Outcome State Fault Refusal :=
  .next (s.onIslands fun s => s.barrowContribution p)

/-- BARROW_DONE (R379). -/
def execBarrowDone (p : BiloPacket) (s : State) : Host.Outcome State Fault Refusal :=
  .next (s.onIslands fun s => s.barrowDone p)

/-- BARROW_RESEND (R385). -/
def execBarrowResend (p : BiloPacket) (s : State) : Host.Outcome State Fault Refusal :=
  .next (s.onIslands fun s => s.barrowResend p)

/-- NODE_TIMEOUT (R381). -/
def execNodeTimeout (barrow : BitVec 12) (segment : BitVec 14) (gen : Byte) (s : State) : Host.Outcome State Fault Refusal :=
  .next (s.onIslands fun s => s.nodeTimeout barrow.toNat segment.toNat gen)

/-- FORWARDER_ANSWER (R380). -/
def execForwarderAnswer (a : ForwarderAnswer) (s : State) : Host.Outcome State Fault Refusal :=
  .next (s.onIslands fun s => s.forwarderAnswer a)

end Sys2Proof.Machine
end

