-- ==== Sys2Proof/Machine/ModuleIf.lean ====
section
/-! DEFINITION. The module interface (R497 to R517) and the event ring's tail (R525, R526). -/

namespace Sys2Proof.Machine

/-- INPUT_OUT_OF_RANGE (R499). -/
def execInputOutOfRange (e : InputEvent) (s : State) : Host.Outcome State Fault Refusal :=
  .next (s.inputOut e)

/-- PWRGD_IN_DEASSERT (R499). -/
def execPwrgdInDeassert (s : State) : Host.Outcome State Fault Refusal :=
  .next (s.pwrgdDown)

/-- SHUTTER_SAVE (R508). -/
def execShutterSave (tripDuring : Bool) (holdcapDies : Bool) (s : State) : Host.Outcome State Fault Refusal :=
  .next (s.shutterSave tripDuring holdcapDies)

/-- HOLDCAP_MEASURE (R507). -/
def execHoldcapMeasure (mv : W16) (cap : W16) (s : State) : Host.Outcome State Fault Refusal :=
  .next (if s.warden.stopped = 2 then s.holdcapFalls mv else s.holdcap mv cap)

/-- MCTP_CONTROL (R505). -/
def execMctpControl (r : BusRequest) (s : State) : Host.Outcome State Fault Refusal :=
  .next (s.mctp r)

/-- PLDM_REQUEST (R505). -/
def execPldmRequest (r : BusRequest) (s : State) : Host.Outcome State Fault Refusal :=
  .next (s.pldm r)

/-- VENDOR_FRAME_REQUEST (R505). -/
def execVendorFrameRequest (r : BusRequest) (s : State) : Host.Outcome State Fault Refusal :=
  .next (s.vendorFrame r)

/-- SHUT_CONTROL_CLEAR (R512). -/
def execShutControlClear (req : Requester) (s : State) : Host.Outcome State Fault Refusal :=
  s.command req (pA SHUT_CONTROL) 4 1

/-- EVT_TAIL_WRITE (R525). -/
def execEvtTailWrite (req : Requester) (value : W32) (s : State) : Host.Outcome State Fault Refusal :=
  s.command req (pA EVT_TAIL) 4 (value.setWidth 64)

/-- VAUX12_LOSS (R503). -/
def execVaux12Loss (s : State) : Host.Outcome State Fault Refusal :=
  .next (s.vauxLoss)

end Sys2Proof.Machine
end

