-- ==== Sys2Proof/Machine/NearBank.lean ====
section
/-! DEFINITION. Near-bank computing (R294 to R316). -/

namespace Sys2Proof.Machine

/-- The bank logic powered (R294): ready, or draining at once where ENABLE has been cleared meanwhile. -/
def State.nbReady (s : State) (c : Nat) : State :=
  if !(s.vault c).powering then s
  else
    let s := s.setBit (vA c NB_STATUS) 0 true
    let on := s.bit (vA c NB_MODE) 0
    (s.modVault c fun v => { v with powering := false, draining := !on }).nbHolds c

/-- The drain's end (R294): once its commands have ended, rows rebuilt and the logic powered down; powered again where
ENABLE has been set meanwhile. -/
def State.nbDrainEnd (s : State) (c : Nat) : State :=
  if (s.vault c).draining && (s.vault c).cmds.isEmpty then s.nbPowerDown c else s

/-- Whether no command is in a bank of a vault and no ordinary access waits for it. -/
def State.bankQuiet (s : State) (c bank : Nat) : Bool :=
  let here (a : Nat) : Bool := classify a == .fast c && bankOf a == bank
  (s.vault c).cmds.all (fun k => k.bank ≠ bank) && !(s.vault c).waits.any (fun w => here w.addr) &&
    !s.net.packets.any fun p => p.place == .delivered c && p.typ ≠ 0 && p.typ ≠ 7 && !p.response && here p.addr.toNat

/-- The oldest unchecked row of a quiet bank rebuilt in the background (R308). -/
def State.rebuildOldest (s : State) (c : Nat) : State :=
  match (s.vault c).unchecked.find? fun r => s.bankQuiet c (bankOf r) with
  | some r => s.rebuildRow r
  | none => s

/-- NB_MODE_ENABLE (R294). -/
def execNbModeEnable (req : Requester) (st : StackId) (v : BitVec 6) (s : State) : Host.Outcome State Fault Refusal :=
  s.command req (vA (st.toNat * 64 + v.toNat) NB_MODE) 4 1

/-- NB_READY (R294). -/
def execNbReady (st : StackId) (v : BitVec 6) (s : State) : Host.Outcome State Fault Refusal :=
  .next (s.onIslands fun s => s.nbReady (st.toNat * 64 + v.toNat))

/-- NB_MODE_DISABLE (R294). -/
def execNbModeDisable (req : Requester) (st : StackId) (v : BitVec 6) (s : State) : Host.Outcome State Fault Refusal :=
  s.command req (vA (st.toNat * 64 + v.toNat) NB_MODE) 4 0

/-- NB_DRAIN_END (R294): every accepted command has ended. -/
def execNbDrainEnd (st : StackId) (v : BitVec 6) (s : State) : Host.Outcome State Fault Refusal :=
  .next (s.onIslands fun s => s.nbDrainEnd (st.toNat * 64 + v.toNat))

/-- NB_COPY accepted (R296 to R298). -/
def execNbCopy (st : StackId) (v : BitVec 6) (s : State) : Host.Outcome State Fault Refusal :=
  .next (s.onIslands fun s => s.nbAccept (st.toNat * 64 + v.toNat) 0x1)

/-- NB_NOT accepted (R296 to R298). -/
def execNbNot (st : StackId) (v : BitVec 6) (s : State) : Host.Outcome State Fault Refusal :=
  .next (s.onIslands fun s => s.nbAccept (st.toNat * 64 + v.toNat) 0x2)

/-- NB_AND accepted (R296 to R298). -/
def execNbAnd (st : StackId) (v : BitVec 6) (s : State) : Host.Outcome State Fault Refusal :=
  .next (s.onIslands fun s => s.nbAccept (st.toNat * 64 + v.toNat) 0x3)

/-- NB_OR accepted (R296 to R298). -/
def execNbOr (st : StackId) (v : BitVec 6) (s : State) : Host.Outcome State Fault Refusal :=
  .next (s.onIslands fun s => s.nbAccept (st.toNat * 64 + v.toNat) 0x4)

/-- NB_XOR accepted (R296 to R298). -/
def execNbXor (st : StackId) (v : BitVec 6) (s : State) : Host.Outcome State Fault Refusal :=
  .next (s.onIslands fun s => s.nbAccept (st.toNat * 64 + v.toNat) 0x5)

/-- NB_MAJ3 accepted (R296 to R298). -/
def execNbMaj3 (st : StackId) (v : BitVec 6) (s : State) : Host.Outcome State Fault Refusal :=
  .next (s.onIslands fun s => s.nbAccept (st.toNat * 64 + v.toNat) 0x6)

/-- NB_DOT accepted (R296 to R298). -/
def execNbDot (st : StackId) (v : BitVec 6) (s : State) : Host.Outcome State Fault Refusal :=
  .next (s.onIslands fun s => s.nbAccept (st.toNat * 64 + v.toNat) 0x10)

/-- NB_WSUM accepted (R296 to R298). -/
def execNbWsum (st : StackId) (v : BitVec 6) (s : State) : Host.Outcome State Fault Refusal :=
  .next (s.onIslands fun s => s.nbAccept (st.toNat * 64 + v.toNat) 0x11)

/-- NB_POPC accepted (R296 to R298). -/
def execNbPopc (st : StackId) (v : BitVec 6) (s : State) : Host.Outcome State Fault Refusal :=
  .next (s.onIslands fun s => s.nbAccept (st.toNat * 64 + v.toNat) 0x12)

/-- NB_COMMAND_START (R314). -/
def execNbCommandStart (st : StackId) (v : BitVec 6) (bank : BitVec 7) (ups : List Upset) (s : State) :
    Host.Outcome State Fault Refusal :=
  .next (s.onIslands fun s => s.nbStart (st.toNat * 64 + v.toNat) bank.toNat ups)

/-- NB_COMMAND_END (R305). -/
def execNbCommandEnd (st : StackId) (v : BitVec 6) (bank : BitVec 7) (s : State) : Host.Outcome State Fault Refusal :=
  .next (s.onIslands fun s => s.nbEnd (st.toNat * 64 + v.toNat) bank.toNat)

/-- ROW_REBUILD (R308): the oldest unchecked row. -/
def execRowRebuild (st : StackId) (v : BitVec 6) (s : State) : Host.Outcome State Fault Refusal :=
  .next (s.onIslands fun s => s.rebuildOldest (st.toNat * 64 + v.toNat))

end Sys2Proof.Machine
end

