-- ==== Sys2Proof/Machine/Packets.lean ====
section
/-! DEFINITION. Packets of the on-package network and what they do where they arrive (R178, R182, R185, R187, R218, R226 to
R239), links between routers (R232, R233) and the map (R240). -/

namespace Sys2Proof.Machine

/-- PACKET_HOP (R229). -/
def execPacketHop (i : Nat) (repeats : List Nat) (s : State) : Host.Outcome State Fault Refusal :=
  .next (s.onIslands fun s => s.hop i repeats)

/-- RETIRED_INJECTION (R239). -/
def execRetiredInjection (st : StackId) (phys : Nat) (what : RetiredSend) (s : State) : Host.Outcome State Fault Refusal :=
  .next (s.onIslands fun s => s.retiredInjection st.toNat phys what)

/-- PLAN_MERGE (R235). -/
def execPlanMerge (c : CoreId) (m : BitVec 4) (s : State) : Host.Outcome State Fault Refusal :=
  .next (s.onIslands fun s => s.mergePlan c.toNat m.toNat)

/-- SEND_PACKET (R178). -/
def execSendPacket (a : Arrival) (s : State) : Host.Outcome State Fault Refusal :=
  .next (s.onIslands fun s => s.sendPacket a.packet a.ups)

/-- REMOTE_WRITE (R182). -/
def execRemoteWrite (i : Nat) (ups : List Upset) (s : State) : Host.Outcome State Fault Refusal :=
  .next (s.onIslands fun s => s.remoteWrite i ups)

/-- READ_REQUEST (R218). -/
def execReadRequest (i : Nat) (ups : List Upset) (s : State) : Host.Outcome State Fault Refusal :=
  .next (s.onIslands fun s => s.readRequest i ups)

/-- READ_DATA (R226). -/
def execReadData (a : Arrival) (s : State) : Host.Outcome State Fault Refusal :=
  .next (s.onIslands fun s => s.readData a.packet a.ups)

/-- ACCUMULATE (R185). -/
def execAccumulate (i : Nat) (ups : List Upset) (s : State) : Host.Outcome State Fault Refusal :=
  .next (s.onIslands fun s => s.accumulate i false ups)

/-- MERGE (R322). -/
def execMerge (i : Nat) (ups : List Upset) (s : State) : Host.Outcome State Fault Refusal :=
  .next (s.onIslands fun s => s.accumulate i true ups)

/-- STATUS (R187). -/
def execStatus (a : Arrival) (s : State) : Host.Outcome State Fault Refusal :=
  .next (s.onIslands fun s => s.status a.packet a.ups)

/-- RECV_WAIT_LIMIT (R179). -/
def execRecvWaitLimit (c : CoreId) (channel : Byte) (s : State) : Host.Outcome State Fault Refusal :=
  .next (s.onIslands fun s => s.recvWait c.toNat channel.toNat)

/-- LINK_DOWN (R232). -/
def execLinkDown (st : StackId) (phys : Nat) (port : BitVec 2) (s : State) : Host.Outcome State Fault Refusal :=
  .next (s.onIslands fun s => s.linkDown st.toNat phys port.toNat)

/-- DETOUR_INSTALL (R233). -/
def execDetourInstall (st : StackId) (phys : Nat) (port : BitVec 2) (s : State) : Host.Outcome State Fault Refusal :=
  .next (s.onIslands fun s => s.installDetour st.toNat phys port.toNat)

/-- MAP_COMMAND (R240). -/
def execMapCommand (req : Requester) (value : W32) (s : State) : Host.Outcome State Fault Refusal :=
  s.command req (pA MAP_COMMAND) 4 (State.go value)

/-- MAP_CHANGE_END (R240). -/
def execMapChangeEnd (s : State) : Host.Outcome State Fault Refusal :=
  .next (s.onWarden fun s => s.mapEnd)

end Sys2Proof.Machine
end

