-- ==== Sys2Proof/Machine/Power.lean ====
section
/-! DEFINITION. Power, clocks and temperature (R424 to R449). -/

namespace Sys2Proof.Machine

/-- What stewards and warden do of themselves for power and temperature: nothing in recovery, where only the SEC_ and DBG_ blocks operate
(R485). -/
def State.outsideRecovery (s : State) (f : State → State) : State := if s.bit (pA SEC_STATUS) 6 then s else f s

/-- STEP_EVALUATION (R431). -/
def execStepEvaluation (st : StackId) (r : PowerReadings) (s : State) : Host.Outcome State Fault Refusal :=
  .next (s.outsideRecovery fun s => s.onIslands fun s => s.stepEvaluation st.toNat r)

/-- VOLTAGE_UPDATE (R426). -/
def execVoltageUpdate (st : StackId) (r : StackSensors) (s : State) : Host.Outcome State Fault Refusal :=
  .next (s.outsideRecovery fun s => s.onIslands fun s => s.voltageUpdate st.toNat r)

/-- FREQUENCY_COMMAND (R430). -/
def execFrequencyCommand (c : CoreId) (s : State) : Host.Outcome State Fault Refusal :=
  .next (s.onIslands fun s => s.frequencyCommand c.toNat)

/-- CLOCK_STRETCH (R427). -/
def execClockStretch (c : CoreId) (s : State) : Host.Outcome State Fault Refusal :=
  .next (s.onIslands fun s => s.clockStretch c.toNat)

/-- CLOCK_STRETCH_END (R427). -/
def execClockStretchEnd (c : CoreId) (s : State) : Host.Outcome State Fault Refusal :=
  .next (s.onIslands fun s => s.clockStretchEnd c.toNat)

/-- SENSOR_READ (R437, R440). -/
def execSensorRead (st : StackId) (r : StackSensors) (s : State) : Host.Outcome State Fault Refusal :=
  .next (s.outsideRecovery fun s => s.sensorRead st.toNat r)

/-- COOLANT_READ (R436). -/
def execCoolantRead (r : CoolantReadings) (s : State) : Host.Outcome State Fault Refusal :=
  .next (s.outsideRecovery fun s => s.onWarden fun s => s.coolantRead r)

/-- Whether a temperature is at the hard-trip limit of its part (R440): a core 110 °C, a bench 100 °C. -/
def tripLimit (kind : BitVec 2) (temp : W16) : Bool := if kind = 0 then decide (440 ≤ temp.toInt) else decide (400 ≤ temp.toInt)

/-- THERMAL_TRIP (R440, R441): a comparator's temperature at its limit. -/
def execThermalTrip (st : StackId) (kind : BitVec 2) (unitNo : BitVec 9) (temp : W16) (s : State) :
    Host.Outcome State Fault Refusal :=
  .next (if tripLimit kind temp then s.onWarden fun s => s.trip kind.toNat st.toNat unitNo.toNat temp else s)

/-- TELEMETRY_FRAME (R444). -/
def execTelemetryFrame (r : PowerReadings) (s : State) : Host.Outcome State Fault Refusal :=
  .next (s.outsideRecovery fun s => s.onWarden fun s => s.telemetryFrame r)

/-- PWR_TIME_REF_WRITE (R443): the high half. -/
def execPwrTimeRefWrite (req : Requester) (high : W32) (s : State) : Host.Outcome State Fault Refusal :=
  s.command req (pA PWR_TIME_REF + 4) 4 (high.setWidth 64)

/-- PWR_CAP_WRITE (R432). -/
def execPwrCapWrite (req : Requester) (value : W32) (s : State) : Host.Outcome State Fault Refusal :=
  s.command req (pA PWR_CAP) 4 (value.setWidth 64)

/-- STHM_SUSPECT_CLEAR (R439). -/
def execSthmSuspectClear (req : Requester) (st : StackId) (value : W32) (s : State) : Host.Outcome State Fault Refusal :=
  s.command req (sA st.toNat STHM_SUSPECT) 4 (value.setWidth 64)

end Sys2Proof.Machine
end

