-- ==== Sys2Proof/Machine/Security.lean ====
section
/-! DEFINITION. Security (R479 to R496). -/

namespace Sys2Proof.Machine

/-- ATTEST (R488): SEC_ATTEST.GO. -/
def execAttest (req : Requester) (s : State) : Host.Outcome State Fault Refusal :=
  s.command req (pA SEC_ATTEST) 4 0x80000000

/-- EXTEND (R486): SEC_EXTEND with GO. -/
def execExtend (req : Requester) (value : W32) (s : State) : Host.Outcome State Fault Refusal :=
  s.command req (pA SEC_EXTEND) 4 (State.go value)

/-- UPDATE_CHUNK (R493): SEC_UPDATE with GO. -/
def execUpdateChunk (req : Requester) (value : W32) (flashFails : Bool) (s : State) : Host.Outcome State Fault Refusal :=
  s.command req (pA SEC_UPDATE) 4 (State.go value) { Env.none with flashFails := flashFails }

/-- CHALLENGE (R490). -/
def execChallenge (req : Requester) (s : State) : Host.Outcome State Fault Refusal :=
  s.command req (pA DBG_CONTROL) 4 1

/-- SUBMIT (R491). -/
def execSubmit (req : Requester) (s : State) : Host.Outcome State Fault Refusal :=
  s.command req (pA DBG_CONTROL) 4 2

/-- RELOCK (R491). -/
def execRelock (req : Requester) (s : State) : Host.Outcome State Fault Refusal :=
  s.command req (pA DBG_CONTROL) 4 4

/-- NONCE_LAPSE (R490). -/
def execNonceLapse (s : State) : Host.Outcome State Fault Refusal :=
  .next (s.onWarden fun s => s.nonceLapse)

/-- CDBG_HALT (R492): CDBG_CONTROL.HALT. -/
def execCdbgHalt (req : Requester) (c : CoreId) (halt : Bool) (s : State) : Host.Outcome State Fault Refusal :=
  s.command req (cA c.toNat CDBG_CONTROL) 4 (if halt then 1 else 0)

/-- CDBG_REGISTER_WRITE (R492). -/
def execCdbgRegisterWrite (req : Requester) (c : CoreId) (isPc : Bool) (n : BitVec 5) (value : W64) (s : State) :
    Host.Outcome State Fault Refusal :=
  s.command req (if isPc then cA c.toNat CDBG_PC else cA c.toNat CDBG_G + 8 * n.toNat) 8 value

end Sys2Proof.Machine
end

