-- ==== Sys2Proof/Machine/Update.lean ====
section
/-! DEFINITION. The update unit (R341 to R360). -/

namespace Sys2Proof.Machine

/-- LEND (R349, R356). -/
def execUpdLend (st : StackId) (s : State) : Host.Outcome State Fault Refusal :=
  .next (s.onIslands fun s => s.updLend st.toNat)

/-- LEND_EFFECT (R349). -/
def execLendEffect (c : CoreId) (s : State) : Host.Outcome State Fault Refusal :=
  .next (s.onIslands fun s => s.lendEffect c.toNat)

/-- RELEASE (R356). -/
def execUpdRelease (st : StackId) (s : State) : Host.Outcome State Fault Refusal :=
  .next (s.onIslands fun s => s.updRelease st.toNat)

/-- OPEN (R356). -/
def execUpdOpen (st : StackId) (s : State) : Host.Outcome State Fault Refusal :=
  .next (s.onIslands fun s => s.updOpen st.toNat)

/-- CLOSE (R352). -/
def execUpdClose (st : StackId) (s : State) : Host.Outcome State Fault Refusal :=
  .next (s.onIslands fun s => s.updClose st.toNat)

/-- DRAIN (R356). -/
def execUpdDrain (st : StackId) (s : State) : Host.Outcome State Fault Refusal :=
  .next (s.onIslands fun s => s.updDrain st.toNat)

/-- RECON (R356). -/
def execUpdRecon (st : StackId) (s : State) : Host.Outcome State Fault Refusal :=
  .next (s.onIslands fun s => s.updRecon st.toNat)

/-- EXACT_UPDATE (R344). -/
def execExactUpdate (st : StackId) (parityErrors : List Nat) (lent : Option LentFault) (s : State) :
    Host.Outcome State Fault Refusal :=
  .next (s.onIslands fun s => s.exactUpdate st.toNat parityErrors lent)

/-- STALLED_CONTRIBUTION (R351). -/
def execStalledContribution (st : StackId) (v : BitVec 6) (s : State) : Host.Outcome State Fault Refusal :=
  .next (s.onIslands fun s => s.stalledContribution (st.toNat * 64 + v.toNat))

/-- UPD_CONFIG_WRITE (R360). -/
def execUpdConfigWrite (req : Requester) (st : StackId) (value : W32) (s : State) : Host.Outcome State Fault Refusal :=
  s.command req (sA st.toNat UPD_CONFIG) 4 (value.setWidth 64)

end Sys2Proof.Machine
end

