-- ==== Sys2Proof/Machine/Vaults.lean ====
section
/-! DEFINITION. Vaults and the slow tier (R249 to R286). -/

namespace Sys2Proof.Machine

/-- HAUL_DOWN (R250). -/
def execHaulDown (st : StackId) (v : BitVec 6) (s : State) : Host.Outcome State Fault Refusal :=
  .next (s.onIslands fun s => s.haulDown (st.toNat * 64 + v.toNat))

/-- REFRESH_SLOT (R254). -/
def execRefreshSlot (st : StackId) (v : BitVec 6) (bench : BitVec 4) (bank : BitVec 3) (s : State) :
    Host.Outcome State Fault Refusal :=
  .next (s.onIslands fun s => s.refreshSlot (st.toNat * 64 + v.toNat) bench.toNat bank.toNat)

/-- VC_REPAIR (R258): the register written with GO. -/
def execVcRepair (req : Requester) (st : StackId) (v : BitVec 6) (value : W32) (ups : List Upset) (s : State) :
    Host.Outcome State Fault Refusal :=
  s.command req (vA (st.toNat * 64 + v.toNat) VC_REPAIR) 4 (State.go value) { Env.none with ups := ups }

/-- VC_REPAIR_END (R258). -/
def execVcRepairEnd (st : StackId) (v : BitVec 6) (s : State) : Host.Outcome State Fault Refusal :=
  .next (s.onIslands fun s => s.repairEnd (st.toNat * 64 + v.toNat))

/-- VC_CLEAR (R261). -/
def execVcClear (req : Requester) (st : StackId) (v : BitVec 6) (value : W32) (s : State) :
    Host.Outcome State Fault Refusal :=
  s.command req (vA (st.toNat * 64 + v.toNat) VC_CLEAR) 4 (State.go value)

/-- VC_CLEAR_END (R262). -/
def execVcClearEnd (st : StackId) (v : BitVec 6) (s : State) : Host.Outcome State Fault Refusal :=
  .next (s.onIslands fun s => s.clearEnd (st.toNat * 64 + v.toNat))

/-- SLOW_CHANNEL_DOWN (R268). -/
def execSlowChannelDown (st : StackId) (s : State) : Host.Outcome State Fault Refusal :=
  .next (s.onIslands fun s => s.slowDown st.toNat)

/-- SLOW_CLEAR (R268): GO written. -/
def execSlowClear (req : Requester) (st : StackId) (s : State) : Host.Outcome State Fault Refusal :=
  s.command req (sA st.toNat SLOW_CLEAR) 4 0x80000000

/-- SLOW_CLEAR_END (R268). -/
def execSlowClearEnd (st : StackId) (s : State) : Host.Outcome State Fault Refusal :=
  .next (s.onIslands fun s => s.slowClearEnd st.toNat)

/-- WRITE_BACK (R278). -/
def execWriteBack (slow : Bool) (a : Addr) (s : State) : Host.Outcome State Fault Refusal :=
  .next (s.onIslands fun s => if slow then s.writeBackSlow a.toNat else s.writeBackFast a.toNat)

/-- SCRUB_ROW (R282). -/
def execScrubRow (st : StackId) (v : BitVec 6) (slow : Bool) (ups : List Upset) (s : State) :
    Host.Outcome State Fault Refusal :=
  .next (s.onIslands fun s => if slow then (s.upsets ups).scrubSlow st.toNat else (s.upsets ups).scrubFast (st.toNat * 64 + v.toNat))

/-- SCRUB_PASS_LATE (R283). -/
def execScrubPassLate (st : StackId) (s : State) : Host.Outcome State Fault Refusal :=
  .next (s.onIslands fun s => s.scrubLate st.toNat)

/-- RETIRED_HAUL_ROW (R467). -/
def execRetiredHaulRow (st : StackId) (phys : Nat) (s : State) : Host.Outcome State Fault Refusal :=
  .next (s.onIslands fun s => s.retiredHaulRow st.toNat phys)

end Sys2Proof.Machine
end

