-- ==== Sys2Proof/Machine/Dispatch.lean ====
section
/-! DEFINITION. The dispatch: one arm for each command. -/

namespace Sys2Proof.Machine

/-- The effect of a command on everything but the queue. -/
def exec (i : Instr) (s : State) : Host.Outcome State Fault Refusal :=
  match i with
  | .registerWrite req addr size value => Sys2Proof.Machine.execRegisterWrite req addr size value s
  | .add c rd ra rb => Sys2Proof.Machine.execAdd c rd ra rb s
  | .sub c rd ra rb => Sys2Proof.Machine.execSub c rd ra rb s
  | .and c rd ra rb => Sys2Proof.Machine.execAnd c rd ra rb s
  | .or c rd ra rb => Sys2Proof.Machine.execOr c rd ra rb s
  | .xor c rd ra rb => Sys2Proof.Machine.execXor c rd ra rb s
  | .sll c rd ra rb => Sys2Proof.Machine.execSll c rd ra rb s
  | .srl c rd ra rb => Sys2Proof.Machine.execSrl c rd ra rb s
  | .sra c rd ra rb => Sys2Proof.Machine.execSra c rd ra rb s
  | .slt c rd ra rb => Sys2Proof.Machine.execSlt c rd ra rb s
  | .sltu c rd ra rb => Sys2Proof.Machine.execSltu c rd ra rb s
  | .min c rd ra rb => Sys2Proof.Machine.execMin c rd ra rb s
  | .max c rd ra rb => Sys2Proof.Machine.execMax c rd ra rb s
  | .minu c rd ra rb => Sys2Proof.Machine.execMinu c rd ra rb s
  | .maxu c rd ra rb => Sys2Proof.Machine.execMaxu c rd ra rb s
  | .mul c rd ra rb => Sys2Proof.Machine.execMul c rd ra rb s
  | .mulh c rd ra rb => Sys2Proof.Machine.execMulh c rd ra rb s
  | .mulhu c rd ra rb => Sys2Proof.Machine.execMulhu c rd ra rb s
  | .div c rd ra rb => Sys2Proof.Machine.execDiv c rd ra rb s
  | .divu c rd ra rb => Sys2Proof.Machine.execDivu c rd ra rb s
  | .rem c rd ra rb => Sys2Proof.Machine.execRem c rd ra rb s
  | .remu c rd ra rb => Sys2Proof.Machine.execRemu c rd ra rb s
  | .clz c rd ra rb => Sys2Proof.Machine.execClz c rd ra rb s
  | .ctz c rd ra rb => Sys2Proof.Machine.execCtz c rd ra rb s
  | .popc c rd ra rb => Sys2Proof.Machine.execPopc c rd ra rb s
  | .addi c rd ra imm => Sys2Proof.Machine.execAddi c rd ra imm s
  | .andi c rd ra imm => Sys2Proof.Machine.execAndi c rd ra imm s
  | .ori c rd ra imm => Sys2Proof.Machine.execOri c rd ra imm s
  | .xori c rd ra imm => Sys2Proof.Machine.execXori c rd ra imm s
  | .slti c rd ra imm => Sys2Proof.Machine.execSlti c rd ra imm s
  | .sltiu c rd ra imm => Sys2Proof.Machine.execSltiu c rd ra imm s
  | .shi c rd ra imm => Sys2Proof.Machine.execShi c rd ra imm s
  | .lui c rd ra imm => Sys2Proof.Machine.execLui c rd ra imm s
  | .shori c rd ra imm => Sys2Proof.Machine.execShori c rd ra imm s
  | .lb c rd ra imm ups => Sys2Proof.Machine.execLb c rd ra imm ups s
  | .lbu c rd ra imm ups => Sys2Proof.Machine.execLbu c rd ra imm ups s
  | .lh c rd ra imm ups => Sys2Proof.Machine.execLh c rd ra imm ups s
  | .lhu c rd ra imm ups => Sys2Proof.Machine.execLhu c rd ra imm ups s
  | .lw c rd ra imm ups => Sys2Proof.Machine.execLw c rd ra imm ups s
  | .lwu c rd ra imm ups => Sys2Proof.Machine.execLwu c rd ra imm ups s
  | .ld c rd ra imm ups => Sys2Proof.Machine.execLd c rd ra imm ups s
  | .sb c rd ra imm ups => Sys2Proof.Machine.execSb c rd ra imm ups s
  | .sh c rd ra imm ups => Sys2Proof.Machine.execSh c rd ra imm ups s
  | .sw c rd ra imm ups => Sys2Proof.Machine.execSw c rd ra imm ups s
  | .sd c rd ra imm ups => Sys2Proof.Machine.execSd c rd ra imm ups s
  | .beq c ra rb off => Sys2Proof.Machine.execBeq c ra rb off s
  | .bne c ra rb off => Sys2Proof.Machine.execBne c ra rb off s
  | .blt c ra rb off => Sys2Proof.Machine.execBlt c ra rb off s
  | .bge c ra rb off => Sys2Proof.Machine.execBge c ra rb off s
  | .bltu c ra rb off => Sys2Proof.Machine.execBltu c ra rb off s
  | .bgeu c ra rb off => Sys2Proof.Machine.execBgeu c ra rb off s
  | .jal c rd ra imm => Sys2Proof.Machine.execJal c rd ra imm s
  | .jalr c rd ra imm => Sys2Proof.Machine.execJalr c rd ra imm s
  | .mfs c rd ra imm => Sys2Proof.Machine.execMfs c rd ra imm s
  | .mts c rd ra imm => Sys2Proof.Machine.execMts c rd ra imm s
  | .tdw c rd ra imm => Sys2Proof.Machine.execTdw c rd ra imm s
  | .tdr c rd ra imm => Sys2Proof.Machine.execTdr c rd ra imm s
  | .tinc c rd ra mid t => Sys2Proof.Machine.execTinc c rd ra mid t s
  | .twait c rd ra mid t => Sys2Proof.Machine.execTwait c rd ra mid t s
  | .ttry c rd ra mid t => Sys2Proof.Machine.execTtry c rd ra mid t s
  | .tread c rd ra mid t => Sys2Proof.Machine.execTread c rd ra mid t s
  | .tsend c rd ra mid t => Sys2Proof.Machine.execTsend c rd ra mid t s
  | .tset c rd ra mid t => Sys2Proof.Machine.execTset c rd ra mid t s
  | .eret c rd ra rb => Sys2Proof.Machine.execEret c rd ra rb s
  | .ecall c rd ra rb => Sys2Proof.Machine.execEcall c rd ra rb s
  | .brk c rd ra rb => Sys2Proof.Machine.execBrk c rd ra rb s
  | .fence c rd ra rb => Sys2Proof.Machine.execFence c rd ra rb s
  | .ifence c rd ra rb => Sys2Proof.Machine.execIfence c rd ra rb s
  | .wfi c rd ra rb => Sys2Proof.Machine.execWfi c rd ra rb s
  | .halt c rd ra rb => Sys2Proof.Machine.execHalt c rd ra rb s
  | .interruptEntry c => Sys2Proof.Machine.execInterruptEntry c s
  | .icacheMissFill c ups => Sys2Proof.Machine.execIcacheMissFill c ups s
  | .sld c mode w => Sys2Proof.Machine.execSld c mode w s
  | .mma c mode w => Sys2Proof.Machine.execMma c mode w s
  | .ard c mode w => Sys2Proof.Machine.execArd c mode w s
  | .vopCopy c w => Sys2Proof.Machine.execVopCopy c w s
  | .vopAdd c w => Sys2Proof.Machine.execVopAdd c w s
  | .vopSub c w => Sys2Proof.Machine.execVopSub c w s
  | .vopMul c w => Sys2Proof.Machine.execVopMul c w s
  | .vopMax c w => Sys2Proof.Machine.execVopMax c w s
  | .vopMin c w => Sys2Proof.Machine.execVopMin c w s
  | .vopFma c w => Sys2Proof.Machine.execVopFma c w s
  | .vopCmplt c w => Sys2Proof.Machine.execVopCmplt c w s
  | .vopCmple c w => Sys2Proof.Machine.execVopCmple c w s
  | .vopCmpeq c w => Sys2Proof.Machine.execVopCmpeq c w s
  | .vopSel c w => Sys2Proof.Machine.execVopSel c w s
  | .vopDiv c w => Sys2Proof.Machine.execVopDiv c w s
  | .vopSqrt c w => Sys2Proof.Machine.execVopSqrt c w s
  | .vopExp2 c w => Sys2Proof.Machine.execVopExp2 c w s
  | .vopLog2 c w => Sys2Proof.Machine.execVopLog2 c w s
  | .vopRcp c w => Sys2Proof.Machine.execVopRcp c w s
  | .vopRsqrt c w => Sys2Proof.Machine.execVopRsqrt c w s
  | .vopExp c w => Sys2Proof.Machine.execVopExp c w s
  | .vopAbs c w => Sys2Proof.Machine.execVopAbs c w s
  | .vopNeg c w => Sys2Proof.Machine.execVopNeg c w s
  | .vredSum c w => Sys2Proof.Machine.execVredSum c w s
  | .vredMax c w => Sys2Proof.Machine.execVredMax c w s
  | .vredMin c w => Sys2Proof.Machine.execVredMin c w s
  | .vredSumsq c w => Sys2Proof.Machine.execVredSumsq c w s
  | .vredAbsmax c w => Sys2Proof.Machine.execVredAbsmax c w s
  | .cvt c mode w => Sys2Proof.Machine.execCvt c mode w s
  | .sms c mode w => Sys2Proof.Machine.execSms c mode w s
  | .topk c mode w => Sys2Proof.Machine.execTopk c mode w s
  | .hmov c mode w => Sys2Proof.Machine.execHmov c mode w s
  | .smov c mode w => Sys2Proof.Machine.execSmov c mode w s
  | .nsend c mode w => Sys2Proof.Machine.execNsend c mode w s
  | .nrecv c mode w => Sys2Proof.Machine.execNrecv c mode w s
  | .rwr c mode w => Sys2Proof.Machine.execRwr c mode w s
  | .rrd c mode w => Sys2Proof.Machine.execRrd c mode w s
  | .racc c mode w => Sys2Proof.Machine.execRacc c mode w s
  | .rmrg c mode w => Sys2Proof.Machine.execRmrg c mode w s
  | .tsig c mode w => Sys2Proof.Machine.execTsig c mode w s
  | .nbd c mode w => Sys2Proof.Machine.execNbd c mode w s
  | .udd c mode w => Sys2Proof.Machine.execUdd c mode w s
  | .bulkStart c q f => Sys2Proof.Machine.execBulkStart c q f s
  | .bulkComplete c slot => Sys2Proof.Machine.execBulkComplete c slot s
  | .settle c slot => Sys2Proof.Machine.execSettle c slot s
  | .replay c slot f => Sys2Proof.Machine.execReplay c slot f s
  | .replayWaitExpiry c slot => Sys2Proof.Machine.execReplayWaitExpiry c slot s
  | .poisonRepair c slot => Sys2Proof.Machine.execPoisonRepair c slot s
  | .tallyFailedClear req c => Sys2Proof.Machine.execTallyFailedClear req c s
  | .spStarveLimit c => Sys2Proof.Machine.execSpStarveLimit c s
  | .coreClear c => Sys2Proof.Machine.execCoreClear c s
  | .tokenIncrement n => Sys2Proof.Machine.execTokenIncrement n s
  | .interruptToWarden n => Sys2Proof.Machine.execInterruptToWarden n s
  | .settleNotice n => Sys2Proof.Machine.execSettleNotice n s
  | .faultNotice n => Sys2Proof.Machine.execFaultNotice n s
  | .mapUpdate n => Sys2Proof.Machine.execMapUpdate n s
  | .resetEnded n => Sys2Proof.Machine.execResetEnded n s
  | .reductionRestart n => Sys2Proof.Machine.execReductionRestart n s
  | .bringupCommand n => Sys2Proof.Machine.execBringupCommand n s
  | .biloRelay n => Sys2Proof.Machine.execBiloRelay n s
  | .packetHop n repeats => Sys2Proof.Machine.execPacketHop n repeats s
  | .retiredInjection st phys what => Sys2Proof.Machine.execRetiredInjection st phys what s
  | .planMerge c m => Sys2Proof.Machine.execPlanMerge c m s
  | .sendPacket a => Sys2Proof.Machine.execSendPacket a s
  | .remoteWrite n ups => Sys2Proof.Machine.execRemoteWrite n ups s
  | .readRequest n ups => Sys2Proof.Machine.execReadRequest n ups s
  | .readData a => Sys2Proof.Machine.execReadData a s
  | .accumulate n ups => Sys2Proof.Machine.execAccumulate n ups s
  | .merge n ups => Sys2Proof.Machine.execMerge n ups s
  | .status n => Sys2Proof.Machine.execStatus n s
  | .recvWaitLimit c channel => Sys2Proof.Machine.execRecvWaitLimit c channel s
  | .linkDown st phys port => Sys2Proof.Machine.execLinkDown st phys port s
  | .detourInstall st phys port => Sys2Proof.Machine.execDetourInstall st phys port s
  | .mapCommand req value => Sys2Proof.Machine.execMapCommand req value s
  | .mapChangeEnd => Sys2Proof.Machine.execMapChangeEnd  s
  | .haulDown st v => Sys2Proof.Machine.execHaulDown st v s
  | .refreshSlot st v bench bank => Sys2Proof.Machine.execRefreshSlot st v bench bank s
  | .vcRepair req st v value ups => Sys2Proof.Machine.execVcRepair req st v value ups s
  | .vcClear req st v value => Sys2Proof.Machine.execVcClear req st v value s
  | .slowChannelDown st => Sys2Proof.Machine.execSlowChannelDown st s
  | .slowClear req st => Sys2Proof.Machine.execSlowClear req st s
  | .writeBack slow a => Sys2Proof.Machine.execWriteBack slow a s
  | .scrubRow st v slow ups => Sys2Proof.Machine.execScrubRow st v slow ups s
  | .scrubPassLate st => Sys2Proof.Machine.execScrubPassLate st s
  | .nbModeEnable req st v => Sys2Proof.Machine.execNbModeEnable req st v s
  | .nbReady st v => Sys2Proof.Machine.execNbReady st v s
  | .nbModeDisable req st v => Sys2Proof.Machine.execNbModeDisable req st v s
  | .nbDrainEnd st v => Sys2Proof.Machine.execNbDrainEnd st v s
  | .nbCopy st v => Sys2Proof.Machine.execNbCopy st v s
  | .nbNot st v => Sys2Proof.Machine.execNbNot st v s
  | .nbAnd st v => Sys2Proof.Machine.execNbAnd st v s
  | .nbOr st v => Sys2Proof.Machine.execNbOr st v s
  | .nbXor st v => Sys2Proof.Machine.execNbXor st v s
  | .nbMaj3 st v => Sys2Proof.Machine.execNbMaj3 st v s
  | .nbDot st v => Sys2Proof.Machine.execNbDot st v s
  | .nbWsum st v => Sys2Proof.Machine.execNbWsum st v s
  | .nbPopc st v => Sys2Proof.Machine.execNbPopc st v s
  | .nbCommandStart st v bank ups => Sys2Proof.Machine.execNbCommandStart st v bank ups s
  | .nbCommandEnd st v bank => Sys2Proof.Machine.execNbCommandEnd st v bank s
  | .nbResultRead req tag a => Sys2Proof.Machine.execNbResultRead req tag a s
  | .rowRebuild st v => Sys2Proof.Machine.execRowRebuild st v s
  | .updLend st => Sys2Proof.Machine.execUpdLend st s
  | .lendEffect c => Sys2Proof.Machine.execLendEffect c s
  | .updRelease st => Sys2Proof.Machine.execUpdRelease st s
  | .updOpen st => Sys2Proof.Machine.execUpdOpen st s
  | .updClose st => Sys2Proof.Machine.execUpdClose st s
  | .updDrain st => Sys2Proof.Machine.execUpdDrain st s
  | .updRecon st => Sys2Proof.Machine.execUpdRecon st s
  | .exactUpdate st parityErrors lent => Sys2Proof.Machine.execExactUpdate st parityErrors lent s
  | .stalledContribution st v => Sys2Proof.Machine.execStalledContribution st v s
  | .updConfigWrite req st value => Sys2Proof.Machine.execUpdConfigWrite req st value s
  | .codewordReceive port w => Sys2Proof.Machine.execCodewordReceive port w s
  | .retrain port => Sys2Proof.Machine.execRetrain port s
  | .retrainComplete port partner isSwitch => Sys2Proof.Machine.execRetrainComplete port partner isSwitch s
  | .biloPacketArrival port p => Sys2Proof.Machine.execBiloPacketArrival port p s
  | .biloIdWrite req value => Sys2Proof.Machine.execBiloIdWrite req value s
  | .barrowOpen req value => Sys2Proof.Machine.execBarrowOpen req value s
  | .barrowRetire req value => Sys2Proof.Machine.execBarrowRetire req value s
  | .barrowExcuse req value => Sys2Proof.Machine.execBarrowExcuse req value s
  | .forwardLocalSegment barrow segment gen => Sys2Proof.Machine.execForwardLocalSegment barrow segment gen s
  | .nodeComplete barrow segment gen => Sys2Proof.Machine.execNodeComplete barrow segment gen s
  | .barrowContribution p => Sys2Proof.Machine.execBarrowContribution p s
  | .barrowDone p => Sys2Proof.Machine.execBarrowDone p s
  | .barrowResend p => Sys2Proof.Machine.execBarrowResend p s
  | .nodeTimeout barrow segment gen => Sys2Proof.Machine.execNodeTimeout barrow segment gen s
  | .configRequest r => Sys2Proof.Machine.execConfigRequest r s
  | .hostRead tag bar2 off len ups => Sys2Proof.Machine.execHostRead tag bar2 off len ups s
  | .hostWrite bar2 off data ep ups => Sys2Proof.Machine.execHostWrite bar2 off data ep ups s
  | .hostHoldLimit tag => Sys2Proof.Machine.execHostHoldLimit tag s
  | .doorbellTail q value => Sys2Proof.Machine.execDoorbellTail q value s
  | .doorbellChead q value => Sys2Proof.Machine.execDoorbellChead q value s
  | .qControlWrite req q value => Sys2Proof.Machine.execQControlWrite req q value s
  | .launch q => Sys2Proof.Machine.execLaunch q s
  | .mark q => Sys2Proof.Machine.execMark q s
  | .launchComplete q index => Sys2Proof.Machine.execLaunchComplete q index s
  | .msixUnmask v => Sys2Proof.Machine.execMsixUnmask v s
  | .restEnter req => Sys2Proof.Machine.execRestEnter req s
  | .d3hotEntry => Sys2Proof.Machine.execD3hotEntry  s
  | .restEntryEnd => Sys2Proof.Machine.execRestEntryEnd  s
  | .wake t => Sys2Proof.Machine.execWake t s
  | .wakeComplete => Sys2Proof.Machine.execWakeComplete  s
  | .iccClaim req c n => Sys2Proof.Machine.execIccClaim req c n s
  | .iccEoi req c n => Sys2Proof.Machine.execIccEoi req c n s
  | .iccStackReset req c => Sys2Proof.Machine.execIccStackReset req c s
  | .iccSend req c n => Sys2Proof.Machine.execIccSend req c n s
  | .iccRaise req c bits => Sys2Proof.Machine.execIccRaise req c bits s
  | .iccPendingClear req c bits => Sys2Proof.Machine.execIccPendingClear req c bits s
  | .icpClaim req n => Sys2Proof.Machine.execIcpClaim req n s
  | .icpEoi req n => Sys2Proof.Machine.execIcpEoi req n s
  | .icpStackReset req => Sys2Proof.Machine.execIcpStackReset req s
  | .icpRaise req w bits => Sys2Proof.Machine.execIcpRaise req w bits s
  | .icpPendingClear req w bits => Sys2Proof.Machine.execIcpPendingClear req w bits s
  | .icpFwdClear req st bits => Sys2Proof.Machine.execIcpFwdClear req st bits s
  | .stepEvaluation st r => Sys2Proof.Machine.execStepEvaluation st r s
  | .voltageUpdate st r => Sys2Proof.Machine.execVoltageUpdate st r s
  | .frequencyCommand c => Sys2Proof.Machine.execFrequencyCommand c s
  | .clockStretch c => Sys2Proof.Machine.execClockStretch c s
  | .sensorRead st r => Sys2Proof.Machine.execSensorRead st r s
  | .coolantRead r => Sys2Proof.Machine.execCoolantRead r s
  | .thermalTrip st kind unitNo temp => Sys2Proof.Machine.execThermalTrip st kind unitNo temp s
  | .telemetryFrame r => Sys2Proof.Machine.execTelemetryFrame r s
  | .pwrTimeRefWrite req high => Sys2Proof.Machine.execPwrTimeRefWrite req high s
  | .pwrCapWrite req value => Sys2Proof.Machine.execPwrCapWrite req value s
  | .sthmSuspectClear req st value => Sys2Proof.Machine.execSthmSuspectClear req st value s
  | .packageReset => Sys2Proof.Machine.execPackageReset  s
  | .clocks req full t => Sys2Proof.Machine.execClocks req full t s
  | .memory req full t => Sys2Proof.Machine.execMemory req full t s
  | .links req full t => Sys2Proof.Machine.execLinks req full t s
  | .cores req full t => Sys2Proof.Machine.execCores req full t s
  | .service req full => Sys2Proof.Machine.execService req full s
  | .bringupStepEnd elapsed => Sys2Proof.Machine.execBringupStepEnd elapsed s
  | .coreReset req target hold => Sys2Proof.Machine.execCoreReset req target hold s
  | .coreResetRelease req => Sys2Proof.Machine.execCoreResetRelease req s
  | .stackReset req st => Sys2Proof.Machine.execStackReset req st s
  | .partitionReset req mask => Sys2Proof.Machine.execPartitionReset req mask s
  | .resetEnd portsUp => Sys2Proof.Machine.execResetEnd portsUp s
  | .retiredCurrentCheck st phys above => Sys2Proof.Machine.execRetiredCurrentCheck st phys above s
  | .repairRecordWrite => Sys2Proof.Machine.execRepairRecordWrite  s
  | .attest req => Sys2Proof.Machine.execAttest req s
  | .extend req value => Sys2Proof.Machine.execExtend req value s
  | .updateChunk req value flashFails => Sys2Proof.Machine.execUpdateChunk req value flashFails s
  | .challenge req => Sys2Proof.Machine.execChallenge req s
  | .submit req => Sys2Proof.Machine.execSubmit req s
  | .relock req => Sys2Proof.Machine.execRelock req s
  | .nonceLapse => Sys2Proof.Machine.execNonceLapse  s
  | .debugRead size ups => Sys2Proof.Machine.execDebugRead size ups s
  | .debugWrite size ups => Sys2Proof.Machine.execDebugWrite size ups s
  | .cdbgHalt req c halt => Sys2Proof.Machine.execCdbgHalt req c halt s
  | .cdbgStep req c ups => Sys2Proof.Machine.execCdbgStep req c ups s
  | .cdbgRegisterWrite req c isPc n value => Sys2Proof.Machine.execCdbgRegisterWrite req c isPc n value s
  | .inputOutOfRange e => Sys2Proof.Machine.execInputOutOfRange e s
  | .pwrgdInDeassert => Sys2Proof.Machine.execPwrgdInDeassert  s
  | .shutterSave tripDuring holdcapDies => Sys2Proof.Machine.execShutterSave tripDuring holdcapDies s
  | .holdcapMeasure mv cap => Sys2Proof.Machine.execHoldcapMeasure mv cap s
  | .mctpControl r => Sys2Proof.Machine.execMctpControl r s
  | .pldmRequest r => Sys2Proof.Machine.execPldmRequest r s
  | .vendorFrameRequest r => Sys2Proof.Machine.execVendorFrameRequest r s
  | .shutControlClear req => Sys2Proof.Machine.execShutControlClear req s
  | .evtTailWrite req value => Sys2Proof.Machine.execEvtTailWrite req value s
  | .wardenBoot b => Sys2Proof.Machine.execWardenBoot b s
  | .registerRead req tag addr size => Sys2Proof.Machine.execRegisterRead req tag addr size s
  | .forwarderAnswer a => Sys2Proof.Machine.execForwarderAnswer a s
  | .clockStretchEnd c => Sys2Proof.Machine.execClockStretchEnd c s
  | .vcClearEnd st v => Sys2Proof.Machine.execVcClearEnd st v s
  | .vcRepairEnd st v => Sys2Proof.Machine.execVcRepairEnd st v s
  | .slowClearEnd st => Sys2Proof.Machine.execSlowClearEnd st s
  | .retiredHaulRow st phys => Sys2Proof.Machine.execRetiredHaulRow st phys s
  | .vaux12Loss => Sys2Proof.Machine.execVaux12Loss  s

end Sys2Proof.Machine
end

