-- ==== Sys2Proof/Machine/Tick.lean ====
section
/-! DEFINITION. What passes with a cycle of the warden's 1.0 GHz count while no command waits (R19, R23, R82): the count
itself, the counts of the base dies, the cycle counts of cores that are On (log entry 4), and a barrow command that can go on. -/

namespace Sys2Proof.Machine

/-- Thousandths of cycles that an island of a nominal rate in MHz gains while the warden's count advances by one: between
none and twice its rate, as nothing fixes (R19). -/
def islandGain (n island mhz : Nat) : Nat := mhz * (Config.pace n island % 2001) / 1000

/-- A core's share of a tick: its own clock advances, and with it NI_MERGE_WAIT while its router holds packets for a merge
plan (R236). -/
def State.tickCore (n : Nat) (s : State) (c : Nat) : State :=
  let k := s.core c
  if k.power ≠ 2 then s
  else
    -- a stretched clock runs at half (R427)
    let f := k.cycleFrac + islandGain n (16 + c) (s.fld (cA c CORE_CLOCK) 26 16 / (if k.droop then 2 else 1))
    let s := (s.modCore c fun k => { k with cycleFrac := f % 1000 }).count (cA c CORE_CYCLES) (f / 1000)
    if s.net.packets.any fun p => p.place == .router c && p.plan.isSome then s.count (cA c NI_MERGE_WAIT) (f / 1000) else s

/-- A base die's share of a tick. -/
def State.tickStack (n : Nat) (s : State) (t : Nat) : State :=
  s.modStack t fun k => { k with cycles := k.cycles + BitVec.ofNat 64 (islandGain n t 1000 / 1000) }

/-- One cycle of the warden's count; islands whose clocks stand stopped gain nothing (R441, R491, R508). -/
def State.tick (s : State) : State :=
  if s.warden.stopped = 2 then s
  else
    let n := s.freeCtr
    let s := { s with now := s.now + 1, freeCtr := n + 1 }
    if s.warden.stopped ≠ 0 then s
    else ((s.cores.map (·.1)).foldl (State.tickCore n) ((List.range 16).foldl (State.tickStack n) s)).biloOn

end Sys2Proof.Machine
end

