-- ==== Sys2Proof/Machine/Step.lean ====
section
/-! DEFINITION. The step of the block: the command at the front of the queue, or on an empty queue one tick. -/

namespace Sys2Proof.Machine

/-- One step: the front command on the state with the queue's rest; on an empty queue a cycle of the 1.0 GHz count passes
(log entry 4), and the host's writes that nothing holds any longer are performed (R403). -/
def step (s : State) : Host.Outcome State Fault Refusal :=
  match s.pending with
  | [] => s.tick.performPosted
  | i :: rest => exec i { s with pending := rest }

/-- The state with the command a word spells at the front of its queue; no word spells one. -/
def State.withFetchWord (s : State) (nbits w : Nat) : State :=
  match decodeTableWord nbits w with
  | some i => { s with pending := i :: s.pending }
  | none => s

end Sys2Proof.Machine
end

