-- ==== Sys2Proof/Safety.lean ====
section
/-! DEFINITION. The terms claims use: what a sound state is, what a command that answers a next state comes to, and the frames
of the control core's instructions. -/

namespace Sys2Proof.Machine

/-! ### Sound states -/

/-- The canonical form of the module's memory. -/
abbrev Memory.wf (m : List Host.Cell) : Prop := smWf (0 : Byte) m = true

/-! ### Outcomes -/

/-- A command answers a next state of which `P` holds. -/
def Answers (i : Instr) (s : State) (P : State → Prop) : Prop := ∃ t, exec i s = .next t ∧ P t

/-! ### The control core -/

/-- Core c's control core takes its next instruction: it is On, running, not halted, its island not stopped (R98, R441, R492),
and pc is aligned and lies in its own vault or scratchpad (R113). -/
def Ready (s : State) (c : Nat) : Prop := s.fetching c = true ∧ (fetchAddr c (s.core c).pc).isSome = true

/-- Nothing differs but core c. -/
def OnlyCore (c : Nat) (s t : State) : Prop := (∀ d, d ≠ c → t.core d = s.core d) ∧ { t with cores := s.cores } = s

/-- Core c completed an instruction and went on at `pc`, having written `v` to register rd, where g0 discards it (R104); nothing
else has changed. -/
structure Completed (c : Nat) (rd : BitVec 5) (v : W64) (pc : Addr) (s t : State) : Prop where
  value : t.gpr c rd = if rd = 0 then 0 else v
  others : ∀ r, r ≠ rd → t.gpr c r = s.gpr c r
  core : t.core c = { s.core c with g := (t.core c).g, pc := pc, retired := (s.core c).retired + 1 }
  frame : OnlyCore c s t

/-- The address of the next instruction. -/
def State.nextPc (s : State) (c : Nat) : Addr := (s.core c).pc + 4

/-- STATUS as trap entry makes it from `old` (R126): PMODE from MODE, PIE from IE, IE 0, MODE 1, TRAP 1. -/
def TrapEntered (old new : W64) : Prop :=
  new.getLsbD 4 = true ∧ new.getLsbD 3 = old.getLsbD 1 ∧ new.getLsbD 2 = old.getLsbD 0 ∧ new.getLsbD 1 = false
    ∧ new.getLsbD 0 = true ∧ ∀ i, 5 ≤ i → new.getLsbD i = false

/-- Core c entered its trap handler with a cause and a value (R126); nothing else has changed. -/
structure Entered (c : Nat) (cause value : W64) (s t : State) : Prop where
  status : TrapEntered (s.core c).status (t.core c).status
  core : t.core c = { s.core c with tpc := (s.core c).pc.setWidth 64, cause := cause, tval := value,
                                    status := (t.core c).status, pc := (s.core c).tvec.setWidth 46 }
  frame : OnlyCore c s t

/-- Core c took a synchronous trap: it entered its handler, or with TRAP set stopped fetching with source 10 raised (R127). -/
def Trapped (c : Nat) (cause : Nat) (value : W64) (s t : State) : Prop :=
  if (s.core c).status.getLsbD 4 then t = (s.modCore c fun k => { k with run := .doubleTrapped }).raiseCore c 10
  else Entered c (BitVec.ofNat 64 cause) value s t

end Sys2Proof.Machine
end

