-- ==== Sys2Proof/Claims.lean ====
section
/-! DEFINITION. What the spec's rules give, said in the terms the statements use: integer forms of arithmetic, groups of commands
of one shape. -/

namespace Sys2Proof.Claims

/-- 1 for true (R107, R108). -/
def one (p : Bool) : W64 := if p then 1 else 0

/-- The functions of R108 on two registers, in integers. -/
def aluFunctions (c : CoreId) (rd ra rb : BitVec 5) : List (Instr × (W64 → W64 → W64)) :=
  [(.add c rd ra rb, fun a b => BitVec.ofInt 64 (a.toInt + b.toInt)),
   (.sub c rd ra rb, fun a b => BitVec.ofInt 64 (a.toInt - b.toInt)),
   (.and c rd ra rb, fun a b => a &&& b),
   (.or c rd ra rb, fun a b => a ||| b),
   (.xor c rd ra rb, fun a b => a ^^^ b),
   (.sll c rd ra rb, fun a b => BitVec.ofNat 64 (a.toNat * 2 ^ (b.toNat % 64))),
   (.srl c rd ra rb, fun a b => BitVec.ofNat 64 (a.toNat / 2 ^ (b.toNat % 64))),
   (.sra c rd ra rb, fun a b => BitVec.ofInt 64 (a.toInt / 2 ^ (b.toNat % 64))),
   (.slt c rd ra rb, fun a b => one (decide (a.toInt < b.toInt))),
   (.sltu c rd ra rb, fun a b => one (decide (a.toNat < b.toNat))),
   (.min c rd ra rb, fun a b => BitVec.ofInt 64 (Min.min a.toInt b.toInt)),
   (.max c rd ra rb, fun a b => BitVec.ofInt 64 (Max.max a.toInt b.toInt)),
   (.minu c rd ra rb, fun a b => BitVec.ofNat 64 (Min.min a.toNat b.toNat)),
   (.maxu c rd ra rb, fun a b => BitVec.ofNat 64 (Max.max a.toNat b.toNat)),
   (.mul c rd ra rb, fun a b => BitVec.ofNat 64 (a.toNat * b.toNat)),
   (.mulh c rd ra rb, fun a b => BitVec.ofInt 64 (a.toInt * b.toInt / 2 ^ 64)),
   (.mulhu c rd ra rb, fun a b => BitVec.ofNat 64 (a.toNat * b.toNat / 2 ^ 64)),
   (.div c rd ra rb, fun a b => if b = 0 then BitVec.ofInt 64 (-1) else BitVec.ofInt 64 (a.toInt.tdiv b.toInt)),
   (.divu c rd ra rb, fun a b => if b = 0 then BitVec.ofInt 64 (-1) else BitVec.ofNat 64 (a.toNat / b.toNat)),
   (.rem c rd ra rb, fun a b => if b = 0 then a else BitVec.ofInt 64 (a.toInt.tmod b.toInt)),
   (.remu c rd ra rb, fun a b => if b = 0 then a else BitVec.ofNat 64 (a.toNat % b.toNat))]

/-- n leading zeros: they are zeros, and the bit after them, where there is one, is set. -/
def LeadingZeros (a : W64) (n : Nat) : Prop :=
  n ≤ 64 ∧ (∀ i, i < n → a.getLsbD (63 - i) = false) ∧ (n < 64 → a.getLsbD (63 - n) = true)

/-- n trailing zeros. -/
def TrailingZeros (a : W64) (n : Nat) : Prop :=
  n ≤ 64 ∧ (∀ i, i < n → a.getLsbD i = false) ∧ (n < 64 → a.getLsbD n = true)

/-- The number of set bits. -/
def setBits (a : W64) : Nat := (List.range 64).countP fun i => a.getLsbD i

/-- The immediate forms of R107 other than lui and shi, in integers. -/
def immediateFunctions (c : CoreId) (rd ra : BitVec 5) (imm : W16) : List (Instr × (W64 → W64)) :=
  [(.addi c rd ra imm, fun a => BitVec.ofInt 64 (a.toInt + imm.toInt)),
   (.andi c rd ra imm, fun a => a &&& BitVec.ofInt 64 imm.toInt),
   (.ori c rd ra imm, fun a => a ||| BitVec.ofNat 64 imm.toNat),
   (.xori c rd ra imm, fun a => a ^^^ BitVec.ofNat 64 imm.toNat),
   (.slti c rd ra imm, fun a => one (decide (a.toInt < imm.toInt))),
   (.sltiu c rd ra imm, fun a => one (decide (a.toNat < (BitVec.ofInt 64 imm.toInt).toNat))),
   (.shori c rd ra imm, fun a => BitVec.ofNat 64 (a.toNat * 65536 + imm.toNat))]

/-- A shift of R107's shi: 0 left, 1 right zero-filled, 2 right sign-filled. -/
def shifted (kind n : Nat) (a : W64) : W64 :=
  if kind = 0 then BitVec.ofNat 64 (a.toNat * 2 ^ n)
  else if kind = 1 then BitVec.ofNat 64 (a.toNat / 2 ^ n) else BitVec.ofInt 64 (a.toInt / 2 ^ n)

/-- The conditions of R107's branches, in integers. -/
def branchConditions (c : CoreId) (ra rb : BitVec 5) (off : W16) : List (Instr × (W64 → W64 → Bool)) :=
  [(.beq c ra rb off, fun a b => decide (a.toNat = b.toNat)),
   (.bne c ra rb off, fun a b => decide (a.toNat ≠ b.toNat)),
   (.blt c ra rb off, fun a b => decide (a.toInt < b.toInt)),
   (.bge c ra rb off, fun a b => decide (b.toInt ≤ a.toInt)),
   (.bltu c ra rb off, fun a b => decide (a.toNat < b.toNat)),
   (.bgeu c ra rb off, fun a b => decide (b.toNat ≤ a.toNat))]

/-- The upsets that a load or store meets. -/
def upsetsOf : Instr → List Upset
  | .lb _ _ _ _ u | .lbu _ _ _ _ u | .lh _ _ _ _ u | .lhu _ _ _ _ u | .lw _ _ _ _ u | .lwu _ _ _ _ u | .ld _ _ _ _ u => u
  | .sb _ _ _ _ u | .sh _ _ _ _ u | .sw _ _ _ _ u | .sd _ _ _ _ u => u
  | _ => []

end Sys2Proof.Claims

namespace Sys2Proof.Claims

open Sys2Proof.Machine

/-- Bytes as a number, the first the lowest (R7). -/
def number : List Byte → Nat
  | [] => 0
  | b :: bs => b.toNat + 256 * number bs

/-- The low n bytes of a word, as a number of 8 n bits, signed. -/
def signedNumber (n v : Nat) : Int := if 2 * v < 256 ^ n then v else (v : Int) - 256 ^ n

/-- The loads of R107: bytes and whether sign-extended. -/
def loads (c : CoreId) (rd ra : BitVec 5) (imm : W16) (ups : List Upset) : List (Instr × Nat × Bool) :=
  [(.lb c rd ra imm ups, 1, true), (.lbu c rd ra imm ups, 1, false), (.lh c rd ra imm ups, 2, true),
   (.lhu c rd ra imm ups, 2, false), (.lw c rd ra imm ups, 4, true), (.lwu c rd ra imm ups, 4, false),
   (.ld c rd ra imm ups, 8, false)]

/-- The stores of R107 and their bytes. -/
def stores (c : CoreId) (rd ra : BitVec 5) (imm : W16) (ups : List Upset) : List (Instr × Nat) :=
  [(.sb c rd ra imm ups, 1), (.sh c rd ra imm ups, 2), (.sw c rd ra imm ups, 4), (.sd c rd ra imm ups, 8)]

/-- Every load and store with its opcode, bytes and whether it stores. -/
def accesses (c : CoreId) (rd ra : BitVec 5) (imm : W16) (ups : List Upset) : List (Instr × Nat × Nat × Bool) :=
  [(.lb c rd ra imm ups, 0x10, 1, false), (.lbu c rd ra imm ups, 0x11, 1, false), (.lh c rd ra imm ups, 0x12, 2, false),
   (.lhu c rd ra imm ups, 0x13, 2, false), (.lw c rd ra imm ups, 0x14, 4, false), (.lwu c rd ra imm ups, 0x15, 4, false),
   (.ld c rd ra imm ups, 0x16, 8, false), (.sb c rd ra imm ups, 0x18, 1, true), (.sh c rd ra imm ups, 0x19, 2, true),
   (.sw c rd ra imm ups, 0x1A, 4, true), (.sd c rd ra imm ups, 0x1B, 8, true)]

/-- The address of a load or store (R109). -/
def dataAddr (s : State) (c : CoreId) (ra : BitVec 5) (imm : W16) : W64 := BitVec.ofInt 64 ((s.gpr c.toNat ra).toInt + imm.toInt)

/-- An address in core c's own scratchpad, by device address or by the local alias, and the scratchpad offset it names (R109). -/
def ownScratchpad (c : CoreId) (a : W64) (off : Nat) : Prop :=
  off < 0x200000 ∧ (a.toNat = 0x3E0000000000 + 0x200000 * c.toNat + off ∨ a.toNat = 0x3E8000000000 + off)

/-- An address in the ranges that are for privileged mode (R109). -/
def ownRegisters (c : CoreId) (a : W64) : Prop :=
  (0x3F0000000000 + 0x10000 * c.toNat ≤ a.toNat ∧ a.toNat < 0x3F0000000000 + 0x10000 * (c.toNat + 1)) ∨
    (0x3F8000000000 ≤ a.toNat ∧ a.toNat < 0x3F8000010000) ∨
    (0x3F0100000000 + 0x100000 * (c.toNat / 64) ≤ a.toNat ∧ a.toNat < 0x3F0100000000 + 0x100000 * (c.toNat / 64 + 1))

/-- The device address of an offset of core c's scratchpad (R6). -/
def spAddr (c : CoreId) (off : Nat) : Nat := 0x3E0000000000 + 0x200000 * c.toNat + off

/-- Some pitch of master 0 covers the bank words of n bytes at an offset and grants the access (R93, R94). -/
def Granted (s : State) (c : CoreId) (off n : Nat) (write : Bool) : Prop :=
  ∃ p, p < 8 ∧ s.bit (cA c.toNat (PITCH + 4 * p)) (if write then 30 else 31) = true ∧
    s.fld (cA c.toNat (PITCH + 4 * p)) 12 0 ≤ off / 256 ∧ (off + n - 1) / 256 ≤ s.fld (cA c.toNat (PITCH + 4 * p)) 28 16

/-- The state registers that exist (R115, R142): number, whether privileged, and what each reads as. -/
def stateRegisters (s : State) (c : CoreId) : List (Nat × Bool × W64) :=
  let k := s.core c.toNat
  [(0x000, true, k.status), (0x001, true, k.cause), (0x002, true, k.tpc), (0x003, true, k.tval), (0x004, true, k.tvec),
   (0x005, true, k.scratch0), (0x006, true, k.scratch1), (0x008, false, s.reg (cA c.toNat CORE_CYCLES)),
   (0x009, false, k.retired), (0x00A, false, BitVec.ofNat 64 c.toNat), (0x010, false, BitVec.ofNat 64 (512 - k.tally.length)),
   (0x100, false, k.seed), (0x101, false, k.stepNo.setWidth 64), (0x102, false, k.idxBase.setWidth 64),
   (0x103, false, k.vscalar.setWidth 64)]

/-- The state registers that can be written (R115, R116, R142): number, whether privileged, the bits that must be zero, and the
core after a write. -/
def writableRegisters (v : W64) (k : Core) : List (Nat × Bool × W64 × Core) :=
  [(0x000, true, 0xFFFFFFFFFFFFFFE0, { k with status := v }), (0x001, true, 0x7FFFFFFFFFFFFF00, { k with cause := v }),
   (0x002, true, 0, { k with tpc := v }), (0x003, true, 0, { k with tval := v }),
   (0x004, true, 0, { k with tvec := v &&& 0xFFFFFFFFFFFFFFFC }), (0x005, true, 0, { k with scratch0 := v }),
   (0x006, true, 0, { k with scratch1 := v }), (0x100, false, 0, { k with seed := v }),
   (0x101, false, 0xFFFFFFFF00000000, { k with stepNo := v.setWidth 32 }),
   (0x102, false, 0xFFFFFFFF00000000, { k with idxBase := v.setWidth 32 }),
   (0x103, false, 0xFFFFFFFF00000000, { k with vscalar := v.setWidth 32 })]

/-- Core c completed an instruction that changed only its own fields other than the general registers: it is `k` gone on. -/
def CoreWritten (c : CoreId) (k : Core) (s t : State) : Prop :=
  t.core c.toNat = { k with pc := (s.core c.toNat).pc + 4, retired := (s.core c.toNat).retired + 1 } ∧ OnlyCore c.toNat s t

/-- A token counter's value: TOK_COUNT, 0 for token 0 (R118, R122). -/
def counter (s : State) (c : CoreId) (t : BitVec 4) : Nat :=
  if t = 0 then 0 else s.fld (cA c.toNat (TOK_COUNT + 4 * (t.toNat - 1))) 7 0

/-- Core c completed an instruction that set counter t to n (token 0 is no counter) and wrote v to rd; every other counter, register
and part of the state is as before. -/
structure Counted (c : CoreId) (t : BitVec 4) (n : Nat) (rd : BitVec 5) (v : W64) (s u : State) : Prop where
  value : counter u c t = if t = 0 then 0 else n
  others : ∀ a, t = 0 ∨ a ≠ cA c.toNat (TOK_COUNT + 4 * (t.toNat - 1)) → u.reg a = s.reg a
  rest : Completed c.toNat rd v (s.nextPc c.toNat) { s with regs := u.regs } u

/-- A register's 64-bit counter went up by one; nothing else changed. -/
def OnlyCountsUp (a : Nat) (s u : State) : Prop :=
  u.reg a = s.reg a + 1 ∧ (∀ x, x ≠ a → u.reg x = s.reg x) ∧ { u with regs := s.regs } = s

/-- A source of core c's controller is pending (R124). -/
def SomePending (s : State) (c : CoreId) : Prop := ∃ n, n < 64 ∧ s.bit (cA c.toNat ICC_PENDING) n = true

/-- Source n of core c's controller is pending, enabled, and of a priority above the running one and above 0 (R415). -/
def Deliverable (s : State) (c : CoreId) (n : Nat) : Prop :=
  1 ≤ n ∧ n ≤ 63 ∧ s.bit (cA c.toNat ICC_PENDING) n = true ∧ s.bit (cA c.toNat ICC_ENABLE) n = true ∧
    s.fld (cA c.toNat ICC_STATUS) 15 12 < s.fld (cA c.toNat (ICC_SRC + 4 * (n - 1))) 3 0

end Sys2Proof.Claims

namespace Sys2Proof.Claims

open Sys2Proof.Machine

/-! ### Bulk instructions -/

/-- No flag and no op-specific bit is set but those an opcode uses; FWD, flag 3, is every opcode's (R131). -/
def usesOnly (w : BulkWord) (flags : BitVec 4) (op : BitVec 20) : Prop :=
  (∀ i, w.flags.getLsbD i = true → i = 3 ∨ flags.getLsbD i = true) ∧ ∀ i, w.op.getLsbD i = true → op.getLsbD i = true

/-- DEVICE, op-specific [13:0], is zero unless GLOBAL, flag 2, is set (R181). -/
def deviceNamed (w : BulkWord) : Prop := w.flags.getLsbD 2 = true ∨ ∀ i, i < 14 → w.op.getLsbD i = false

/-- VOP's functions of one operand, with their mode (R154). -/
def vopOne (c : CoreId) (w : BulkWord) : List (Instr × Byte) :=
  [(.vopCopy c w, 0x00), (.vopSqrt c w, 0x11), (.vopExp2 c w, 0x12), (.vopLog2 c w, 0x13), (.vopRcp c w, 0x14),
   (.vopRsqrt c w, 0x15), (.vopExp c w, 0x16), (.vopAbs c w, 0x18), (.vopNeg c w, 0x19)]

/-- VOP's functions of two operands, with their mode. -/
def vopTwo (c : CoreId) (w : BulkWord) : List (Instr × Byte) :=
  [(.vopAdd c w, 0x01), (.vopSub c w, 0x02), (.vopMul c w, 0x03), (.vopMax c w, 0x04), (.vopMin c w, 0x05),
   (.vopCmplt c w, 0x08), (.vopCmple c w, 0x09), (.vopCmpeq c w, 0x0A), (.vopDiv c w, 0x10)]

/-- VOP's functions of three operands, with their mode. -/
def vopThree (c : CoreId) (w : BulkWord) : List (Instr × Byte) := [(.vopFma c w, 0x06), (.vopSel c w, 0x0B)]

/-- VRED's functions, with their mode (R156). -/
def vredAll (c : CoreId) (w : BulkWord) : List (Instr × Byte) :=
  [(.vredSum c w, 0), (.vredMax c w, 1), (.vredMin c w, 2), (.vredSumsq c w, 3), (.vredAbsmax c w, 4)]

/-- The bulk instructions that carry a mode of their own: opcode, queue and what R130, R143 to R192 ask of the words. -/
def bulkModes (c : CoreId) (mode : Byte) (w : BulkWord) : List (Instr × Nat × Nat × Prop) :=
  [(.sld c mode w, 0x01, w.flags.toNat % 2, usesOnly w 1 0 ∧ mode = 0 ∧ w.b = 0 ∧ w.d = 0),
   (.mma c mode w, 0x02, w.flags.toNat % 2, usesOnly w 7 0x1FF ∧ mode = 0 ∧ w.b = 0 ∧ w.d = 0),
   (.ard c mode w, 0x03, w.flags.toNat % 2, usesOnly w 3 0 ∧ mode = 0 ∧ w.b = 0),
   (.cvt c mode w, 0x0A, 2, usesOnly w 0 0 ∧ mode.toNat % 32 = 0 ∧ w.b = 0),
   (.sms c mode w, 0x0B, 2, usesOnly w 0 0xF0000 ∧ mode.toNat < 4 ∧ (mode.toNat < 2 ∨ w.b = 0)),
   (.topk c mode w, 0x0C, 2, usesOnly w 0 0xFF07F ∧ mode.toNat < 4 ∧ (2 ≤ mode.toNat ∨ (w.b = 0 ∧ w.op.toNat < 0x10000))),
   (.hmov c mode w, 0x20, 3, usesOnly w 0 0 ∧ mode = 0 ∧ w.b = 0),
   (.smov c mode w, 0x21, 3, usesOnly w 0 0 ∧ mode = 0 ∧ w.b = 0),
   (.nsend c mode w, 0x24, 4, usesOnly w 0 0xFFFFC ∧ mode.toNat < 3 ∧ w.b = 0 ∧ w.d = 0),
   (.nrecv c mode w, 0x25, 4, usesOnly w 0 0x0FFFC ∧ mode.toNat < 3 ∧ w.a = 0 ∧ w.b = 0),
   (.rwr c mode w, 0x28, 4, usesOnly w 4 0x03FFF ∧ mode = 0 ∧ w.b = 0 ∧ deviceNamed w),
   (.rrd c mode w, 0x29, 4, usesOnly w 4 0x03FFF ∧ mode = 0 ∧ w.b = 0 ∧ deviceNamed w),
   (.racc c mode w, 0x2A, 4, usesOnly w 4 0xFFFFF ∧ w.b = 0 ∧ deviceNamed w),
   (.rmrg c mode w, 0x2B, 4, usesOnly w 4 0xFFFFF ∧ w.b = 0 ∧ deviceNamed w),
   (.tsig c mode w, 0x30, 4, usesOnly w 0 0x0000F ∧ mode = 0 ∧ w.a = 0 ∧ w.b = 0 ∧ w.d = 0),
   (.nbd c mode w, 0x34, 5, usesOnly w 2 0 ∧ mode = 0 ∧ (w.flags.getLsbD 1 = true ∨ w.b = 0)),
   (.udd c mode w, 0x38, 6, usesOnly w 0 0 ∧ mode = 0 ∧ w.b = 0 ∧ w.d = 0)]

/-- Every bulk instruction: opcode, queue, mode and what its words must be. BMODE of VOP, flags [1:0], gives B its shape; 3 takes
VSCALAR and B zero (R154). -/
def bulkAll (c : CoreId) (mode : Byte) (w : BulkWord) : List (Instr × Nat × Nat × Byte × Prop) :=
  (bulkModes c mode w).map (fun p => (p.1, p.2.1, p.2.2.1, mode, p.2.2.2)) ++
  (vopOne c w).map (fun p => (p.1, 0x08, 2, p.2, usesOnly w 0 0 ∧ w.b = 0)) ++
  (vopTwo c w).map (fun p => (p.1, 0x08, 2, p.2, usesOnly w 3 0 ∧ (w.flags.toNat % 4 ≠ 3 ∨ w.b = 0))) ++
  (vopThree c w).map (fun p => (p.1, 0x08, 2, p.2, usesOnly w 3 0xF0000 ∧ (w.flags.toNat % 4 ≠ 3 ∨ w.b = 0))) ++
  (vredAll c w).map (fun p => (p.1, 0x09, 2, p.2, usesOnly w 0 0 ∧ w.b = 0))

/-- The queues' depths (R77): the two engines, the vector unit, the haul DMA, the network interface, near-bank and update-unit
dispatch. -/
def depth (q : Nat) : Nat := if q < 3 then 32 else if q < 5 then 64 else if q = 5 then 32 else 16

/-- Core c's control core does not stall at a bulk instruction of queue q (R79). -/
def Room (s : State) (c : CoreId) (q : Nat) : Prop :=
  let t := (s.core c.toNat).tally
  t.countP (fun e => e.queue == q && e.state == .queued) < depth q ∧ t.length < 512 ∧
    ((s.core c.toNat).lentTo = none ∨ t.countP (fun e => !e.unit) < 496)

/-- Tile descriptor n of core c (R117). -/
def descriptor (s : State) (c : CoreId) (n : BitVec 4) : Desc :=
  let w (i : Nat) := smGet (0 : W64) (s.core c.toNat).td (4 * n.toNat + i)
  ⟨w 0, w 1, w 2, w 3⟩

/-- A bulk instruction took a free slot of the tally, at the end of program order, with its words, descriptors and settings copied,
and waits in its queue; its generation is one more than the slot's last, 1 after 127 (R77, R117, R199, R200, R201). -/
def Issued (c : CoreId) (opcode q : Nat) (mode : Byte) (w : BulkWord) (s t : State) : Prop :=
  let k := s.core c.toNat
  ∃ e : Entry, e.opcode = opcode ∧ e.queue = q ∧ e.mode = mode ∧ e.word = w ∧ e.state = .queued ∧ e.done = false ∧ e.fault = 0 ∧
    e.a = descriptor s c w.a ∧ e.b = descriptor s c w.b ∧ e.d = descriptor s c w.d ∧
    e.seed = k.seed ∧ e.stepNo = k.stepNo ∧ e.idxBase = k.idxBase ∧ e.vscalar = k.vscalar ∧
    e.slot < 512 ∧ (∀ x ∈ k.tally, x.slot ≠ e.slot) ∧
    e.gen = (if smGet 0 k.gens e.slot = 127 then 1 else smGet 0 k.gens e.slot + 1) ∧
    t.core c.toNat = { k with tally := k.tally ++ [e], gens := smSet 0 k.gens e.slot e.gen, pc := k.pc + 8, retired := k.retired + 1 } ∧
    OnlyCore c.toNat s t

/-- Two states that differ in registers only, and in these at the addresses of a list only. -/
def OnlyRegs (as : List Nat) (s t : State) : Prop := (∀ a, a ∉ as → t.reg a = s.reg a) ∧ { t with regs := s.regs } = s

/-! ### Operations of the tally -/

/-- The module's clocks run (R441, R491, R508). -/
def Running (s : State) : Prop := s.warden.stopped = 0

/-- Operation e, the head of queue q of core c, starts now (R77, R78, R133, R202, R205): the core is On, its unit has room, its wait
token is there, and no hold or list of producers keeps it back. -/
def Starts (s : State) (c : CoreId) (q : Nat) (e : Entry) : Prop :=
  s.queueHead c.toNat q = some e ∧ s.entry c.toNat e.slot = some e ∧ (s.core c.toNat).power = 2 ∧ s.unitFree c.toNat q e = true ∧
    (q ≤ 1 → (s.core c.toNat).lentTo = none ∨ e.unit = true) ∧
    (e.word.wait = 0 ∨ 0 < counter s c e.word.wait) ∧ (s.producersOf c.toNat e).length ≤ 8 ∧
    s.readHold c.toNat e = false ∧ s.writeHold c.toNat e = false

/-- The address of a token's counter; token 0 has none. -/
def tokenRegs (c : CoreId) (t : BitVec 4) : List Nat := if t = 0 then [] else [cA c.toNat (TOK_COUNT + 4 * (t.toNat - 1))]

/-- A tile of one row of a format that is not a block format, in the scratchpad. -/
def OneRow (d : Desc) : Prop := d.kind = 0 ∧ d.rows = 1 ∧ 5 < d.fmt

/-- The bytes of a one-row tile in core c's scratchpad: device address and length. -/
def rowAddr (c : CoreId) (d : Desc) : Nat := spAddr c d.base

/-- The row of d now holds what that of a held; no other byte of memory and no unit's mark has changed. -/
def RowCopied (c : CoreId) (a d : Desc) (s t : State) : Prop :=
  (∀ x, t.byte x = if rowAddr c d ≤ x ∧ x < rowAddr c d + a.rowLen then s.byte (rowAddr c a + (x - rowAddr c d)) else s.byte x) ∧
    ∀ x, t.spMarkAt x = s.spMarkAt x

/-- n bytes of the scratchpad from an address meet no error (R85). -/
def NoError (s : State) (a n : Nat) : Prop := ∀ x, a ≤ x → x < a + n → s.spMarkAt (x / 8 * 8) = 0

/-- The operation of a slot ended as failed (R212): state failed, TALLY_FAILED naming it unless one is held, event class 0x11 with
the code of the fault that started the replay, source 9. -/
def Failed (c : CoreId) (e : Entry) (s t : State) : Prop :=
  t.entry c.toNat e.slot = some { e with state := .failed } ∧
    (s.bit (cA c.toNat TALLY_FAILED) 0 = false → e.opcode < 64 → e.fault < 256 → t.bit (cA c.toNat TALLY_FAILED) 0 = true ∧
      t.fld (cA c.toNat TALLY_FAILED) 63 48 = e.tag.toNat ∧ t.fld (cA c.toNat TALLY_FAILED) 47 42 = e.opcode ∧
      t.fld (cA c.toNat TALLY_FAILED) 39 32 = e.fault) ∧
    (s.bit (cA c.toNat TALLY_FAILED) 0 = true → t.reg (cA c.toNat TALLY_FAILED) = s.reg (cA c.toNat TALLY_FAILED)) ∧
    (∃ m ∈ t.net.msgs, m.typ = 4 ∧ ∃ v, m.event = some v ∧ v.cls = 0x11 ∧ v.code = BitVec.ofNat 8 e.fault ∧ v.source = c) ∧
    (s.bit (cA c.toNat ICC_ENABLE) 9 = true → t.bit (cA c.toNat ICC_PENDING) 9 = true)

end Sys2Proof.Claims

namespace Sys2Proof.Claims

open Sys2Proof.Machine

/-! ### Register commands -/

/-- A write of the register at an address is made: the requester's access is served now, and the requester may write the register
(R109, R194, R413, R452, R489). -/
def Admitted (s : State) (req : Requester) (a : Nat) : Prop :=
  s.accessible req a = true ∧ ∃ rg owner off, regionOf a = some (rg, owner, off) ∧ s.mayWrite req rg owner off = true

/-- The state with the halves that a requester holds or has captured discarded, as every register access of its own does (R9). -/
def heard (s : State) (req : Requester) : State := { s with halves := s.halves.filter fun x => x.1 ≠ req }

end Sys2Proof.Claims

namespace Sys2Proof.Claims

open Sys2Proof.Machine

/-! ### The crier network -/

/-- Message i of the network is m, the first in flight of its source and destination (R243). -/
def Next (s : State) (i : Nat) (m : Crier) : Prop := s.net.msgs[i]? = some m ∧ s.crierFirst i = true

/-- Message i has left the network; what has been sent since stands behind the others. -/
def Taken (s t : State) (i : Nat) : Prop := s.net.msgs.eraseIdx i <+: t.net.msgs

/-- A core that increments reach: powered and cleared, its stack under no reset (R472, R474). -/
def Reachable (s : State) (c : CoreId) : Prop := (s.stack (c.toNat / 64)).fence = false ∧ 2 ≤ (s.core c.toNat).power

/-- One increment of token k arrived at core c and was counted in TOK_RECEIVED (R119); at 255 it is lost. -/
def Arrived (c : CoreId) (k : BitVec 4) (s t : State) : Prop :=
  t.reg (cA c.toNat TOK_RECEIVED) = s.reg (cA c.toNat TOK_RECEIVED) + 1 ∧
    counter t c k = (if k = 0 then 0 else min (counter s c k + 1) 255) ∧ t.mem = s.mem ∧ t.cores = s.cores

/-- Whether an open write is that of an operation: its module, core and tag (R208). -/
def ofOp (dev : Option Nat) (core : Nat) (tag : W16) (w : OpenWrite) : Bool := w.device == dev && w.core == core && w.tag == tag

/-- The tables a notice is for have lost an operation's open writes: a network interface's (kind 0), or a vault controller's and its
stack's slow-tier controller's. -/
def NoticeTaken (kind dest : Nat) (dev : Option Nat) (core : Nat) (tag : W16) (s t : State) : Prop :=
  (kind = 0 → (t.core dest).opens = (s.core dest).opens.filter (fun w => !ofOp dev core tag w) ∧ t.vaults = s.vaults) ∧
    (kind ≠ 0 → (t.vault dest).opens = (s.vault dest).opens.filter (fun w => !ofOp dev core tag w) ∧
      (t.stack (dest / 64)).slowOpens = (s.stack (dest / 64)).slowOpens.filter (fun w => !ofOp dev core tag w) ∧ t.cores = s.cores) ∧
    t.regs = s.regs ∧ t.mem = s.mem

/-- Source n of the package controller is enabled; pending (R423). -/
def pkgEnabled (s : State) (n : Nat) : Bool := s.bit (pA ICP_ENABLE0 + 8 * (n / 64)) (n % 64)
def pkgPending (s : State) (n : Nat) : Bool := s.bit (pA ICP_PENDING0 + 8 * (n / 64)) (n % 64)

/-- The 16-bit tally slots of a core name each one entry (R199). -/
def SlotsDiffer (s : State) (c : Nat) : Prop := ((s.core c).tally.map Entry.slot).Nodup

/-- An event message of a class and code is in flight. -/
def EventSent (t : State) (cls code : Nat) : Prop :=
  ∃ m ∈ t.net.msgs, m.typ = 4 ∧ ∃ v, m.event = some v ∧ v.cls.toNat = cls ∧ v.code.toNat = code

/-! ### Packets -/

/-- Packet i stands delivered at core c, of a type, the first of its class, source and destination there, and asks for n bytes from its
address; its target is not under reset, not down, nothing holds the access and it has not waited (R178, R187, R208, R218, R250, R252,
R268, R311, R474). -/
def AtTarget (s : State) (i typ n : Nat) (fastOnly write : Bool) (p : Packet) (c : Nat) : Prop :=
  let a := p.addr.toNat
  s.delivered i typ = some (p, c) ∧ p.spans = [(a, n)] ∧ p.final = true ∧ (p.port = none ∨ s.targetOk a n fastOnly = true) ∧
    s.fenced p (c / 64) = false ∧ (s.core c).resetting = false ∧ s.memoryDown a = false ∧ s.behind i c p = false ∧
    (write = true → p.tableFull s a n = false) ∧ s.mustWait write (a, n) = false ∧ ∀ v, (s.vault v).waits = []

/-- A packet in router c that is free to leave it: held by no merge plan, with room ahead and at its turn (R228, R230). -/
def AtItsTurn (s : State) (p : Packet) (c : Nat) : Prop := p.plan = none ∧ s.roomAhead p c = true ∧ s.itsTurn p c = true

/-- A packet that is no later part of a send refused at a router (R236). -/
def NotRefused (s : State) (p : Packet) : Prop := p.typ = 0 → p.first = false → ∀ c, (c, p.senders) ∉ s.net.refused

/-- An operation in progress that no answer has refused yet; where it is replayed, its replay has begun. -/
def Answerable (e : Entry) : Prop := e.inProgress = true ∧ e.status = 0 ∧ (e.state = .running ∨ e.again = true)

/-- Packet i has left the network and one of a type goes back to where its answers go, with a status and bytes (R187, R227). -/
def AnsweredWith (s t : State) (i : Nat) (p : Packet) (c typ status : Nat) (data : List Byte) : Prop :=
  ∃ q, t.net.packets = s.net.packets.eraseIdx i ++ [q] ∧ q.typ = typ ∧ q.tag = p.tag ∧ q.addr = p.addr ∧ q.dest = p.answerDest ∧
    q.src = c ∧ q.status = status ∧ q.data = data ∧ q.place = .router c

/-- No flit of a packet is poisoned. -/
def Whole (p : Packet) : Prop := ∀ b ∈ p.poison, b = false

/-- A 64-byte word of the fast tier that reads without error: its row valid and checked, no error in it, no fix of it pending. -/
def CleanWord (s : State) (a : Nat) : Prop :=
  a % 64 = 0 ∧ a < 0x020000000000 ∧ s.rowValid a = true ∧ s.fastSynAt a = 0 ∧ (s.vault (a / 2 ^ 31)).writeBacks = [] ∧
    (s.vault (a / 2 ^ 31)).unchecked = []

/-- A contribution's segment takes its generation: a plain segment, no open tensor's or barrow's, with none yet or an older one
within 127 (R185). -/
def Lands (s : State) (a : Nat) (g : Byte) : Prop :=
  s.tensorAt a = none ∧ s.barrowAt a = none ∧ ((s.seg (a / 4096)).gen = none ∨ ∃ h, (s.seg (a / 4096)).gen = some h ∧ (g - h).toNat ≤ 127)

/-- The contributors that a segment has taken of generation g. -/
def taken (s : State) (a : Nat) (g : Byte) : W64 := if (s.seg (a / 4096)).gen = some g then (s.seg (a / 4096)).bitmap else 0

end Sys2Proof.Claims

namespace Sys2Proof.Claims

open Sys2Proof.Machine

/-! ### Vaults and near-bank computing -/

/-- A 512-byte row of the fast tier whose words read without error. -/
def CleanRow (s : State) (r : Nat) : Prop := r % 512 = 0 ∧ r < 0x020000000000 ∧ ∀ i, i < 8 → s.fastSynAt (r + 64 * i) = 0

/-- The valid bits list rows only, in rising order. -/
def RowsInOrder (s : State) : Prop := smWf false s.valid = true ∧ ∀ p ∈ s.valid, p.1 % 512 = 0

/-- What step i of a row operation gives from bytes of rows A, B, C (R300): COPY, NOT, AND, OR, XOR, MAJ3. -/
def rowFunctions : List (Nat × (Byte → Byte → Byte → Byte)) :=
  [(1, fun a _ _ => a), (2, fun a _ _ => ~~~a), (3, fun a b _ => a &&& b), (4, fun a b _ => a ||| b), (5, fun a b _ => a ^^^ b),
   (6, fun a b c => (a &&& b) ||| (a &&& c) ||| (b &&& c))]

/-- The near-bank commands by their operation (R296). -/
def nbAll (st : StackId) (v : BitVec 6) : List (Instr × Nat) :=
  [(.nbCopy st v, 1), (.nbNot st v, 2), (.nbAnd st v, 3), (.nbOr st v, 4), (.nbXor st v, 5), (.nbMaj3 st v, 6), (.nbDot st v, 0x10),
   (.nbWsum st v, 0x11), (.nbPopc st v, 0x12)]

/-- One packet joins those in flight: the status of an operation of a core. -/
def Answered (s t : State) (core : Nat) (tag : W16) (status : Nat) : Prop :=
  ∃ q, t.net.packets = s.net.packets ++ [q] ∧ q.typ = 6 ∧ q.dest = core ∧ q.tag = tag ∧ q.status = status

/-- The core that sent a near-bank command is told its status; of one the host wrote, none is. -/
def NbAnswered (s t : State) (k : NbCmd) (status : Nat) : Prop :=
  match k.core with
  | none => t.net = s.net
  | some c => Answered s t c k.tag status

end Sys2Proof.Claims

namespace Sys2Proof.Claims

open Sys2Proof.Machine

/-! ### The update unit -/

/-- The update unit's commands by their operation (R356). -/
def updAll (st : StackId) : List (Instr × Nat) :=
  [(.updLend st, 1), (.updRelease st, 2), (.updOpen st, 0x10), (.updClose st, 0x11), (.updDrain st, 0x12), (.updRecon st, 0x13)]

/-- Stack u's update unit is READY and its one waiting command is k, of an operation. -/
def UpdFirst (s : State) (u : Nat) (k : UpdCmd) (op : Nat) : Prop :=
  s.bit (sA u UPD_STATUS) 0 = true ∧ (s.stack u).updIn = [k] ∧ k.op = op

/-- The unit refused the command k for a reason at a tensor (R357): UPD_FAULT names it, its UDD is answered REFUSED. -/
def UpdRefused (s t : State) (u : Nat) (k : UpdCmd) (tensor reason : Nat) : Prop :=
  (t.stack u).updIn = [] ∧ t.bit (sA u UPD_FAULT) 0 = true ∧ t.fld (sA u UPD_FAULT) 7 4 = reason ∧
    t.fld (sA u UPD_FAULT) 15 8 = k.op ∧ t.fld (sA u UPD_FAULT) 31 22 = tensor ∧ t.fld (sA u UPD_FAULT) 63 32 = k.cmdId ∧
    Answered s t k.core k.tag 1 ∧ t.cores = s.cores

/-- The unit completed the command k: its UDD is answered OK. -/
def UpdDone (s t : State) (u : Nat) (k : UpdCmd) : Prop := (t.stack u).updIn = [] ∧ Answered s t k.core k.tag 0 ∧ t.cores = s.cores

/-- A 64-byte line of the slow tier that reads without error. -/
def CleanLine (s : State) (l : Nat) : Prop :=
  l % 64 = 0 ∧ 0x040000000000 ≤ l ∧ l < 0x04F000000000 ∧ s.slowBits l = (false, false) ∧ s.slowSynAt l = 0 ∧
    (s.stack ((l - 0x040000000000) / 4096 % 16)).slowBack = []

/-- The FP32 value stored at an address; the BF16 value stored there, widened. -/
def fp32At (s : State) (a : Nat) : W32 := BitVec.ofNat 32 (number (s.bytes a 4))
def bf16At (s : State) (a : Nat) : W32 := BitVec.ofNat 32 (65536 * number (s.bytes a 2))

/-- The working copy of a tensor of stack u after a reconciliation from its master alone (R353, R354): blocks of 32 with computed scale,
saturating, each element rounded stochastically by SEED, its address and the step 2 × CLOSED + 1; no byte else of it. -/
def Reconciled (s t : State) (u : Nat) (x : Tensor) : Prop :=
  let seed := s.reg (sA u UPD_LR + 0x80 * x.ruleSet + 0x20)
  let block (b : Nat) : BlockOut := narrowBlock x.format true none
    (fun i => .stochastic (srBits seed (srKey (x.work + 4 * x.elemBits * b) i) (x.closed * 2 + 1)))
    ((List.range 32).map fun i => f32Val (fp32At s (x.master + 4 * (32 * b + i))))
  t.bytes x.work x.workBytes = packElems x.elemBits ((List.range (x.size / 32)).flatMap fun b => (block b).elems) ∧
    t.bytes (x.work + x.workBytes) (x.size / 32) = packElems 8 ((List.range (x.size / 32)).map fun b => (block b).scale)

end Sys2Proof.Claims

namespace Sys2Proof.Claims

open Sys2Proof.Machine

/-! ### Bilo -/

/-- Port p of the Bilo links is up. -/
def portUp (s : State) (p : Nat) : Bool := s.bit (bpA p BPORT_STATUS) 31

/-- A field of 32 bits went up by one, or stood at its end (R518). -/
def Up (a : Nat) (s t : State) : Prop := t.fld a 31 0 = min (s.fld a 31 0 + 1) (2 ^ 32 - 1)

/-- A packet was handed to the port that leads to a device by a flow key (R371). -/
def SentOut (s t : State) (dev key : Nat) (q : BiloPacket) : Prop :=
  ∃ port, s.biloPort dev key = some port ∧ t.bilo.out = s.bilo.out ++ [(port, q)] ∧ q.dst.toNat = dev

/-- A status goes back to the module that sent a request or contribution. -/
def ToldBack (s t : State) (key : Nat) (p : BiloPacket) (status : Nat) : Prop :=
  ∃ q, SentOut s t p.src.toNat key q ∧ q.typ = 6 ∧ q.status = status ∧ q.tag = p.tag ∧ q.srcCore = p.srcCore

/-- Segment n of generation g in one of a barrow's areas: its address; its state. -/
def segAddr (b : Barrow) (area : Nat) (g : Byte) (n : Nat) : Nat := area + (if g.getLsbD 0 then b.size else 0) + 4096 * n
def segAt (s : State) (b : Barrow) (area : Nat) (g : Byte) (n : Nat) : Seg := s.seg (segAddr b area g n / 4096)

/-- The words of a 4 KiB segment read without error. -/
def CleanSeg (s : State) (a : Nat) : Prop := a % 4096 = 0 ∧ ∀ i, i < 64 → CleanWord s (a + 64 * i)

/-- The FP32 or 32-bit word i of a packet's data. -/
def dataWord (p : BiloPacket) (i : Nat) : W32 := BitVec.ofNat 32 (number ((p.data.drop (4 * i)).take 4))

/-- A packet carries the BF16 roundings of the 1,024 FP32 values stored from an address (R382). -/
def CarriesBf16 (s : State) (a : Nat) (q : BiloPacket) : Prop :=
  q.fmt = 2 ∧ q.data.length = 2048 ∧ ∀ i, i < 1024 → number ((q.data.drop (2 * i)).take 2) = (bf16Of (fp32At s (a + 4 * i))).toNat

end Sys2Proof.Claims

namespace Sys2Proof.Claims

open Sys2Proof.Machine

/-! ### Interrupt controllers -/

/-- What a CLAIM and an EOI of number n and a STACK_CTL.RESET do at a controller: a core's, or the package's (R416 to R418). -/
def ControllerRules (s : State) (req : Requester) (k : Ctl) (n : Nat) (claim eoi reset : Instr) : Prop :=
  let depth := s.fld (icA k 0) 19 16
  let running := s.fld (icA k 0) 15 12
  let frozen := s.bit (icA k 0) 31
  let same (t : State) : Prop := t.mem = s.mem ∧ t.cores = s.cores
  let stops (code : Nat) (t : State) : Prop := t.bit (icA k 0) 31 = true ∧ t.fld (icA k 0) 19 16 = depth ∧
    t.fld (icA k 0) 15 12 = running ∧ EventSent t 0x40 (if k.isSome then code else code + 2) ∧
    (pkgEnabled s 35 = true → pkgPending t 35 = true) ∧ same t
  (Admitted s req (icA k 4) →
    (n ≠ 0 → frozen = false → s.icPending k n = true → depth < 8 → Answers claim s fun t =>
      (t.reg (icA k 4)).toNat = n ∧ t.icPending k n = false ∧ t.fld (icA k 0) 19 16 = depth + 1 ∧
      t.fld (icA k 0) 15 12 = max running (s.icPriority k n) ∧ t.icEntry k depth = (n, running) ∧ same t) ∧
    (n = 0 ∨ frozen = true ∨ s.icPending k n = false → Answers claim s fun t => t.reg (icA k 4) = 0 ∧
      (∀ a, a ≠ icA k 4 → t.reg a = s.reg a) ∧ same t) ∧
    (n ≠ 0 → frozen = false → s.icPending k n = true → 8 ≤ depth → Answers claim s fun t => t.reg (icA k 4) = 0 ∧ stops 2 t)) ∧
  (Admitted s req (icA k 8) →
    (frozen = false → 0 < depth → depth ≤ 8 → (s.icEntry k (depth - 1)).1 = n → Answers eoi s fun t =>
      t.fld (icA k 0) 19 16 = depth - 1 ∧ t.fld (icA k 0) 15 12 = (s.icEntry k (depth - 1)).2 ∧ t.bit (icA k 0) 31 = false ∧
      t.icEntry k (depth - 1) = (0, 0) ∧ t.net = s.net ∧ same t) ∧
    (frozen = false → depth = 0 ∨ (s.icEntry k (depth - 1)).1 ≠ n → Answers eoi s fun t => stops 1 t) ∧
    (frozen = true → Answers eoi s fun t => t.regs = s.regs ∧ same t)) ∧
  (Admitted s req (icA k 0xC) → Answers reset s fun t => t.fld (icA k 0) 19 16 = 0 ∧ t.fld (icA k 0) 15 12 = 0 ∧
    t.bit (icA k 0) 31 = false ∧ t.net = s.net ∧ same t)

end Sys2Proof.Claims

namespace Sys2Proof.Claims

open Sys2Proof.Machine

/-! ### The host interface -/

/-- A completion joins those returned. -/
def Completes (s t : State) (tag : Nat) (status : Cpl) (data : List Byte) : Prop :=
  t.host.completions = s.host.completions ++ [{ tag := tag, data := data, ep := false, status := status }]

/-- The scratchpad of core c takes accesses of the host window now (R402, R452, R472). -/
def SpServed (s : State) (c : CoreId) : Prop :=
  s.inServiceAt (spAddr c 0) = true ∧ s.stackDown (c.toNat / 64) = false ∧ s.resetHolds c.toNat = false ∧
    2 ≤ (s.core c.toNat).power

/-- No write of the host waits, and it has fewer than 1,024 reads outstanding (R390, R403). -/
def NoneWaiting (s : State) : Prop := s.host.posted = [] ∧ s.host.holds.length < 1024

/-- Entry i of queue q's ring (R392). -/
def ringEntry (s : State) (q i : Nat) : List Byte := s.bar0 (0x1000000 + 0x4000 * q + 64 * i) 64

/-- A completion record was written at Q_CTAIL (R401): its status, operation, index, reason and core, and Q_CTAIL advanced, PHASE
inverted on a wrap. -/
def Recorded (s t : State) (q index : Nat) (e : List Byte) (status reason core : Nat) : Prop :=
  let ct := s.fld (qA q Q_CTAIL) 7 0
  let w := number (t.bar0 (0x1100000 + 0x2000 * q + 32 * ct) 8)
  w % 256 = status ∧ w / 2 ^ 8 % 256 = (e.headD 0).toNat ∧ w / 2 ^ 16 % 256 = index ∧ w / 2 ^ 24 % 2 = s.fld (qA q Q_CTAIL) 8 8 ∧
    w / 2 ^ 25 % 8 = reason ∧ w / 2 ^ 32 % 1024 = core ∧ t.fld (qA q Q_CTAIL) 7 0 = (ct + 1) % 256 ∧
    t.fld (qA q Q_CTAIL) 8 8 = if ct = 255 then 1 - s.fld (qA q Q_CTAIL) 8 8 else s.fld (qA q Q_CTAIL) 8 8

/-- Core k was started as number i of n by entry e, index x of queue q (R398). -/
def Started (s t : State) (q x : Nat) (e : List Byte) (c i n : Nat) : Prop :=
  let k := t.core c
  k.run = .running ∧ k.launchQ = some (q, x) ∧ k.pc = BitVec.ofNat 46 (entryAddr e 1 c) ∧ k.tvec = BitVec.ofNat 64 (entryAddr e 5 c) ∧
    t.gpr c 1 = BitVec.ofNat 64 (entryWord e 2) ∧ t.gpr c 2 = BitVec.ofNat 64 i ∧ t.gpr c 3 = BitVec.ofNat 64 n ∧
    (∀ r : BitVec 5, r ≠ 1 → r ≠ 2 → r ≠ 3 → t.gpr c r = 0) ∧ k.seed = BitVec.ofNat 64 (entryWord e 3) ∧
    k.status = (if entryFld e 6 21 21 = 1 then 0 else 1) ∧ k.tally = (s.core c).tally ∧ k.power = (s.core c).power

end Sys2Proof.Claims

namespace Sys2Proof.Claims

open Sys2Proof.Machine

/-! ### Registers -/

/-- A read answered with bytes: on PCI Express for the host, else with its data; nothing else changed but halves. -/
def Told (s t : State) (req : Requester) (tag : Nat) (bs : List Byte) : Prop :=
  (if req = .host then t.host.completions = s.host.completions ++ [⟨tag, bs, false, .successful⟩] ∧ t.host.answers = s.host.answers
    else t.host.answers = s.host.answers ++ [(tag, bs)] ∧ t.host.completions = s.host.completions) ∧
    t.mem = s.mem ∧ t.cores = s.cores ∧ t.net = s.net

/-- A read of the register at an address is made: the requester's access is served now, and the requester may read it. -/
def Readable (s : State) (req : Requester) (a : Nat) : Prop :=
  s.accessible req a = true ∧ ∃ rg owner off, regionOf a = some (rg, owner, off) ∧ s.mayRead req rg owner off = true

/-- The half that a requester holds of a register after a write of its low half, or has captured by a read of it (R9). -/
def holds (s : State) (req : Requester) (a : Nat) (captured : Bool) (v : W32) : Prop :=
  (s.halves.filter fun x => x.1 == req) = [(req, a, captured, v)]

/-- No half is held or captured by a requester. -/
def NoHalf (s : State) (req : Requester) : Prop := ∀ x ∈ s.halves, x.1 ≠ req

/-- An access of a size at an address has the width of the register there, or is a half of a 64-bit one (R9). -/
def Fits (h : RegHit) (a size : Nat) : Prop :=
  (a = h.base ∧ (size = 4 ∨ (size = 8 ∧ h.row.wide = true))) ∨ (a = h.base + 4 ∧ size = 4 ∧ h.row.wide = true)

/-- An offset of the package block in a buffer of bytes, the controller window or the shutter record (R447, R478, R495, R496, R517,
R526). -/
def inBuffer (off : Nat) : Prop :=
  ∃ b ∈ [(0x21000, 0x21400), (0x31000, 0x33000), (0x70020, 0x70060), (0x70100, 0x703E0), (0x70800, 0x72000), (0x80020, 0x80040),
    (0x80100, 0x801B0), (0x180000, 0x400000)], b.1 ≤ off ∧ off < b.2

/-- Slots of a tally: each named once, below 512 (R199, R200). -/
def SlotsOnce (s : State) : Prop := ∀ c, SlotsDiffer s c ∧ ∀ e ∈ (s.core c).tally, e.slot < 512

end Sys2Proof.Claims

namespace Sys2Proof.Claims

open Sys2Proof.Machine

/-! ### Power and temperature -/

/-- Core c is in state On or Clearing (R98). -/
def Clocked (s : State) (c : Nat) : Prop := (s.core c).power = 1 ∨ (s.core c).power = 2

/-- n is the lowest-numbered step that a core of stack u in state On or Clearing holds or is to hold, 7 where none does (R429). -/
def LowestStep (s : State) (u n : Nat) : Prop :=
  let step (c n : Nat) : Prop := s.fld (cA c CORE_CLOCK) 2 0 = n ∨ s.fld (cA c CORE_CLOCK) 10 8 = n
  (∀ c m, c / 64 = u → Clocked s c → step c m → n ≤ m) ∧ n ≤ 7 ∧ (n = 7 ∨ ∃ c, c / 64 = u ∧ Clocked s c ∧ step c n)

/-- The current of domain d among the readings, 0 where none is given. -/
def current (r : PowerReadings) (d : Nat) : Nat := ((r.currents.find? fun x => x.1 == d).map (·.2)).getD 0

/-- A number kept from lo to hi. -/
def within (lo hi x : Int) : Int := Max.max lo (Min.min x hi)

/-- The least of the voltages of a list of sensors (R426). -/
def Least (xs : List (Nat × Nat)) (low : Nat) : Prop := (∃ x ∈ xs, x.2 = low) ∧ ∀ x ∈ xs, low ≤ x.2

/-- A reading of a bench's sensors: the highest of its 16 (R437). -/
def Highest (r : StackSensors) (b : Nat) (x : Int) : Prop := (∀ k, k < 16 → sensor r b k ≤ x) ∧ ∃ k, k < 16 ∧ sensor r b k = x
where
  /-- Sensor k of bench b, 0 where none is given. -/
  sensor (r : StackSensors) (b k : Nat) : Int := ((r.benches.find? fun y => y.1 == b && y.2.1 == k).map (·.2.2)).getD 0

end Sys2Proof.Claims

namespace Sys2Proof.Claims

open Sys2Proof.Machine

/-! ### Bring-up and reset -/

/-- The commands that start bring-up steps, with their steps (R453). -/
def bringup (req : Requester) (full : Bool) (r : TestResults) : List (Instr × Nat) :=
  [(.clocks req full r, 1), (.memory req full r, 2), (.links req full r, 3), (.cores req full r, 4), (.service req full, 5)]

/-- Bring-up step n ended with a code after some ms (R453): BRG_RESULT names both, BUSY is clear, DONE is n where it completed, and
source 39 is raised. -/
def StepDone (s t : State) (n code elapsed : Nat) : Prop :=
  t.fld (pA BRG_RESULT) 31 29 = n ∧ t.fld (pA BRG_RESULT) 28 27 = code ∧ t.fld (pA BRG_RESULT) 15 0 = elapsed ∧
    t.bit (pA BRG_STATUS) 30 = false ∧ t.warden.step = none ∧ (pkgEnabled s 39 = true → pkgPending t 39 = true) ∧
    t.fld (pA BRG_STATUS) 27 25 = (if code = 0 then n else s.fld (pA BRG_STATUS) 27 25)

/-- The same of a step whose end changes neither memory nor cores. -/
def StepEnded (s t : State) (n code elapsed : Nat) : Prop := StepDone s t n code elapsed ∧ t.mem = s.mem ∧ t.cores = s.cores

/-- A test finds a base die that fails, or a small memory of one (R287, R455). -/
def baseFails (r : TestResults) : Bool := !r.baseDies.isEmpty || r.memories.any fun m => !m.1.ofCore

/-- A byte of a core's scratchpad by its device address. -/
def spByte (c off : Nat) : Nat := 0x3E0000000000 + 0x200000 * c + off

/-- Core c after the clear of a wake (R99): On, its scratchpad, tokens, engines, instruction cache and counts cleared. -/
def Cleared (t : State) (c : Nat) : Prop :=
  (t.core c).power = 2 ∧ (t.core c).e0 = Engine.reset ∧ (t.core c).e1 = Engine.reset ∧ (t.core c).icache = [] ∧
    (t.core c).retired = 0 ∧ t.reg (cA c CORE_CYCLES) = 0 ∧ (∀ k : BitVec 4, ∀ d : CoreId, d.toNat = c → counter t d k = 0) ∧
    ∀ off, off < 0x200000 → t.byte (spByte c off) = 0

/-- Bring-up step n began: BUSY, and each steward is sent its command (R242, R453). -/
def StepBegan (t : State) (n : Nat) : Prop :=
  t.bit (pA BRG_STATUS) 30 = true ∧ t.warden.step = some n ∧
    ∀ u, u < 16 → ∃ m ∈ t.net.msgs, m.typ = 8 ∧ m.dest = u * 64 ∧ m.arg = BitVec.ofNat 6 n

/-- Columns of a row of a stack whose pairs are retired. -/
def gone (t : State) (u r : Nat) : List Nat := (List.range 9).filter fun j => t.warden.retired.contains (u * 72 + r * 9 + j)

/-- A reset that R471 refuses: its scope and target. -/
def ResetRefused (s : State) (scope target : Nat) : Prop :=
  s.bit (pA BRG_RESET) 30 = true ∨ s.fld (pA BRG_STATUS) 27 25 ≠ 5 ∨ (scope = 0 ∧ s.unserved target = true) ∨
    (scope = 2 ∧ target = 0) ∨ (scope ≠ 0 ∧ s.bit (pA MAP_STATUS) 0 = true)

/-- A reset was refused: ERROR, and nothing else. -/
def ErrorSet (s t : State) : Prop :=
  t.reg (pA BRG_RESET) = s.reg (pA BRG_RESET) ||| 0x08000000 ∧ (∀ a, a ≠ pA BRG_RESET → t.reg a = s.reg a) ∧
    { t with regs := s.regs, halves := s.halves } = s

/-- A core as steps 2 to 4 of R472 leave it: Off, reset, its registers at their reset values. -/
def CoreDropped (s t : State) (c : Nat) (hold : Bool) : Prop :=
  t.core c = { Core.reset with launchQ := (s.core c).launchQ, resetting := true, held := hold } ∧
    t.reg (cA c ICC_ENABLE) = 0xFFFF0000000007FE ∧ t.fld (cA c CORE_STATE) 1 0 = 0 ∧
    ∀ k : BitVec 4, k ≠ 0 → t.fld (cA c (TOK_COUNT + 4 * (k.toNat - 1))) 7 0 = 0

/-- Stack u after steps 2 and 3 of R474: fenced, its served cores dropped, its update unit empty, its barrows retired. -/
def StackFenced (s t : State) (u : Nat) : Prop :=
  (t.stack u).fence = true ∧ (t.stack u).updIn = [] ∧ (t.stack u).tensors = [] ∧ (t.stack u).lends = [] ∧
    (∀ b ∈ t.bilo.barrows, b.stack ≠ u) ∧ ∀ c, c / 64 = u → s.unserved c = false → CoreDropped s t c false

/-- The message of a reset's end went to every stack (R242, R474): its payload the stack; of a core reset, in that stack, to the core. -/
def CoreEndTold (t : State) (c : CoreId) : Prop :=
  ∀ u, u < 16 → ∃ m ∈ t.net.msgs, m.typ = 6 ∧ m.dest = (if u = c.toNat / 64 then c.toNat else u * 64) ∧ m.arg = 0 ∧
    m.payload = BitVec.ofNat 32 (c.toNat / 64)
def StackEndTold (t : State) (st : StackId) : Prop :=
  ∀ u, u < 16 → ∃ m ∈ t.net.msgs, m.typ = 6 ∧ m.dest = u * 64 ∧ m.arg = 1 ∧ m.payload = BitVec.ofNat 32 st.toNat

end Sys2Proof.Claims

namespace Sys2Proof.Claims

open Sys2Proof.Machine

/-! ### Security, debug and the module interface -/

/-- The copies in use are as before: warden, steward and configuration (R482, R483). -/
def ActiveKept (s t : State) : Prop :=
  let b (i : Nat) := s.bit (pA 0x70000) i
  (if b 1 then t.warden.flash.wardenB = s.warden.flash.wardenB else t.warden.flash.wardenA = s.warden.flash.wardenA) ∧
    (if b 2 then t.warden.flash.stewardB = s.warden.flash.stewardB else t.warden.flash.stewardA = s.warden.flash.stewardA) ∧
    (if b 0 then t.warden.flash.configB = s.warden.flash.configB else t.warden.flash.configA = s.warden.flash.configA)

/-- The inactive copy of a kind: 1 warden, 2 steward, 3 configuration. -/
def inactive (s : State) (kind : Nat) : Image :=
  let f := s.warden.flash
  if kind = 1 then (if s.bit (pA 0x70000) 1 then f.wardenA else f.wardenB)
  else if kind = 2 then (if s.bit (pA 0x70000) 2 then f.stewardA else f.stewardB)
  else if s.bit (pA 0x70000) 0 then f.configA else f.configB

/-- An update ended with an error (R493, R494). -/
def UpdateFailed (t : State) (error : Nat) : Prop :=
  t.fld (pA SEC_UPDATE) 29 26 = error ∧ t.warden.upKind = 0 ∧ EventSent t 0x80 3

/-- A grant was refused for a reason (R491): the scope in force stays. -/
def GrantRefused (s t : State) (reason : Nat) : Prop :=
  t.bit (pA DBG_RESULT) 31 = true ∧ t.fld (pA DBG_RESULT) 3 0 = reason ∧ t.bit (pA DBG_STATUS) 2 = false ∧
    t.fld (pA DBG_STATUS) 1 0 = s.fld (pA DBG_STATUS) 1 0 ∧ EventSent t 0x80 0x11 ∧ t.warden.flash = s.warden.flash ∧
    t.warden.identity = s.warden.identity ∧ t.warden.stopped = s.warden.stopped

/-- A save is triggered for a cause, unless the module is in package reset, tripped, saving or stopped (R508, R511). -/
def SaveFor (s t : State) (cause : Nat) : Prop :=
  t.warden.save = (if s.warden.pins.perst = true ∨ s.warden.pins.thermtrip = true ∨ s.warden.save ≠ 0 ∨ s.warden.stopped = 2
    then s.warden.save else cause) ∧ t.regs = s.regs ∧ t.mem = s.mem ∧ t.net = s.net ∧ t.cores = s.cores

/-- The management bus answered a request; nothing else changed. -/
def BusAnswered (s t : State) (tag : Nat) (bs : List Byte) : Prop :=
  t.host.answers = s.host.answers ++ [(tag, bs)] ∧ { t with host := s.host } = s

/-- The latest telemetry frame (R444). -/
def latestFrame (s : State) : List Byte := s.bytes (pA 0x31000 + 0x80 * (s.fld (pA PWR_FRAME_SEQ) 31 0 % 64)) 128

end Sys2Proof.Claims
end

