-- ==== Sys2Proof/WellFormed.lean ====
section
/-! DEFINITION. Which commands have every operand within the range the module has for it: register sizes (R9), queues (R77),
physical cores (R4), upset places (R85, R271, R279), packet fields (R366, R367). The meanings are total: a command outside these
ranges still has an outcome, but stands for nothing a module could be sent. -/

namespace Sys2Proof

/-- An upset strikes one of the 72 bits of a scratchpad unit (R85), one of the 72 bytes of a stored fast word, one of the
68 bytes of a slow line with its check bytes (R271, R279), or one of the 64 bytes of a cached line (R113). -/
def Upset.wf : Upset → Bool
  | .sp _ _ bit => decide (bit.toNat < 72)
  | .fast _ b _ => decide (b.toNat < 72)
  | .slow _ b _ => decide (b.toNat < 68)
  | .slowPoison _ _ => true
  | .acc _ _ _ _ | .tile _ _ _ _ _ | .collide _ | .haulRetry _ _ => true
  | .icache _ line => line % 64 == 0
  | .slowRetry _ => true
  | .slowRate _ _ => true

def upsetsWf (l : List Upset) : Bool := l.all Upset.wf

/-- A mismatch is found at some failing sum path (R66). -/
def StepFault.wf (f : StepFault) : Bool := f.paths != 0

def RunFaults.wf (f : RunFaults) : Bool :=
  upsetsWf f.upsets && (match f.step with
    | some x => x.wf
    | none => true)

/-- Header fields within their widths, and one poison flag for each data flit (R366, R367). -/
def BiloPacket.wf (p : BiloPacket) : Bool :=
  decide (p.typ < 16) && decide (p.cls < 3) && decide (p.fmt < 16) && decide (p.status < 256) && decide (p.data.length ≤ 4096)
    && p.poison.length == (p.data.length + 63) / 64 && decide (p.len ≤ 4096)

/-- Stacks 0 to 15, physical cores row × 9 + column of 8 rows of 9, links ports 0 to 3, Bilo ports 0 to 7. -/
def TestResults.wf (t : TestResults) : Bool :=
  t.baseDies.all (· < 16) && t.channels.all (· < 16) && t.ports.all (· < 8) && t.partners.all (fun x => decide (x.1 < 8))
    && t.edgeLinks.all (fun x => decide (x.1 < 16) && decide (x.2.1 < 72) && decide (x.2.2 < 4))
    && (t.rows ++ t.retention).all (fun x => decide (x.1 < 16) && decide (x.2.1 < 72))
    && t.cores.all (fun x => decide (x.1 < 16) && decide (x.2 < 72))
    && t.memories.all (fun x => decide (x.2.1 < 16) && decide (x.2.2 < 72))
    && t.groups.all (fun x => decide (x.1 < 16) && decide (x.2.1 < 72) && decide (x.2.2.1 < 2) && decide (x.2.2.2 < 17))

def StackSensors.wf (r : StackSensors) : Bool :=
  r.cores.all (fun x => decide (x.1 < 64)) && r.benches.all (fun x => decide (x.1 < 16) && decide (x.2.1 < 16))
    && r.work.all (fun x => decide (x.bench < 16) && decide (x.vault < 64)) && r.vlg.all (fun x => decide (x.1 < 72))

def PowerReadings.wf (r : PowerReadings) : Bool := r.currents.all fun x => decide (x.1 < 26)

/-- A register access is of 4 or 8 bytes and naturally aligned (R9). -/
def regAccessWf (a : Addr) (size : Nat) : Bool := (size == 4 || size == 8) && a.toNat % size == 0

/-- A physical core of a stack (R4). -/
def physWf (phys : Nat) : Bool := decide (phys < 72)

/-- Whether every operand of a command is in range. -/
def Instr.wf : Instr → Bool
  | .registerWrite _ a size _ => regAccessWf a size
  | .registerRead _ _ a size => regAccessWf a size
  | .lb _ _ _ _ u | .lbu _ _ _ _ u | .lh _ _ _ _ u | .lhu _ _ _ _ u | .lw _ _ _ _ u | .lwu _ _ _ _ u | .ld _ _ _ _ u => upsetsWf u
  | .sb _ _ _ _ u | .sh _ _ _ _ u | .sw _ _ _ _ u | .sd _ _ _ _ u => upsetsWf u
  | .icacheMissFill _ u => upsetsWf u
  | .bulkStart _ q f => decide (q < 7) && f.wf
  | .replay _ _ f => f.wf
  | .retiredInjection _ phys _ => physWf phys
  | .linkDown _ phys _ | .detourInstall _ phys _ => physWf phys
  | .retiredCurrentCheck _ phys _ => physWf phys
  | .retiredHaulRow _ phys => physWf phys
  | .packetHop _ r => r.all (· ≤ 512)
  | .sendPacket a | .readData a | .status a => upsetsWf a.ups
  | .remoteWrite _ u | .readRequest _ u | .accumulate _ u | .merge _ u => upsetsWf u
  | .vcRepair _ _ _ _ u => upsetsWf u
  | .scrubRow _ _ _ u => upsetsWf u
  | .nbCommandStart _ _ _ u => upsetsWf u
  | .biloPacketArrival _ p => p.wf
  | .barrowContribution p | .barrowDone p | .barrowResend p => p.wf
  | .hostRead _ _ _ len u => decide (0 < len) && decide (len ≤ 4096) && upsetsWf u
  | .hostWrite _ _ data _ u => decide (0 < data.length) && decide (data.length ≤ 4096) && upsetsWf u
  | .stepEvaluation _ r => r.wf
  | .telemetryFrame r => r.wf
  | .voltageUpdate _ r | .sensorRead _ r => r.wf
  | .clocks _ _ t | .memory _ _ t | .links _ _ t | .cores _ _ t => t.wf
  | .resetEnd r => r.ports.all (· < 8) && r.channels.all (· < 16) &&
      r.links.all fun x => decide (x.1 < 16) && decide (x.2.1 < 72) && decide (x.2.2 < 4)
  | .debugRead _ u | .debugWrite _ u => upsetsWf u
  | .cdbgStep _ _ u => upsetsWf u
  | .forwarderAnswer a => decide (a.port < 8) && decide (a.status < 256)
  | .mctpControl r | .pldmRequest r | .vendorFrameRequest r => decide (r.command < 256)
  | _ => true

end Sys2Proof
end

