-- ==== Sys2Proof/Clauses.lean ====
section
/-! DEFINITION. The clauses of the statements that cover more than one family of commands; each is said here on its own, and the
statement is their conjunction. -/

open Sys2Proof Sys2Proof.Machine

/-! ### Words of the control core (R105 to R108, R118, R124, R129) -/

/-- Every scalar instruction's word decodes to the instruction, with every operand as it was; the upsets of a load or store are no
part of its word. -/
def Sys2Proof.Clauses.ScalarWordsRoundTrip : Prop :=
  ∀ (i : Instr) (w : W32), encodeScalar i = some w → Claims.upsetsOf i = [] → isBulkWord w = false ∧ ∃ c, decodeScalar c w = some i

/-- Every bulk instruction's two words decode to the instruction with every field as it was. -/
def Sys2Proof.Clauses.BulkWordsRoundTrip : Prop :=
  ∀ (i : Instr) (w : W32 × W32), encodeBulk i = some w →
    isBulkWord w.1 = true ∧ ∃ c, decodeBulk c w.1 w.2 = some i

/-- A word decodes to one instruction only: whatever a word or a pair of words decodes to has that word or pair as its encoding, so
no reserved word is taken for a neighbour. -/
def Sys2Proof.Clauses.DecodedWordsEncodeBack : Prop :=
  (∀ (c : CoreId) (w : W32) (i : Instr), decodeScalar c w = some i → encodeScalar i = some w) ∧
    ∀ (c : CoreId) (w0 w1 : W32) (i : Instr), isBulkWord w0 = true → decodeBulk c w0 w1 = some i → encodeBulk i = some (w0, w1)

/-! ### Arithmetic (R107, R108) -/

/-- The functions of R108 on two registers, said in integers. -/
def Sys2Proof.Clauses.AluFunctionsWriteTheirResults : Prop :=
  ∀ (c : CoreId) (rd ra rb : BitVec 5) (s : State), Ready s c.toNat → ∀ p ∈ Claims.aluFunctions c rd ra rb,
    Answers p.1 s (Completed c.toNat rd (p.2 (s.gpr c.toNat ra) (s.gpr c.toNat rb)) (s.nextPc c.toNat) s)

/-- clz, ctz and popc (R108): the count of bits; rb other than zero is an illegal form. -/
def Sys2Proof.Clauses.BitCountsWriteTheirResults : Prop :=
  ∀ (c : CoreId) (rd ra rb : BitVec 5) (s : State), Ready s c.toNat →
    (rb = 0 →
      (∃ n, Claims.LeadingZeros (s.gpr c.toNat ra) n ∧
        Answers (.clz c rd ra rb) s (Completed c.toNat rd (BitVec.ofNat 64 n) (s.nextPc c.toNat) s)) ∧
      (∃ n, Claims.TrailingZeros (s.gpr c.toNat ra) n ∧
        Answers (.ctz c rd ra rb) s (Completed c.toNat rd (BitVec.ofNat 64 n) (s.nextPc c.toNat) s)) ∧
      Answers (.popc c rd ra rb) s (Completed c.toNat rd (BitVec.ofNat 64 (Claims.setBits (s.gpr c.toNat ra))) (s.nextPc c.toNat) s)) ∧
    (rb ≠ 0 → ∀ p ∈ [(Instr.clz c rd ra rb, 0x30), (.ctz c rd ra rb, 0x31), (.popc c rd ra rb, 0x32)],
      Answers p.1 s (Trapped c.toNat 1 ((wordA 0 rd ra rb p.2).setWidth 64) s))

/-- The immediate forms of R107, said in integers; lui and shi trap on the forms R107 does not allow. -/
def Sys2Proof.Clauses.ImmediateFormsWriteTheirResults : Prop :=
  ∀ (c : CoreId) (rd ra : BitVec 5) (imm : W16) (s : State), Ready s c.toNat →
    (∀ p ∈ Claims.immediateFunctions c rd ra imm,
      Answers p.1 s (Completed c.toNat rd (p.2 (s.gpr c.toNat ra)) (s.nextPc c.toNat) s)) ∧
    (imm.toNat / 64 < 3 → Answers (.shi c rd ra imm) s
      (Completed c.toNat rd (Claims.shifted (imm.toNat / 64) (imm.toNat % 64) (s.gpr c.toNat ra)) (s.nextPc c.toNat) s)) ∧
    (3 ≤ imm.toNat / 64 → Answers (.shi c rd ra imm) s (Trapped c.toNat 1 ((wordI 0x0E rd ra imm).setWidth 64) s)) ∧
    (ra = 0 → Answers (.lui c rd ra imm) s
      (Completed c.toNat rd (BitVec.ofInt 64 (imm.toInt * 65536)) (s.nextPc c.toNat) s)) ∧
    (ra ≠ 0 → Answers (.lui c rd ra imm) s (Trapped c.toNat 1 ((wordI 0x0F rd ra imm).setWidth 64) s))

/-! ### Branches and jumps (R107, R113) -/

/-- A branch goes to its own address plus 4 × the signed offset where its condition holds, else to the next instruction. -/
def Sys2Proof.Clauses.BranchesTakeTheirTargets : Prop :=
  ∀ (c : CoreId) (ra rb : BitVec 5) (off : W16) (s : State), Ready s c.toNat → ∀ p ∈ Claims.branchConditions c ra rb off,
    Answers p.1 s (Completed c.toNat 0 0
      (if p.2 (s.gpr c.toNat ra) (s.gpr c.toNat rb) then
        BitVec.ofInt 46 ((s.core c.toNat).pc.toNat + 4 * off.toInt) else s.nextPc c.toNat) s)

/-- jal and jalr write the address of the next instruction and go to their targets; jal with ra other than zero is illegal, and a
jalr target off its alignment traps with cause 3 and leaves rd as it was. -/
def Sys2Proof.Clauses.JumpsLinkAndTakeTheirTargets : Prop :=
  ∀ (c : CoreId) (rd ra : BitVec 5) (imm : W16) (s : State), Ready s c.toNat →
    (ra = 0 → Answers (.jal c rd ra imm) s (Completed c.toNat rd ((s.nextPc c.toNat).setWidth 64)
      (BitVec.ofInt 46 ((s.core c.toNat).pc.toNat + 4 * imm.toInt)) s)) ∧
    (ra ≠ 0 → Answers (.jal c rd ra imm) s (Trapped c.toNat 1 ((wordI 0x26 rd ra imm).setWidth 64) s)) ∧
    (let t := BitVec.ofInt 64 ((s.gpr c.toNat ra).toInt + imm.toInt)
     (t.toNat % 4 = 0 → Answers (.jalr c rd ra imm) s
       (Completed c.toNat rd ((s.nextPc c.toNat).setWidth 64) (t.setWidth 46) s)) ∧
     (t.toNat % 4 ≠ 0 → Answers (.jalr c rd ra imm) s (Trapped c.toNat 3 t s)))

/-- An instruction whose pc lies outside the core's own vault and scratchpad, or off its alignment, traps with cause 3 and has no
other effect (R113): said of every command of R108 and R107 that touches registers only. -/
def Sys2Proof.Clauses.FetchOutsideMemoryTraps : Prop :=
  ∀ (c : CoreId) (rd ra rb : BitVec 5) (imm : W16) (s : State), s.fetching c.toNat = true →
    fetchAddr c.toNat (s.core c.toNat).pc = none →
    (∀ p ∈ Claims.aluFunctions c rd ra rb, Answers p.1 s (Trapped c.toNat 3 ((s.core c.toNat).pc.setWidth 64) s)) ∧
    (∀ p ∈ Claims.immediateFunctions c rd ra imm, Answers p.1 s (Trapped c.toNat 3 ((s.core c.toNat).pc.setWidth 64) s)) ∧
    (∀ p ∈ Claims.branchConditions c ra rb imm, Answers p.1 s (Trapped c.toNat 3 ((s.core c.toNat).pc.setWidth 64) s))

/-! ### Loads and stores (R109 to R111) -/

/-- A load from the own scratchpad, naturally aligned, granted by a pitch of master 0 and meeting no error and no collision (R90,
R109 to R111), writes what the bytes hold, extended as R107 says; nothing else changes but what the upsets changed. -/
def Sys2Proof.Clauses.LoadsReadTheScratchpad : Prop :=
  ∀ (c : CoreId) (rd ra : BitVec 5) (imm : W16) (ups : List Upset) (s : State) (off : Nat), Ready s c.toNat →
    let u := s.upsets ups
    ∀ p ∈ Claims.loads c rd ra imm ups, Claims.ownScratchpad c (Claims.dataAddr u c ra imm) off → off % p.2.1 = 0 →
      Claims.Granted u c off p.2.1 false → u.spMarkAt (Claims.spAddr c off / 8 * 8) = 0 → collisionsOf ups = [] →
      let v := Claims.number (u.bytes (Claims.spAddr c off) p.2.1)
      Answers p.1 s (Completed c.toNat rd
        (BitVec.ofInt 64 (if p.2.2 then Claims.signedNumber p.2.1 v else (v : Int))) (u.nextPc c.toNat) u)

/-- A store to the own scratchpad, naturally aligned, granted and meeting no poison and no collision, writes the low bytes of rd at
the address, lowest first, and no other byte of memory; a store of 8 bytes also covers a poisoned unit (R111). The source log keeps
no record of what it has changed (R214). -/
def Sys2Proof.Clauses.StoresWriteTheScratchpad : Prop :=
  ∀ (c : CoreId) (rd ra : BitVec 5) (imm : W16) (ups : List Upset) (s : State) (off : Nat), Ready s c.toNat →
    let u := s.upsets ups
    ∀ p ∈ Claims.stores c rd ra imm ups, Claims.ownScratchpad c (Claims.dataAddr s c ra imm) off → off % p.2 = 0 →
      Claims.Granted u c off p.2 true → (p.2 = 8 ∨ u.spMarkAt (Claims.spAddr c off / 8 * 8) = 0) → collisionsOf ups = [] →
      Answers p.1 s fun t =>
        (∀ x, t.byte x = if Claims.spAddr c off ≤ x ∧ x < Claims.spAddr c off + p.2 then
          BitVec.ofNat 8 ((s.gpr c.toNat rd).toNat / 256 ^ (x - Claims.spAddr c off)) else u.byte x) ∧
        (∀ x, t.spMarkAt x = if p.2 = 8 ∧ x = Claims.spAddr c off then 0 else u.spMarkAt x) ∧
        Completed c.toNat 0 0 (u.nextPc c.toNat)
          { u.storedOver c.toNat (Claims.spAddr c off) p.2 with mem := t.mem, spMark := t.spMark } t

/-- What stops a load or store (R109, R110, R111), in the order the model takes the checks (log entry 27): an address in no range of
R109 traps with cause 5; a privileged range in user mode with cause 2; a misaligned address with cause 4; one no pitch grants with
cause 6, recorded under R95; a poisoned unit, for a load or a narrower store, with cause 7. Nothing is loaded or stored. -/
def Sys2Proof.Clauses.LoadsAndStoresTrap : Prop :=
  ∀ (c : CoreId) (rd ra : BitVec 5) (imm : W16) (s : State), Ready s c.toNat →
    let a := Claims.dataAddr s c ra imm
    ∀ p ∈ Claims.accesses c rd ra imm [],
      ((∀ off, ¬ Claims.ownScratchpad c a off) → ¬ Claims.ownRegisters c a → Answers p.1 s (Trapped c.toNat 5 a s)) ∧
      ((∀ off, ¬ Claims.ownScratchpad c a off) → Claims.ownRegisters c a → s.privileged c.toNat = false →
        Answers p.1 s (Trapped c.toNat 2 ((wordI p.2.1 rd ra imm).setWidth 64) s)) ∧
      ((∀ off, ¬ Claims.ownScratchpad c a off) → Claims.ownRegisters c a → s.privileged c.toNat = true → a.toNat % p.2.2.1 ≠ 0 →
        Answers p.1 s (Trapped c.toNat 4 a s)) ∧
      ∀ off, Claims.ownScratchpad c a off →
        (off % p.2.2.1 ≠ 0 → Answers p.1 s (Trapped c.toNat 4 a s)) ∧
        (off % p.2.2.1 = 0 → ¬ Claims.Granted s c off p.2.2.1 p.2.2.2 →
          Answers p.1 s (Trapped c.toNat 6 a (s.pitchFail c.toNat 0 off p.2.2.2 0))) ∧
        (off % p.2.2.1 = 0 → Claims.Granted s c off p.2.2.1 p.2.2.2 → s.spMarkAt (Claims.spAddr c off / 8 * 8) = 1 →
          (p.2.2.2 = false ∨ p.2.2.1 < 8) → Answers p.1 s (Trapped c.toNat 7 a s))

/-- A pitch failure (R95): PITCH_FAULT names master, access, offset and tag with VALID, PITCH_COUNT goes up, saturating, and source
4 of the core's controller is raised. -/
def Sys2Proof.Clauses.PitchFailuresAreRecorded : Prop :=
  ∀ (c : CoreId) (m off tag : Nat) (write : Bool) (s : State), m < 8 → off < 0x200000 → tag < 65536 →
    let t := s.pitchFail c.toNat m off write tag
    let r := cA c.toNat PITCH_FAULT
    t.bit r 0 = true ∧ t.fld r 47 45 = m ∧ t.bit r 44 = write ∧ t.fld r 40 20 = off ∧ t.fld r 63 48 = tag ∧
      t.fld (cA c.toNat PITCH_COUNT) 31 0 = min (s.fld (cA c.toNat PITCH_COUNT) 31 0 + 1) (2 ^ 32 - 1) ∧
      (s.bit (cA c.toNat ICC_ENABLE) 4 = true → t.bit (cA c.toNat ICC_PENDING) 4 = true) ∧ t.mem = s.mem ∧ t.cores = s.cores

/-! ### State registers, descriptors, tokens (R115 to R121) -/

/-- mfs of a register that exists and that the mode may read writes its value; a privileged one in user mode traps with cause 2; any
other number, or ra other than zero, traps with cause 1. -/
def Sys2Proof.Clauses.StateRegistersRead : Prop :=
  ∀ (c : CoreId) (rd ra : BitVec 5) (imm : W16) (s : State), Ready s c.toNat →
    (∀ r ∈ Claims.stateRegisters s c, ra = 0 → imm.toNat = r.1 →
      ((r.2.1 = true → s.privileged c.toNat = true) →
        Answers (.mfs c rd ra imm) s (Completed c.toNat rd r.2.2 (s.nextPc c.toNat) s)) ∧
      (r.2.1 = true → s.privileged c.toNat = false →
        Answers (.mfs c rd ra imm) s (Trapped c.toNat 2 ((wordI 0x2C rd ra imm).setWidth 64) s))) ∧
    ((ra ≠ 0 ∨ ∀ r ∈ Claims.stateRegisters s c, imm.toNat ≠ r.1) →
      Answers (.mfs c rd ra imm) s (Trapped c.toNat 1 ((wordI 0x2C rd ra imm).setWidth 64) s))

/-- mts of a register that can be written, in the mode it needs and with its zero bits zero, writes it and nothing else; user mode
traps with cause 2, a value in a zero field or any other number with cause 1 and writes nothing. -/
def Sys2Proof.Clauses.StateRegistersWrite : Prop :=
  ∀ (c : CoreId) (rd ra : BitVec 5) (imm : W16) (s : State), Ready s c.toNat →
    let v := s.gpr c.toNat ra
    let word := (wordI 0x2D rd ra imm).setWidth 64
    (∀ r ∈ Claims.writableRegisters v (s.core c.toNat), rd = 0 → imm.toNat = r.1 →
      ((r.2.1 = true → s.privileged c.toNat = true) → v &&& r.2.2.1 = 0 →
        Answers (.mts c rd ra imm) s (Claims.CoreWritten c r.2.2.2 s)) ∧
      ((r.2.1 = true → s.privileged c.toNat = true) → v &&& r.2.2.1 ≠ 0 → Answers (.mts c rd ra imm) s (Trapped c.toNat 1 word s)) ∧
      (r.2.1 = true → s.privileged c.toNat = false → Answers (.mts c rd ra imm) s (Trapped c.toNat 2 word s))) ∧
    ((rd ≠ 0 ∨ ∀ r ∈ Claims.writableRegisters v (s.core c.toNat), imm.toNat ≠ r.1) →
      Answers (.mts c rd ra imm) s (Trapped c.toNat 1 word s))

/-- tdw writes one word of one descriptor and leaves the others; tdr reads it back (R117). -/
def Sys2Proof.Clauses.DescriptorsHoldTheirWords : Prop :=
  ∀ (c : CoreId) (rd ra : BitVec 5) (imm : W16) (s : State), Ready s c.toNat →
    (rd = 0 → imm.toNat < 64 → Answers (.tdw c rd ra imm) s fun t =>
      (∀ n, smGet 0 (t.core c.toNat).td n = if n = imm.toNat then s.gpr c.toNat ra else smGet 0 (s.core c.toNat).td n) ∧
      Claims.CoreWritten c { s.core c.toNat with td := (t.core c.toNat).td } s t) ∧
    (ra = 0 → imm.toNat < 64 → Answers (.tdr c rd ra imm) s
      (Completed c.toNat rd (smGet 0 (s.core c.toNat).td imm.toNat) (s.nextPc c.toNat) s)) ∧
    ((rd ≠ 0 ∨ 64 ≤ imm.toNat) → Answers (.tdw c rd ra imm) s (Trapped c.toNat 1 ((wordI 0x2E rd ra imm).setWidth 64) s)) ∧
    ((ra ≠ 0 ∨ 64 ≤ imm.toNat) → Answers (.tdr c rd ra imm) s (Trapped c.toNat 1 ((wordI 0x2F rd ra imm).setWidth 64) s))

/-- tinc, twait, ttry, tread and tset (R118, R120): the counter they name, 0 being no counter; a tinc at 255 traps with cause 8 and
changes nothing; a twait at 0 stalls and is counted. -/
def Sys2Proof.Clauses.TokenInstructionsCount : Prop :=
  ∀ (c : CoreId) (rd ra : BitVec 5) (t : BitVec 4) (s : State), Ready s c.toNat →
    let n := Claims.counter s c t
    (n < 255 → Answers (.tinc c 0 0 0 t) s (Claims.Counted c t (n + 1) 0 0 s)) ∧
    (n = 255 → Answers (.tinc c 0 0 0 t) s (Trapped c.toNat 8 (t.setWidth 64) s)) ∧
    (t = 0 ∨ 0 < n → Answers (.twait c 0 0 0 t) s (Claims.Counted c t (n - 1) 0 0 s)) ∧
    (t ≠ 0 → n = 0 → Answers (.twait c 0 0 0 t) s (Claims.OnlyCountsUp (cA c.toNat CORE_ISSUE_STALL) s)) ∧
    (Answers (.ttry c rd 0 0 t) s (Claims.Counted c t (n - 1) rd (if n = 0 then 0 else 1) s)) ∧
    (Answers (.tread c rd 0 0 t) s (Claims.Counted c t n rd (BitVec.ofNat 64 n) s)) ∧
    (s.privileged c.toNat = true →
      Answers (.tset c 0 ra 0 t) s (Claims.Counted c t ((s.gpr c.toNat ra).toNat % 256) 0 0 s)) ∧
    (s.privileged c.toNat = false →
      Answers (.tset c 0 ra 0 t) s (Trapped c.toNat 2 ((wordT 5 0 ra 0 t).setWidth 64) s))

/-- tsend (R118, R121): one increment of token t to logical core ra [9:0] leaves on the crier network, counted in TOK_SENT; to a
core that is retired under the map it is dropped and counted in TOK_SENT_DROP; token 0 sends nothing. -/
def Sys2Proof.Clauses.TokenSendLeaves : Prop :=
  ∀ (c : CoreId) (ra : BitVec 5) (t : BitVec 4) (s : State), Ready s c.toNat →
    let dest := (s.gpr c.toNat ra).toNat % 1024
    (t ≠ 0 → s.unserved dest = false → Answers (.tsend c 0 ra 0 t) s fun u =>
      u.net.msgs = s.net.msgs ++ [{ typ := 1, kind := 0, dest := dest, src := c.toNat, arg := t.setWidth 6, payload := 0, event := none }] ∧
      u.reg (cA c.toNat TOK_SENT) = s.reg (cA c.toNat TOK_SENT) + 1 ∧
      (∀ a, a ≠ cA c.toNat TOK_SENT → u.reg a = s.reg a) ∧
      Completed c.toNat 0 0 (s.nextPc c.toNat) { s with regs := u.regs, net := { s.net with msgs := u.net.msgs } } u) ∧
    (t ≠ 0 → s.unserved dest = true → Answers (.tsend c 0 ra 0 t) s fun u =>
      u.fld (cA c.toNat TOK_SENT_DROP) 31 0 = min (s.fld (cA c.toNat TOK_SENT_DROP) 31 0 + 1) (2 ^ 32 - 1) ∧
      (∀ a, a ≠ cA c.toNat TOK_SENT_DROP → u.reg a = s.reg a) ∧
      Completed c.toNat 0 0 (s.nextPc c.toNat) { s with regs := u.regs } u) ∧
    (t = 0 → Answers (.tsend c 0 ra 0 t) s (Completed c.toNat 0 0 (s.nextPc c.toNat) s))

/-! ### System instructions, traps and interrupts (R123 to R127, R415) -/

/-- ecall and brk trap with causes 10 and 9 and value 0, TRAP_PC holding their own address (R124, R125, R126). -/
def Sys2Proof.Clauses.CallsAndBreakpointsTrap : Prop :=
  ∀ (c : CoreId) (s : State), Ready s c.toNat →
    Answers (.ecall c 0 0 0) s (Trapped c.toNat 10 0 s) ∧ Answers (.brk c 0 0 0) s (Trapped c.toNat 9 0 s) ∧
    ((s.core c.toNat).status.getLsbD 4 = false →
      Answers (.ecall c 0 0 0) s fun t =>
        (t.core c.toNat).tpc = (s.core c.toNat).pc.setWidth 64 ∧ (t.core c.toNat).pc = (s.core c.toNat).tvec.setWidth 46 ∧
        (t.core c.toNat).cause = 10 ∧ (t.core c.toNat).tval = 0)

/-- A synchronous trap with STATUS.TRAP set is a double trap (R127): no trap state is overwritten, fetching stops, the core stays On
and source 10 is raised. -/
def Sys2Proof.Clauses.DoubleTrapsStopTheCore : Prop :=
  ∀ (c : CoreId) (s : State), Ready s c.toNat → (s.core c.toNat).status.getLsbD 4 = true →
    ∀ i ∈ [Instr.ecall c 0 0 0, .brk c 0 0 0], Answers i s fun t =>
      t.core c.toNat = { s.core c.toNat with run := .doubleTrapped } ∧ t.fetching c.toNat = false ∧
      (s.bit (cA c.toNat ICC_ENABLE) 10 = true → t.bit (cA c.toNat ICC_PENDING) 10 = true) ∧
      (∀ d, d ≠ c.toNat → t.core d = s.core d) ∧ t.mem = s.mem

/-- eret in privileged mode (R124): MODE from PMODE, IE from PIE, TRAP 0, pc from TRAP_PC, the other bits of STATUS as they were; in
user mode it traps with cause 2. -/
def Sys2Proof.Clauses.EretRestoresWhatTrapsSaved : Prop :=
  ∀ (c : CoreId) (s : State), Ready s c.toNat → ((s.core c.toNat).status &&& 0xFFFFFFFFFFFFFFE0 = 0) →
    (s.privileged c.toNat = true → Answers (.eret c 0 0 0) s fun t =>
      let old := (s.core c.toNat).status
      let new := (t.core c.toNat).status
      new.getLsbD 0 = old.getLsbD 2 ∧ new.getLsbD 1 = old.getLsbD 3 ∧ new.getLsbD 2 = old.getLsbD 2 ∧
      new.getLsbD 3 = old.getLsbD 3 ∧ (∀ i, 4 ≤ i → new.getLsbD i = false) ∧
      t.core c.toNat = { s.core c.toNat with status := new, pc := (s.core c.toNat).tpc.setWidth 46,
                                             retired := (s.core c.toNat).retired + 1 } ∧ OnlyCore c.toNat s t) ∧
    (s.privileged c.toNat = false →
      Answers (.eret c 0 0 0) s (Trapped c.toNat 2 ((wordA 1 0 0 0 0).setWidth 64) s))

/-- fence, ifence, wfi and halt (R124): fence and halt wait while the tally holds operations and wfi while no source is pending,
changing nothing; ifence empties the instruction cache; halt ends the program. -/
def Sys2Proof.Clauses.SystemWaitsEnd : Prop :=
  ∀ (c : CoreId) (s : State), Ready s c.toNat →
    ((s.core c.toNat).tally = [] → Answers (.fence c 0 0 0) s (Completed c.toNat 0 0 (s.nextPc c.toNat) s)) ∧
    ((∃ e ∈ (s.core c.toNat).tally, e.unit = false) → exec (.fence c 0 0 0) s = .next s) ∧
    Answers (.ifence c 0 0 0) s (Claims.CoreWritten c { s.core c.toNat with icache := [] } s) ∧
    (Claims.SomePending s c → Answers (.wfi c 0 0 0) s (Completed c.toNat 0 0 (s.nextPc c.toNat) s)) ∧
    (¬ Claims.SomePending s c → exec (.wfi c 0 0 0) s = .next s) ∧
    ((s.core c.toNat).tally = [] → Answers (.halt c 0 0 0) s (Claims.CoreWritten c { s.core c.toNat with run := .idle } s)) ∧
    ((s.core c.toNat).tally ≠ [] → exec (.halt c 0 0 0) s = .next s)

/-- A system, token or bit-field form with a field R107, R118 or R124 wants zero set to another value traps with cause 1 (R106) and
has no other effect. -/
def Sys2Proof.Clauses.IllegalFormsTrap : Prop :=
  ∀ (c : CoreId) (rd ra rb : BitVec 5) (mid : Byte) (t : BitVec 4) (s : State), Ready s c.toNat →
    (rd ≠ 0 ∨ ra ≠ 0 ∨ rb ≠ 0 →
      ∀ p ∈ [(Instr.eret c rd ra rb, 0), (.ecall c rd ra rb, 1), (.brk c rd ra rb, 2), (.fence c rd ra rb, 3),
             (.ifence c rd ra rb, 4), (.wfi c rd ra rb, 5), (.halt c rd ra rb, 6)],
        Answers p.1 s (Trapped c.toNat 1 ((wordA 1 rd ra rb p.2).setWidth 64) s)) ∧
    (mid ≠ 0 ∨ ra ≠ 0 ∨ rd ≠ 0 → ∀ p ∈ [(Instr.tinc c rd ra mid t, 0), (.twait c rd ra mid t, 1)],
        Answers p.1 s (Trapped c.toNat 1 ((wordT p.2 rd ra mid t).setWidth 64) s)) ∧
    (mid ≠ 0 ∨ ra ≠ 0 → ∀ p ∈ [(Instr.ttry c rd ra mid t, 2), (.tread c rd ra mid t, 3)],
        Answers p.1 s (Trapped c.toNat 1 ((wordT p.2 rd ra mid t).setWidth 64) s)) ∧
    (mid ≠ 0 ∨ rd ≠ 0 → ∀ p ∈ [(Instr.tsend c rd ra mid t, 4), (.tset c rd ra mid t, 5)],
        Answers p.1 s (Trapped c.toNat 1 ((wordT p.2 rd ra mid t).setWidth 64) s))

/-- An interrupt (R126, R415) is taken where the control core runs with IE set, its controller is not frozen and some source is
deliverable: TRAP_CAUSE holds bit 63 and 1, TRAP_VALUE 0, TRAP_PC the next instruction; else nothing changes. -/
def Sys2Proof.Clauses.InterruptsEnterTheHandler : Prop :=
  ∀ (c : CoreId) (s : State), s.fetching c.toNat = true →
    let frozen := s.bit (cA c.toNat ICC_STATUS) 31
    let ie := (s.core c.toNat).status.getLsbD 1
    (ie = true → frozen = false → (∃ n, Claims.Deliverable s c n) →
      Answers (.interruptEntry c) s (Entered c.toNat 0x8000000000000001 0 s)) ∧
    ((ie = false ∨ frozen = true ∨ ¬ ∃ n, Claims.Deliverable s c n) → exec (.interruptEntry c) s = .next s)

/-! ### Bulk instructions (R77 to R79, R105, R106, R117, R129 to R133, R143 to R192) -/

/-- A bulk instruction at an 8-aligned pc, whose words are as its rules ask, takes a slot of the tally and a place in its queue when
neither is full. -/
def Sys2Proof.Clauses.BulkInstructionsEnterTheTally : Prop :=
  ∀ (c : CoreId) (mode : Byte) (w : BulkWord) (s : State), Ready s c.toNat → (s.core c.toNat).pc.toNat % 8 = 0 →
    ∀ p ∈ Claims.bulkAll c mode w, p.2.2.2.2 → Claims.Room s c p.2.2.1 →
      Answers p.1 s (Claims.Issued c p.2.1 p.2.2.1 p.2.2.2.1 w s)

/-- A bulk instruction that is misplaced or whose words are not as its rules ask traps with cause 1 and its first word; one whose
queue or tally is full stalls and adds to CORE_ISSUE_STALL. -/
def Sys2Proof.Clauses.BulkInstructionsTrapOrStall : Prop :=
  ∀ (c : CoreId) (mode : Byte) (w : BulkWord) (s : State), Ready s c.toNat → ∀ p ∈ Claims.bulkAll c mode w,
    ((s.core c.toNat).pc.toNat % 8 ≠ 0 ∨ ¬ p.2.2.2.2 →
      Answers p.1 s (Trapped c.toNat 1 ((wordB0 p.2.1 p.2.2.2.1 w).setWidth 64) s)) ∧
    ((s.core c.toNat).pc.toNat % 8 = 0 → p.2.2.2.2 → ¬ Claims.Room s c p.2.2.1 →
      Answers p.1 s (Claims.OnlyCountsUp (cA c.toNat CORE_ISSUE_STALL) s))

/-- The head of a queue waits for its token, changing nothing, and for what holds it, counted in TALLY_HOLDS (R133, R202, R205). -/
def Sys2Proof.Clauses.HeadsOfQueuesWait : Prop :=
  ∀ (c : CoreId) (q : Nat) (f : RunFaults) (s : State) (e : Entry), Claims.Running s → f.upsets = [] →
    s.queueHead c.toNat q = some e → s.entry c.toNat e.slot = some e →
    (e.word.wait ≠ 0 → Claims.counter s c e.word.wait = 0 → exec (.bulkStart c q f) s = .next s) ∧
    ((s.core c.toNat).power = 2 → s.unitFree c.toNat q e = true → (q ≤ 1 → (s.core c.toNat).lentTo = none ∨ e.unit = true) →
      (e.word.wait = 0 ∨ 0 < Claims.counter s c e.word.wait) → (s.readHold c.toNat e = true ∨ s.writeHold c.toNat e = true) →
      Answers (.bulkStart c q f) s fun t =>
        t.reg (cA c.toNat TALLY_HOLDS) = s.reg (cA c.toNat TALLY_HOLDS) + 1 ∧
        (∀ a, a ≠ cA c.toNat TALLY_HOLDS → t.reg a = s.reg a) ∧ t.mem = s.mem ∧ t.net = s.net ∧
        ∃ x, t.entry c.toNat e.slot = some x ∧ x.state = .queued)

/-- An operation that starts takes its wait token once (R133). A TSIG sends one increment to its target (R190) and an NRECV is
posted (R178); a movement operation whose check names a cause is refused: its entry is freed, CORE_MOVE_FAULT names it, source 3
(R135, R168). -/
def Sys2Proof.Clauses.OperationsStartWithTheirToken : Prop :=
  ∀ (c : CoreId) (q : Nat) (f : RunFaults) (s : State) (e : Entry), Claims.Running s → f.upsets = [] → f.collide = [] →
    Claims.Starts s c q e →
    let taken := if e.word.wait = 0 then 0 else Claims.counter s c e.word.wait - 1
    (e.opcode = 0x30 → q = 4 → e.queue = 4 → e.ins = [] → e.outs = [] → e.target.getLsbD 31 = false → e.target.toNat % 16 ≠ 0 →
      s.unserved (e.target.toNat / 2 ^ 7 % 1024) = false →
      Answers (.bulkStart c q f) s fun t =>
        Claims.counter t c e.word.wait = taken ∧
        t.net.msgs = s.net.msgs ++ [{ typ := 1, kind := 0, dest := e.target.toNat / 2 ^ 7 % 1024, src := c.toNat,
                                      arg := BitVec.ofNat 6 (e.target.toNat % 16), payload := 0, event := none }] ∧
        t.reg (cA c.toNat TOK_SENT) = s.reg (cA c.toNat TOK_SENT) + 1 ∧ t.mem = s.mem ∧
        ∃ x, t.entry c.toNat e.slot = some x ∧ x.state = .running ∧ x.done = true) ∧
    (e.opcode = 0x25 → q = 4 → e.queue = 4 → s.moveCause c.toNat e = none → s.pitchMiss c.toNat e = none →
      (∀ p ∈ (s.core c.toNat).posted, p.channel ≠ e.channel) →
      Answers (.bulkStart c q f) s fun t =>
        Claims.counter t c e.word.wait = taken ∧
        (t.core c.toNat).posted = (s.core c.toNat).posted ++ [{ slot := e.slot, channel := e.channel, red := e.red, fanin := e.fanin,
                                                                refuse := false, senders := [], streams := [] }] ∧
        Claims.OnlyRegs (Claims.tokenRegs c e.word.wait) { s with cores := t.cores } t) ∧
    (∀ k, (e.opcode = 0x21 ∨ e.opcode = 0x24 ∨ e.opcode = 0x34 ∨ e.opcode = 0x38) → 3 ≤ q → e.queue = q →
      s.moveCause c.toNat e = some k → k < 16 →
      Answers (.bulkStart c q f) s fun t =>
        Claims.counter t c e.word.wait = taken ∧ t.entry c.toNat e.slot = none ∧
        t.bit (cA c.toNat CORE_MOVE_FAULT) 0 = true ∧ t.fld (cA c.toNat CORE_MOVE_FAULT) 7 4 = k ∧
        t.fld (cA c.toNat CORE_MOVE_FAULT) 63 48 = e.tag.toNat ∧
        (s.bit (cA c.toNat ICC_ENABLE) 3 = true → t.bit (cA c.toNat ICC_PENDING) 3 = true) ∧ t.mem = s.mem)

/-- An SMOV of one row that passes its checks copies the row's bytes within the scratchpad, changing no other byte, and is done
(R176); its replay, once its input is whole, does the same from its entry (R210). -/
def Sys2Proof.Clauses.ScratchpadMovesCopyTheirRow : Prop :=
  ∀ (c : CoreId) (f : RunFaults) (s : State) (e : Entry), Claims.Running s → f.upsets = [] → f.collide = [] →
    e.opcode = 0x21 → e.queue = 3 → Claims.OneRow e.a → Claims.OneRow e.d → e.a.rowLen = e.d.rowLen →
    e.a.base + e.a.rowLen ≤ 0x200000 → e.d.base + e.d.rowLen ≤ 0x200000 →
    Claims.NoError s (Claims.rowAddr c e.a) e.a.rowLen → Claims.NoError s (Claims.rowAddr c e.d) e.d.rowLen →
    let P (t : State) : Prop := Claims.RowCopied c e.a e.d s t ∧ (∃ x, t.entry c.toNat e.slot = some x ∧ x.done = true) ∧
      { t with mem := s.mem, spMark := s.spMark, cores := s.cores, regs := s.regs } = s
    (Claims.Starts s c 3 e → s.moveCause c.toNat e = none → s.pitchMiss c.toNat e = none → Answers (.bulkStart c 3 f) s P) ∧
    (∀ slot : BitVec 9, s.entry c.toNat slot.toNat = some e → e.state = .replaying → e.fault ≠ 0 → (e.fault = 5 → e.repairDone = true) →
      e.done = false → e.sent = [] → e.waitFor = none → (s.core c.toNat).power = 2 → Answers (.replay c slot f) s P)

/-- An operation whose outputs are written and checked completes and counts its signal token once (R134); a counter at 255 keeps its
value and the loss is recorded with source 7 (R119). -/
def Sys2Proof.Clauses.OperationsCompleteAndSignal : Prop :=
  ∀ (c : CoreId) (slot : BitVec 9) (s : State) (e : Entry), Claims.Running s → s.entry c.toNat slot.toNat = some e →
    (e.state = .running ∨ e.state = .replaying) → e.done = true →
    let n := Claims.counter s c e.word.signal
    Answers (.bulkComplete c slot) s fun t =>
      t.entry c.toNat slot.toNat = some { e with state := .completed } ∧ t.mem = s.mem ∧
      (e.word.signal = 0 ∨ n < 255 → Claims.counter t c e.word.signal = (if e.word.signal = 0 then 0 else n + 1)) ∧
      (e.word.signal ≠ 0 → n = 255 → Claims.counter t c e.word.signal = 255 ∧
        t.bit (cA c.toNat TOK_OVERFLOW) e.word.signal.toNat = true ∧
        (s.bit (cA c.toNat ICC_ENABLE) 7 = true → t.bit (cA c.toNat ICC_PENDING) 7 = true)) ∧
      t.reg (cA c.toNat VU_OPS) = s.reg (cA c.toNat VU_OPS) + (if e.queue = 2 then 1 else 0)

/-- A completed operation whose producers have settled or failed settles: its entry is freed and with FWD one increment leaves for
its signal target (R189, R203); one with an open producer stays as it is. -/
def Sys2Proof.Clauses.OperationsSettle : Prop :=
  ∀ (c : CoreId) (slot : BitVec 9) (s : State) (e : Entry), Claims.Running s → s.entry c.toNat slot.toNat = some e → e.state = .completed →
    ((∀ p ∈ e.producers, ∀ x ∈ (s.core c.toNat).tally, x.tag = p → x.state = .failed) →
      Answers (.settle c slot) s fun t =>
        (t.core c.toNat).tally = (s.core c.toNat).tally.filter (fun x => x.slot ≠ slot.toNat) ∧ t.mem = s.mem ∧
        (e.word.flags.getLsbD 3 = true → e.word.signal ≠ 0 → e.fwd.getLsbD 31 = false → e.fwd.toNat % 16 ≠ 0 →
          s.unserved (e.fwd.toNat / 2 ^ 7 % 1024) = false →
          s.net.msgs ++ [{ typ := 1, kind := 0, dest := e.fwd.toNat / 2 ^ 7 % 1024, src := c.toNat,
                           arg := BitVec.ofNat 6 (e.fwd.toNat % 16), payload := 0, event := none }] <+: t.net.msgs)) ∧
    ((∃ p ∈ e.producers, ∃ x, (s.core c.toNat).tally.find? (fun x => x.tag == p) = some x ∧ x.state ≠ .failed) →
      exec (.settle c slot) s = .next s)

/-! ### The crier network (R119, R208, R210, R211, R240, R242, R413, R472, R525) -/

/-- TOKEN_INCREMENT, SETTLE_NOTICE and BILO_RELAY: the first message of its source and destination is taken; an increment counts at
a core under no reset and is dropped at another; a notice drops the operation's open writes. -/
def Sys2Proof.Clauses.TokensAndNoticesArrive : Prop :=
  ∀ (c : CoreId) (i : Nat) (m : Crier) (k : BitVec 4) (s : State), Claims.Running s → Claims.Next s i m →
    (m.typ = 1 → m.dest = c.toNat → m.arg.toNat % 16 = k.toNat → Claims.Reachable s c →
      Answers (.tokenIncrement i) s fun t => Claims.Taken s t i ∧ Claims.Arrived c k s t) ∧
    (m.typ = 1 → m.dest = c.toNat → ¬ Claims.Reachable s c →
      Answers (.tokenIncrement i) s fun t => Claims.Taken s t i ∧ { t with net := s.net } = s) ∧
    (m.typ = 3 → Answers (.settleNotice i) s fun t =>
      Claims.Taken s t i ∧ Claims.NoticeTaken m.kind m.dest none m.src (m.payload.setWidth 16) s t) ∧
    (m.typ = 9 → m.arg.toNat % 16 = 1 → m.dest = c.toNat → m.payload.toNat % 16 = k.toNat → Claims.Reachable s c →
      Answers (.biloRelay i) s fun t => Claims.Taken s t i ∧ Claims.Arrived c k s t) ∧
    (m.typ = 9 → m.arg.toNat % 16 ≠ 1 → Answers (.biloRelay i) s fun t =>
      Claims.Taken s t i ∧ Claims.NoticeTaken m.kind m.dest (some (m.payload.toNat / 2 ^ 16 % 2 ^ 14)) m.src (m.payload.setWidth 16) s t)

/-- INTERRUPT_TO_WARDEN and FAULT_NOTICE: a forward sets the core's bit of ICP_FWD and raises its stack's source; a fault notice
takes the next sequence number and the ring's next record with source 33, or is dropped and counted where the ring is full. -/
def Sys2Proof.Clauses.WardenTakesForwardsAndFaults : Prop :=
  ∀ (i : Nat) (m : Crier) (s : State), s.warden.stopped ≠ 2 → Claims.Next s i m →
    (m.typ = 2 → 1 ≤ m.payload.toNat → m.payload.toNat ≤ 1023 → Answers (.interruptToWarden i) s fun t => Claims.Taken s t i ∧
      (m.payload.toNat ≤ 16 → t.bit (pA ICP_FWD + 8 * (m.payload.toNat - 1)) (m.src % 64) = true) ∧
      (Claims.pkgEnabled s m.payload.toNat = true → Claims.pkgPending t m.payload.toNat = true) ∧ t.mem = s.mem) ∧
    (∀ e, m.typ = 4 → m.event = some e →
      let head := s.fld (pA EVT_HEAD) 16 0
      let unread := (head + 2 ^ 17 - s.fld (pA EVT_TAIL) 16 0) % 2 ^ 17
      Answers (.faultNotice i) s fun t =>
        Claims.Taken s t i ∧ (t.reg (pA EVT_SEQ)).toNat = ((s.reg (pA EVT_SEQ)).toNat + 1) % 2 ^ 32 ∧
        (unread ≠ 65536 → t.fld (pA EVT_HEAD) 16 0 = (head + 1) % 2 ^ 17 ∧
          t.byte (pA 0x200000 + 32 * (head % 65536)) = e.cls ∧ t.byte (pA 0x200000 + 32 * (head % 65536) + 1) = e.code ∧
          (∀ a, a < pA 0x200000 + 32 * (head % 65536) ∨ pA 0x200000 + 32 * (head % 65536) + 32 ≤ a → t.byte a = s.byte a) ∧
          (Claims.pkgEnabled s 33 = true → Claims.pkgPending t 33 = true)) ∧
        (unread = 65536 → t.mem = s.mem ∧ t.fld (pA EVT_HEAD) 16 0 = head ∧
          t.fld (pA EVT_DROPPED) 31 0 = min (s.fld (pA EVT_DROPPED) 31 0 + 1) (2 ^ 32 - 1)))

/-- MAP_UPDATE, RESET_ENDED, REDUCTION_RESTART and BRINGUP_COMMAND: the next router and network interface of the message's stack
(log entry 12) take the changed stack's epoch, no other node does, and with the last of the 64 the message is gone and the stack's
copy has the substitutions; where the changed stack's own node is the one that changed its pair, every row of its vault becomes
invalid; replays that wait for a core of the stack whose reset ended go on; the sends into a restarted reduction are replayed; a
steward takes its command. -/
def Sys2Proof.Clauses.NodesTakeMapsEndsAndRestarts : Prop :=
  ∀ (i : Nat) (m : Crier) (s : State), Claims.Running s → Claims.Next s i m →
    (∀ x r o n, m.typ = 5 → s.net.change = some (x, r, o, n) → x < 16 → let u := m.dest / 64
      let node := u * 64 + (s.net.told.filter fun d => d / 64 = u).length
      Answers (.mapUpdate i) s fun t =>
        (∀ d, t.nodeEpoch d x = if d = node ∨ (node % 64 = 63 ∧ d / 64 = u) then (s.reg (pA MAP_EPOCH + 4 * x)).setWidth 8
          else s.nodeEpoch d x) ∧
        (node % 64 < 63 → t.net.msgs = s.net.msgs ∧ t.net.told = s.net.told ++ [node]) ∧
        (node % 64 = 63 → Claims.Taken s t i ∧ t.subWord u x = (s.reg (pA MAP_SUB + 4 * x)).setWidth 32) ∧
        (∀ v y, y < 16 → v ≠ u ∨ y ≠ x → t.epochAt v y = s.epochAt v y ∧ t.subWord v y = s.subWord v y) ∧
        (u ≠ x → { t with net := s.net } = s) ∧
        (u = x → ∀ f g a, movedPair x r o n = some (node, f, g) → vaultBase node ≤ a → a < vaultBase (node + 1) →
          t.rowValid a = false)) ∧
    (∀ (d w : Nat) (e : Entry), m.typ = 6 → d / 64 = m.dest / 64 → e ∈ (s.core d).tally → e.waitFor = some (.reset w) →
      w / 64 = m.payload.toNat → s.absorbing w = false →
      Answers (.resetEnded i) s fun t => Claims.Taken s t i ∧ { e with waitFor := none } ∈ (t.core d).tally ∧
        t.regs = s.regs ∧ t.mem = s.mem) ∧
    (∀ (e : Entry) (slot : Nat), m.typ = 7 → Claims.SlotsDiffer s m.dest → s.entry m.dest slot = some e → e.opcode = 0x24 →
      e.red ≠ 0 → e.destCore = m.src → e.channel = m.payload.toNat % 256 → e.state = .running → e.sent ≠ [] → e.fault = 0 →
      Answers (.reductionRestart i) s fun t => ∃ x, t.entry m.dest slot = some x ∧ x.state = .replaying ∧ x.fault = 7 ∧ x.sent = [] ∧
        x.waitFor = some (.route m.src)) ∧
    (m.typ = 8 → exec (.bringupCommand i) s = .next (s.dropMsg i))

/-! ### Packets, links and the map (R187, R226 to R240) -/

/-- PACKET_HOP: a packet whose epoch is its source's goes into its router, one of another epoch is dropped and counted there; from a
router, at its turn and with room ahead, it goes along X, then Y, its DETOUR set by a detour on the way and its repeats counted at
the router it enters, or is delivered at its destination; over a link that is down with no detour its sender is told LINK. -/
def Sys2Proof.Clauses.PacketsFollowTheirRoute : Prop :=
  ∀ (i : Nat) (repeats : List Nat) (p : Packet) (s : State), Claims.Running s → s.net.packets[i]? = some p →
    s.packetFirst i = true → (∀ c, s.planFor c p = none) → Claims.NotRefused s p →
    (p.place = .injected → s.linkRoom p p.src 0 = true → p.sepoch = s.nodeEpoch p.src (p.src / 64) →
      Answers (.packetHop i repeats) s fun t =>
        t.net.packets = s.net.packets.eraseIdx i ++
          [{ p with place := .router p.src, arrive := 0, phys := s.physOf p.src, plan := none }] ∧ { t with net := s.net } = s) ∧
    (p.place = .injected → s.linkRoom p p.src 0 = true → p.checked = false → p.sepoch ≠ s.nodeEpoch p.src (p.src / 64) →
      s.physOf p.src ≠ p.phys →
      Answers (.packetHop i repeats) s fun t => t.net.packets = s.net.packets.eraseIdx i ∧ t.mem = s.mem) ∧
    (∀ c : Nat, p.place = .router c → Claims.AtItsTurn s p c → p.baseTaken = false → c ≠ p.dest →
      let h := nextHop c p.dest
      (h.1 / 64 = c / 64 ∨ s.fenced p (h.1 / 64) = false) →
      ((∀ l ∈ s.downOn c h.1, s.detours l = true) →
        Answers (.packetHop i repeats) s fun t =>
          t.net.packets = s.net.packets.eraseIdx i ++ [{ p with
            place := .router h.1, arrive := h.2, phys := s.physOf h.1, plan := none,
            detour := p.detour || decide (s.downOn c h.1 ≠ []) }] ∧ t.mem = s.mem ∧
          (repeats = [] → { t with net := s.net } = s) ∧
          ∀ l n far d, s.linksTaken c h.1 = [l] → repeats = [n] → linkEnd l.1 l.2.1 l.2.2 = some far →
            s.servedBy (far.1 * 128 + far.2.1 / 9 * 16 + far.2.1 % 9) = some d →
            t.reg (cA d NI_RETRIES) = s.reg (cA d NI_RETRIES) + BitVec.ofNat 64 n) ∧
      ((∃ l ∈ s.downOn c h.1, s.detours l = false) → p.port = none → p.response = false → p.final = true →
        (p.typ = 0 → p.senders = [(p.src, p.tag)]) →
        Answers (.packetHop i repeats) s fun t => ∃ q, t.net.packets = s.net.packets.eraseIdx i ++ [q] ∧ q.typ = 6 ∧ q.status = 5 ∧
          q.dest = p.src ∧ q.tag = p.tag ∧ q.place = .router c)) ∧
    (∀ c : Nat, p.place = .router c → Claims.AtItsTurn s p c → p.baseTaken = false → c = p.dest → p.typ ≠ 7 →
      (s.absorbing c = false → p.depoch = s.nodeEpoch c (c / 64) ∨ p.phys = s.physOf c → Answers (.packetHop i repeats) s fun t =>
        t.net.packets = s.net.packets.eraseIdx i ++ [{ p with place := .delivered c }] ∧ { t with net := s.net } = s) ∧
      ((s.absorbing c = true ∧ s.drains p (c / 64) = false) ∨
        (s.absorbing c = false ∧ p.depoch ≠ s.nodeEpoch c (c / 64) ∧ p.phys ≠ s.physOf c) →
        p.port = none → p.response = false → p.final = true → (p.typ = 0 → p.senders = [(p.src, p.tag)]) →
        Answers (.packetHop i repeats) s fun t => ∃ q, t.net.packets = s.net.packets.eraseIdx i ++ [q] ∧ q.typ = 6 ∧ q.status = 2 ∧
          q.dest = p.src ∧ q.tag = p.tag ∧ q.place = .router c))

/-- PLAN_MERGE: a plan of RED 1 that names two ports and has one packet whole of each adds their FP32 words in port order and sends
on one stream whose count is the sum; while a port's stream is not whole it waits, and nothing changes. The plan is the one that the
packets met when they arrived (R244). -/
def Sys2Proof.Clauses.PlansMergeTheirPorts : Prop :=
  ∀ (c : CoreId) (m : BitVec 4) (w : W32) (s : State) (p q : Packet), Claims.Running s →
    (∀ x ∈ s.net.packets, x.place = .router c.toNat → ∀ v, x.plan = some (m.toNat, v) → v = w) →
    (p ∈ s.planHeld c.toNat m.toNat w → (∃ x, x < 5 ∧ planInput w x = true ∧
        ∀ y ∈ s.planHeld c.toNat m.toNat w, y.arrive = x → y.final = false) →
      exec (.planMerge c m) s = .next s) ∧
    (s.planHeld c.toNat m.toNat w = [p, q] → p.arrive < q.arrive → q.arrive < 5 →
      (∀ x, x < 5 → (planInput w x = true ↔ x = p.arrive ∨ x = q.arrive)) → planRed w = 1 →
      p.final = true → q.final = true → p.len = 0 → q.len = 0 → p.data.length = q.data.length → p.data.length % 4 = 0 →
      0 < p.data.length → p.data.length ≤ 4096 →
      Answers (.planMerge c m) s fun t => ∃ r,
        t.net.packets = s.net.packets.filter (fun x => !(x.place == .router c.toNat && x.plan == some (m.toNat, w))) ++ [r] ∧
        r.data = bytes32 (List.zipWith fadd (words32 p.data) (words32 q.data)) ∧ r.count = p.count + q.count ∧
        r.senders = p.senders ++ q.senders ∧ r.place = .router c.toNat ∧ r.plan = none ∧ r.first = true ∧ r.final = true ∧
        { t with net := s.net } = s)

/-! ### Vaults and the slow tier (R250, R254, R258, R261, R268, R278, R282 to R285) -/

/-- HAUL_DOWN and REFRESH_SLOT: a haul goes down once, its 8 failed repeats counted, with its status bit and event; the slot of the
bank whose turn it is refreshes it where the bench's interval makes it due and stays idle where it does not, and the turn goes to
the next bench, after the last to the next bank; a slot of another bank, or of benches that refresh themselves, does nothing. -/
def Sys2Proof.Clauses.HaulsGoDownAndSlotsRefresh : Prop :=
  ∀ (st : StackId) (v : BitVec 6) (s : State), Claims.Running s →
    let c := st.toNat * 64 + v.toNat
    ((s.vault c).haulDown = false → Answers (.haulDown st v) s fun t => (t.vault c).haulDown = true ∧
      t.bit (vA c VC_STATUS) 0 = true ∧ t.fld (vA c VC_HAUL_RETRY) 31 0 = min (s.fld (vA c VC_HAUL_RETRY) 31 0 + 8) (2 ^ 32 - 1) ∧
      Claims.EventSent t 0x30 5 ∧ t.mem = s.mem ∧ t.cores = s.cores) ∧
    ((s.vault c).haulDown = true → exec (.haulDown st v) s = .next s) ∧
    ∀ (bench : BitVec 4) (bank : BitVec 3) (m : Nat),
      let rate (n : Nat) := if s.fld (vA c VC_REFRESH) 31 16 ≠ 0 ∨
        s.warden.pausing = true then 0 else s.fld (vA c VC_BENCH_RATE) (2 * n + 1) (2 * n)
      let b := bench.toNat * 8 + bank.toNat
      let idle := smGet 0 (s.vault c).slots b
      let rests := s.host.restPhase = 1 ∨ (s.stack (c / 64)).fence = true
      (rests ∨ (s.vault c).slot ≠ b → exec (.refreshSlot st v bench bank) s = .next s) ∧
      (¬ rests → (s.vault c).slot = b → (∀ n, n < 16 → rate n ≤ m) → (∃ n, n < 16 ∧ rate n = m) →
      Answers (.refreshSlot st v bench bank) s fun t =>
        (2 ^ (m - rate bench.toNat) ≤ idle + 1 → smGet 0 (t.vault c).slots b = 0 ∧
          t.reg (vA c VC_REFRESHES) = s.reg (vA c VC_REFRESHES) + 1 ∧ ∀ a, a ≠ vA c VC_REFRESHES → t.reg a = s.reg a) ∧
        (idle + 1 < 2 ^ (m - rate bench.toNat) → smGet 0 (t.vault c).slots b = idle + 1 ∧ t.regs = s.regs) ∧
        (t.vault c).slot = (if bench.toNat < 15 then (bench.toNat + 1) * 8 + bank.toNat else (bank.toNat + 1) % 8) ∧
        { t with regs := s.regs, vaults := s.vaults } = s)

/-- VC_CLEAR and VC_CLEAR_END: GO with LAST not below FIRST starts a clear of those benches; at its end their rows are invalid zeros
without poison, and every other byte and row is as before. -/
def Sys2Proof.Clauses.ClearsEmptyTheirBenches : Prop :=
  ∀ (st : StackId) (v : BitVec 6) (s : State),
    let c := st.toNat * 64 + v.toNat
    (∀ (req : Requester) (value : W32), Claims.Admitted s req (vA c VC_CLEAR) → value &&& 0x3FFFF00F = 0 →
      s.bit (vA c VC_CLEAR) 30 = false →
      let f := bits (value.setWidth 64) 7 4
      let l := bits (value.setWidth 64) 11 8
      (f ≤ l → Answers (.vcClear req st v value) s fun t => (t.vault c).clearing = some (f, l) ∧ t.bit (vA c VC_CLEAR) 31 = true ∧
        t.bit (vA c VC_CLEAR) 30 = true ∧ t.bit (vA c VC_STATUS) 1 = true ∧ t.mem = s.mem ∧ t.cores = s.cores) ∧
      (l < f → Answers (.vcClear req st v value) s fun t => t.vault c = s.vault c ∧ t.bit (vA c VC_CLEAR) 30 = false ∧
        t.mem = s.mem ∧ t.cores = s.cores)) ∧
    ∀ f l, Claims.Running s → (s.vault c).clearing = some (f, l) → f ≤ l → l < 16 → (s.vault c).opens = [] → (s.vault c).cmds = [] →
      (s.vault c).unchecked = [] →
      Answers (.vcClearEnd st v) s fun t =>
        let lo := 0x80000000 * c + 0x8000000 * f
        let hi := 0x80000000 * c + 0x8000000 * (l + 1)
        (t.vault c).clearing = none ∧ t.bit (vA c VC_CLEAR) 31 = false ∧ t.bit (vA c VC_CLEAR) 30 = false ∧
        t.bit (vA c VC_STATUS) 1 = false ∧
        (∀ a, lo ≤ a → a < hi → t.byte a = 0 ∧ t.rowValid a = false ∧ t.rowSummary a = false ∧ t.fastSynAt a = 0 ∧
          (t.seg (a / 4096)).gen = none) ∧
        ∀ a, a < lo ∨ hi ≤ a → t.byte a = s.byte a ∧ t.rowValid a = s.rowValid a ∧ t.rowSummary a = s.rowSummary a

/-- VC_REPAIR and VC_REPAIR_END: GO holds the row it names, or is refused with an event where its bank or vault has no spare left;
the end maps the row's place to the next spare of its bank and puts it in the defects, its data unchanged. -/
def Sys2Proof.Clauses.RowsAreSpared : Prop :=
  ∀ (st : StackId) (v : BitVec 6) (s : State),
    let c := st.toNat * 64 + v.toNat
    let p := s.physVault c
    let m := s.remapsOf p
    (∀ (req : Requester) (value : W32), Claims.Admitted s req (vA c VC_REPAIR) → value &&& 0x1FC00000 = 0 →
      s.bit (vA c VC_REPAIR) 30 = false →
      let bank := bits (value.setWidth 64) 21 15
      let full := 512 ≤ m.countP (fun e => e.1 / 32768 == bank) ∨ 8192 ≤ m.length
      (¬ full → Answers (.vcRepair req st v value []) s fun t =>
        (t.vault c).repair = some (0x80000000 * c + 0x1000000 * bank + 512 * bits (value.setWidth 64) 14 0) ∧
        t.bit (vA c VC_REPAIR) 31 = true ∧ t.bit (vA c VC_REPAIR) 30 = true ∧ t.mem = s.mem ∧ t.cores = s.cores) ∧
      (full → Answers (.vcRepair req st v value []) s fun t => (t.vault c).repair = (s.vault c).repair ∧
        t.bit (vA c VC_REPAIR) 29 = true ∧ Claims.EventSent t 0x30 4 ∧ t.mem = s.mem ∧ t.cores = s.cores)) ∧
    ∀ row, Claims.Running s → (s.vault c).repair = some row → row / 0x80000000 = c → (s.vault c).cmds = [] →
      (s.vault c).unchecked = [] → (s.vault c).writeBacks = [] → (s.rowValid row = true → Claims.CleanRow s row) →
      Answers (.vcRepairEnd st v) s fun t =>
        let place := 32768 * (row / 0x1000000 % 128) + row / 512 % 32768
        (t.vault c).repair = none ∧ t.remapsOf p = m ++ [(place, m.countP (fun e => e.1 / 32768 == place / 32768))] ∧
        BitVec.ofNat 64 (0x1000000000000000 + 0x100000000000000 * (p / 72) + 0x2000000000000 * (p % 72) + 0x8000000 * place)
          ∈ t.warden.defects ∧
        t.bit (vA c VC_REPAIR) 31 = false ∧ t.bit (vA c VC_REPAIR) 30 = false ∧ Claims.EventSent t 0x30 3 ∧ t.mem = s.mem ∧
        t.valid = s.valid ∧ t.cores = s.cores

/-- SLOW_CHANNEL_DOWN, SLOW_CLEAR and SLOW_CLEAR_END: a channel goes down once with its event; a zero fill, once asked for, ends
with the channel's lines zero and good and every other byte as before. -/
def Sys2Proof.Clauses.SlowChannelsGoDownAndClear : Prop :=
  ∀ (st : StackId) (s : State),
    let k := st.toNat
    (Claims.Running s → s.bit (sA k SLOW_STATUS) 3 = false → Answers (.slowChannelDown st) s fun t =>
      t.bit (sA k SLOW_STATUS) 3 = true ∧ t.bit (sA k SLOW_STATUS) 0 = false ∧ Claims.EventSent t 0x30 6 ∧ t.mem = s.mem ∧
      t.cores = s.cores) ∧
    (∀ req : Requester, Claims.Admitted s req (sA k SLOW_CLEAR) → s.bit (sA k SLOW_STATUS) 2 = false →
      Answers (.slowClear req st) s fun t => (t.stack k).slowClearing = true ∧ t.bit (sA k SLOW_STATUS) 2 = true ∧
        t.bit (sA k SLOW_CLEAR) 31 = true ∧ t.mem = s.mem ∧ t.cores = s.cores) ∧
    (Claims.Running s → (s.stack k).slowClearing = true → Answers (.slowClearEnd st) s fun t =>
      let mine (a : Nat) : Prop := 0x040000000000 ≤ a ∧ a < 0x04F000000000 ∧ (a - 0x040000000000) / 4096 % 16 = k
      (t.stack k).slowClearing = false ∧ t.bit (sA k SLOW_STATUS) 2 = false ∧ t.bit (sA k SLOW_CLEAR) 31 = false ∧
      (∀ a, mine a → t.byte a = 0 ∧ t.slowSynAt a = 0 ∧ t.slowBits a = (false, false)) ∧
      ∀ a, ¬ mine a → t.byte a = s.byte a ∧ t.slowSynAt a = s.slowSynAt a ∧ t.slowBits a = s.slowBits a)

/-- WRITE_BACK: a word found uncorrectable on a read is written as zeros that read as poisoned with its summary bit; one that was
corrected is written as the read gave it; no other byte changes and nothing of it waits any more. Of a row that has become invalid
it is dropped. A line is written the same way and counted, where its channel is up. -/
def Sys2Proof.Clauses.WriteBacksFixTheirWords : Prop :=
  ∀ (a : Addr) (fix : Option (List Byte)) (s : State), Claims.Running s → a.toNat % 64 = 0 → (∀ bs, fix = some bs → bs.length = 64) →
    let w := a.toNat
    let data (x : Nat) : Byte := if w ≤ x ∧ x < w + 64 then (fix.getD []).getD (x - w) 0 else s.byte x
    (w < 0x020000000000 → (s.vault (w / 0x80000000)).writeBacks.find? (fun x => x.1 == w) = some (w, fix) →
      Answers (.writeBack false a) s fun t =>
        (∀ b, (w, b) ∉ (t.vault (w / 0x80000000)).writeBacks) ∧ t.cores = s.cores ∧
        (s.rowValid w = true → (∀ x, t.byte x = data x) ∧
          (fix = none → decodeFast (t.fastSynAt w) = .poisoned ∧ t.rowSummary w = true) ∧
          (fix ≠ none → t.fastSynAt w = 0 ∧ t.regs = s.regs)) ∧
        (s.rowValid w = false → t.mem = s.mem ∧ t.regs = s.regs)) ∧
    (0x040000000000 ≤ w → w < 0x04F000000000 →
      let k := (w - 0x040000000000) / 4096 % 16
      (s.stack k).slowBack.find? (fun x => x.1 == w) = some (w, fix) →
      (s.bit (sA k SLOW_STATUS) 3 = true → exec (.writeBack true a) s = .next s) ∧
      (s.bit (sA k SLOW_STATUS) 3 = false → Answers (.writeBack true a) s fun t =>
        (∀ x, t.byte x = data x) ∧ (∀ b, (w, b) ∉ (t.stack k).slowBack) ∧ t.slowSynAt w = 0 ∧
        t.slowBits w = (fix.isNone, fix.isNone) ∧ t.reg (sA k SLOW_WRITES) = s.reg (sA k SLOW_WRITES) + 1 ∧ t.cores = s.cores))

/-- SCRUB_ROW and SCRUB_PASS_LATE: the scrubber takes the next valid row of the vault, skips and counts one that is unchecked,
locked or under repair, and reads the words of another; with SLOW it takes the channel's next line; a pass past PERIOD sets LATE. -/
def Sys2Proof.Clauses.TheScrubberWalksValidRows : Prop :=
  ∀ (st : StackId) (v : BitVec 6) (s : State), Claims.Running s →
    let c := st.toNat * 64 + v.toNat
    let k := st.toNat
    let n := (s.vault c).scrub
    (∀ r, s.bit (sA k SCRUB_CONTROL) 31 = true → s.stackDown k = false → Claims.RowsInOrder s → n < 4194304 → r % 512 = 0 →
      0x80000000 * c + 512 * n ≤ r → r < 0x80000000 * (c + 1) - 512 → s.rowValid r = true →
      (∀ q, 0x80000000 * c + 512 * n ≤ q → q < r → s.rowValid q = false) →
      (s.scrubSkips r = true → Answers (.scrubRow st v false []) s fun t =>
        (t.vault c).scrub = (r - 0x80000000 * c) / 512 + 1 ∧ t.reg (sA k SCRUB_SKIPPED) = s.reg (sA k SCRUB_SKIPPED) + 1 ∧
        t.bit (sA k SCRUB_STATUS) 0 = true ∧ t.mem = s.mem ∧ t.cores = s.cores) ∧
      (s.scrubSkips r = false → Claims.CleanRow s r → (s.vault c).writeBacks = [] →
        Answers (.scrubRow st v false []) s fun t =>
          (t.vault c).scrub = (r - 0x80000000 * c) / 512 + 1 ∧ t.reg (sA k SCRUB_SKIPPED) = s.reg (sA k SCRUB_SKIPPED) ∧
          t.reg (sA k SCRUB_CORRECTED) = s.reg (sA k SCRUB_CORRECTED) ∧ t.rowSummary r = false ∧
          t.bit (sA k SCRUB_STATUS) 0 = true ∧ t.mem = s.mem ∧ t.cores = s.cores)) ∧
    (∀ line, s.bit (sA k SCRUB_CONTROL) 31 = true → s.bit (sA k SCRUB_CONTROL) 30 = true → s.bit (sA k SLOW_STATUS) 3 = false →
      s.bit (sA k SLOW_STATUS) 2 = false → (s.stack k).slowScrub < 1006632959 →
      line = 0x040000000000 + 4096 * ((s.stack k).slowScrub / 64 * 16 + k) + 64 * ((s.stack k).slowScrub % 64) →
      s.slowBits line = (false, false) → s.slowSynAt line = 0 → (s.stack k).slowBack = [] →
      Answers (.scrubRow st v true []) s fun t => (t.stack k).slowScrub = (s.stack k).slowScrub + 1 ∧
        t.reg (sA k SLOW_READS) = s.reg (sA k SLOW_READS) + 1 ∧ t.bit (sA k SCRUB_STATUS) 0 = true ∧ t.mem = s.mem ∧
        t.cores = s.cores) ∧
    (let minutes := max 60 (min (s.fld (sA k SCRUB_CONTROL) 13 0) 10080)
     s.bit (sA k SCRUB_STATUS) 0 = true → (s.stack k).passStart + 60000000000 * minutes ≤ (s.stack k).cycles.toNat →
      Answers (.scrubPassLate st) s fun t => t.bit (sA k SCRUB_STATUS) 1 = true ∧ t.bit (sA k SCRUB_STATUS) 0 = true ∧
        Claims.OnlyRegs [sA k SCRUB_STATUS] s t)

/-! ### Near-bank computing (R294 to R314) -/

/-- NB_MODE_ENABLE, NB_READY, NB_MODE_DISABLE, NB_DRAIN_END and ROW_REBUILD: the mode is powered, ready, drained and left, every
unchecked row rebuilt by then; a rebuild in the background takes the oldest row, where nothing waits for its bank. No data changes.
-/
def Sys2Proof.Clauses.NearBankModeComesAndGoes : Prop :=
  ∀ (st : StackId) (v : BitVec 6) (s : State),
    let c := st.toNat * 64 + v.toNat
    let same (t : State) : Prop := t.mem = s.mem ∧ t.cores = s.cores
    (∀ req : Requester, Claims.Admitted s req (vA c NB_MODE) →
      (s.bit (vA c NB_MODE) 0 = false → (s.vault c).draining = false → Answers (.nbModeEnable req st v) s fun t =>
        t.bit (vA c NB_MODE) 0 = true ∧ (t.vault c).powering = true ∧ same t) ∧
      (s.bit (vA c NB_MODE) 0 = true → s.bit (vA c NB_STATUS) 0 = true → Answers (.nbModeDisable req st v) s fun t =>
        t.bit (vA c NB_MODE) 0 = false ∧ (t.vault c).draining = true ∧ same t)) ∧
    (Claims.Running s → (s.vault c).powering = true → s.bit (vA c NB_MODE) 0 = true → Answers (.nbReady st v) s fun t =>
      t.bit (vA c NB_STATUS) 0 = true ∧ (t.vault c).powering = false ∧ (t.vault c).draining = false ∧ same t) ∧
    (Claims.Running s → (s.vault c).draining = true → (s.vault c).cmds = [] → (∀ r ∈ (s.vault c).unchecked, r / 0x80000000 = c) →
      Answers (.nbDrainEnd st v) s fun t => t.bit (vA c NB_STATUS) 0 = false ∧ (t.vault c).unchecked = [] ∧
        (t.vault c).draining = false ∧ (t.vault c).powering = s.bit (vA c NB_MODE) 0 ∧
        (∀ r ∈ (s.vault c).unchecked, ∀ i, i < 8 → t.fastSynAt (r + 64 * i) = 0) ∧ same t) ∧
    ∀ r rest, Claims.Running s → (s.vault c).unchecked = r :: rest → r / 0x80000000 = c → r ∉ rest →
      s.bankQuiet c (bankOf r) = true →
      Answers (.rowRebuild st v) s fun t => (t.vault c).unchecked = rest ∧ (∀ i, i < 8 → t.fastSynAt (r + 64 * i) = 0) ∧
        t.reg (vA c NB_REBUILDS) = s.reg (vA c NB_REBUILDS) + 1 ∧ same t

/-- The nine near-bank commands: the first at a vault's input that nothing holds is accepted where it has no fault and the tables
have room, refused with a reason and status REFUSED where it has one, answered OFF where the mode is off and RESET under a stack
reset. -/
def Sys2Proof.Clauses.NearBankCommandsAreAccepted : Prop :=
  ∀ (st : StackId) (v : BitVec 6) (s : State) (k : NbCmd), Claims.Running s →
    let c := st.toNat * 64 + v.toNat
    (s.vault c).input = [k] → s.inputHolds c k = false → k.running = false →
    ∀ p ∈ Claims.nbAll st v, k.op = p.2 →
      let off := s.bit (vA c NB_MODE) 0 = false ∨ (s.vault c).draining = true
      ((s.stack (c / 64)).fence = true → Answers p.1 s fun t => (t.vault c).input = [] ∧ (t.vault c).cmds = (s.vault c).cmds ∧
        Claims.NbAnswered s t k 2 ∧ t.mem = s.mem ∧ t.cores = s.cores) ∧
      ((s.stack (c / 64)).fence = false → off → Answers p.1 s fun t => (t.vault c).input = [] ∧ (t.vault c).cmds = (s.vault c).cmds ∧
        Claims.NbAnswered s t k 7 ∧ t.mem = s.mem ∧ t.cores = s.cores) ∧
      ((s.stack (c / 64)).fence = false → ¬ off → k.reason ≠ 0 → Answers p.1 s fun t =>
        (t.vault c).input = [] ∧ (t.vault c).cmds = (s.vault c).cmds ∧ Claims.NbAnswered s t k 1 ∧
        t.fld (vA c NB_REFUSED) 15 0 = min (s.fld (vA c NB_REFUSED) 15 0 + 1) 65535 ∧ t.mem = s.mem ∧ t.cores = s.cores) ∧
      ((s.stack (c / 64)).fence = false → ¬ off → k.reason = 0 → (s.vault c).cmds.length < 256 →
        (∀ x, k.core = some x → (s.vault c).opens.length < 64 ∧ ∀ w ∈ (s.vault c).opens, w.core ≠ x ∨ w.tag ≠ k.tag) →
        Answers p.1 s fun t => (t.vault c).input = [] ∧
          (t.vault c).cmds.map NbCmd.bytes = ((s.vault c).cmds ++ [k]).map NbCmd.bytes ∧
          (k.core = none → (t.vault c).opens = (s.vault c).opens) ∧
          (∀ x, k.core = some x → ∃ w, (t.vault c).opens = (s.vault c).opens ++ [w] ∧ w.core = x ∧ w.tag = k.tag ∧
            w.rows = some (k.writes.map k.rowAddr)) ∧ t.mem = s.mem ∧ t.net = s.net ∧ t.cores = s.cores ∧
          ((s.bit (vA c NB_STATUS) 0 = true → ∀ j ∈ (s.vault c).cmds ++ [k], s.nbAdmits c j.bank = true) →
            (t.vault c).cmds = (s.vault c).cmds ++ [k] ∧ t.regs = s.regs))

/-! ### The update unit (R341 to R360) -/

/-- LEND, LEND_EFFECT, RELEASE and UPD_CONFIG_WRITE: a lend of a window that master 3's pitches grant waits for the core's engine
operations, then holds its engines; a release ends it and answers both; DELAY changes only while no tensor is open, and a write at
any other time sets ERROR. -/
def Sys2Proof.Clauses.LendsComeAndGo : Prop :=
  ∀ (st : StackId) (s : State) (k : UpdCmd),
    let u := st.toNat
    (Claims.Running s → Claims.UpdFirst s u k 1 → k.reason = 0 → (∀ x ∈ (s.stack u).lends, x.core ≠ k.core) →
      let lo := bits (k.word 2) 12 0
      let hi := bits (k.word 2) 28 16
      let granted := lo ≤ hi ∧ hi ≤ 0x1BFF ∧ s.pitchOk k.core 3 (lo * 256) ((hi + 1 - lo) * 256) false = true ∧
        s.pitchOk k.core 3 (lo * 256) ((hi + 1 - lo) * 256) true = true
      (granted → Answers (.updLend st) s fun t => (t.stack u).updIn = [] ∧
        (t.stack u).lends = (s.stack u).lends ++ [⟨k.core, lo, hi, k.tag, false⟩] ∧ t.cores = s.cores ∧
        t.regs = s.regs ∧ t.net = s.net ∧ t.mem = s.mem) ∧
      (¬ granted → Answers (.updLend st) s fun t => Claims.UpdRefused s t u k 0 6 ∧ t.mem = s.mem)) ∧
    (∀ (c : CoreId) (x : Lend), Claims.Running s → (s.stack (c.toNat / 64)).lends = [x] → x.core = c.toNat → x.effective = false →
      ((∀ e ∈ (s.core c.toNat).tally.takeWhile (fun e => e.tag ≠ x.tag), 2 ≤ e.queue ∨ e.state = .failed) →
        Answers (.lendEffect c) s fun t => (t.core c.toNat).lentTo = some (x.base * 256) ∧
          (t.stack (c.toNat / 64)).lends = [{ x with effective := true }] ∧
          t.bit (sA (c.toNat / 64) UPD_LENT) (c.toNat % 64) = true ∧ t.net = s.net ∧ t.mem = s.mem) ∧
      ((∃ e ∈ (s.core c.toNat).tally.takeWhile (fun e => e.tag ≠ x.tag), e.queue < 2 ∧ e.state ≠ .failed) →
        exec (.lendEffect c) s = .next s)) ∧
    (∀ (v : Nat) (x : Lend), Claims.Running s → Claims.UpdFirst s u k 2 → k.reason = 0 → v < 64 →
      k.word 2 = BitVec.ofNat 64 (2 ^ v) → (s.stack u).lends = [x] → x.core = u * 64 + v →
      Answers (.updRelease st) s fun t => (t.stack u).lends = [] ∧ (t.stack u).updIn = [] ∧ (t.core x.core).lentTo = none ∧
        t.bit (sA u UPD_LENT) v = false ∧ t.mem = s.mem ∧
        ∃ q r, t.net.packets = s.net.packets ++ [q, r] ∧ q.typ = 6 ∧ q.dest = x.core ∧ q.tag = x.tag ∧ q.status = 0 ∧
          r.typ = 6 ∧ r.dest = k.core ∧ r.tag = k.tag ∧ r.status = 0) ∧
    ∀ (req : Requester) (value : W32), Claims.Admitted s req (sA u UPD_CONFIG) → value &&& 0x7FFFFFF8 = 0 →
      Answers (.updConfigWrite req st value) s fun t =>
        ((s.stack u).tensors = [] → t.fld (sA u UPD_CONFIG) 2 0 = value.toNat % 8) ∧
        ((s.stack u).tensors ≠ [] → t.fld (sA u UPD_CONFIG) 2 0 = s.fld (sA u UPD_CONFIG) 2 0 ∧
          t.bit (sA u UPD_CONFIG) 31 = true) ∧
        t.mem = s.mem ∧ t.cores = s.cores

/-- What refuses an update-unit command (R357): a reserved field, an entry that is not valid or is open already, a tensor that is
not open or has failed, a CLOSE out of order; where the memory it reads is free (log entry 140). -/
def Sys2Proof.Clauses.UpdateCommandsAreRefused : Prop :=
  ∀ (st : StackId) (s : State) (k : UpdCmd), Claims.Running s →
    let u := st.toNat
    let n := k.tensor
    (k.reason ≠ 0 → ∀ p ∈ Claims.updAll st, Claims.UpdFirst s u k p.2 →
      Answers p.1 s fun t => Claims.UpdRefused s t u k n k.reason ∧ t.mem = s.mem) ∧
    (k.reason = 0 → k.count = 1 → Claims.UpdFirst s u k 0x10 → s.tensorOpen u n = true →
      s.unitHeld [(s.tableAt u n, 64)] [(s.tableAt u n, 64)] = false →
      Answers (.updOpen st) s fun t => Claims.UpdRefused s t u k n 3) ∧
    (∀ x, k.reason = 0 → k.count = 1 → k.through = 0 → k.mid = false → Claims.UpdFirst s u k 0x11 → s.workHeld u n = false →
      (s.tensor u n = none → Answers (.updClose st) s fun t => Claims.UpdRefused s t u k n 3 ∧ t.mem = s.mem) ∧
      (s.tensor u n = some x → x.failed = true → Answers (.updClose st) s fun t =>
        Claims.UpdRefused s t u k n (if x.partial_ then 7 else 5) ∧ t.mem = s.mem) ∧
      (s.tensor u n = some x → x.failed = false → k.step ≠ x.closed + 1 → Answers (.updClose st) s fun t =>
        Claims.UpdRefused s t u k n 4 ∧ t.mem = s.mem)) ∧
    (k.reason = 0 → k.count = 1 → s.tensor u n = none →
      (Claims.UpdFirst s u k 0x12 → Answers (.updDrain st) s fun t => Claims.UpdRefused s t u k n 3 ∧ t.mem = s.mem) ∧
      (Claims.UpdFirst s u k 0x13 → Answers (.updRecon st) s fun t => Claims.UpdRefused s t u k n 3 ∧ t.mem = s.mem))

/-- OPEN, CLOSE, DRAIN and RECON of one tensor whose entry lies in the fast tier complete, whatever its slots and memory hold, where
nothing holds that memory: a valid entry that is not open opens; an open tensor closes its next step under a delay once what is due
has landed without poison, drains once no exact update of it waits, and reconciles. Each answers its UDD OK. -/
def Sys2Proof.Clauses.UnitCommandsComplete : Prop :=
  ∀ (st : StackId) (s : State) (k : UpdCmd), Claims.Running s → k.reason = 0 → k.count = 1 →
    let u := st.toNat
    let n := k.tensor
    s.tableAt u n + 64 ≤ 0x020000000000 → s.unitHeld [(s.tableAt u n, 64)] [(s.tableAt u n, 64)] = false → s.workHeld u n = false →
    (let x := newTensor n (s.readTable u n).2 k.step
     Claims.UpdFirst s u k 0x10 → s.tensorOpen u n = false → tensorOk u (s.updDelay u) x = true →
      Answers (.updOpen st) s fun t => Claims.UpdDone s t u k ∧ t.tensor u n = some x) ∧
    ∀ x, s.tensor u n = some x → x.failed = false → tensorOk u (s.updDelay u) x = true →
      (Claims.UpdFirst s u k 0x11 → k.through = 0 → k.mid = false → k.step = x.closed + 1 → 1 ≤ s.updDelay u →
        (∀ q ∈ x.slots, (s.updDelay u : Int) ≤ (k.step - q.stepNo).toInt → q.landed = true ∧ q.poisoned = false) →
        Answers (.updClose st) s fun t => Claims.UpdDone s t u k ∧ ∃ y, t.tensor u n = some y ∧ y.closed = k.step ∧ y.failed = false) ∧
      (Claims.UpdFirst s u k 0x12 → (∀ e ∈ (s.stack u).exacts, e.tensor ≠ n) → Answers (.updDrain st) s fun t => Claims.UpdDone s t u k ∧
        (k.flags = 1 → t.tensor u n = none) ∧ (k.flags = 0 → ∃ y, t.tensor u n = some y ∧ y.since = 0 ∧ ∀ q ∈ y.slots, q.landed = false)) ∧
      (Claims.UpdFirst s u k 0x13 → Answers (.updRecon st) s fun t => Claims.UpdDone s t u k ∧
        ∃ y, t.tensor u n = some y ∧ y.since = 0 ∧ y.slots = x.slots)

/-- EXACT_UPDATE completes, whatever rule, slot and memory hold: the first of the unit's queue whose slot is closed lands, where
nothing holds its memory and, of a rule with matrix products, ITER is 3 or more, a core is lent, and the lent cores' hauls are up
and their windows granted to master 3; no chunk meets an error twice and no lent operation fails again. -/
def Sys2Proof.Clauses.ExactUpdatesComplete : Prop :=
  ∀ (st : StackId) (parity : List Nat) (lent : Option LentFault) (s : State) (e : Exact) (rest : List Exact) (x : Tensor) (q : Slot),
    Claims.Running s → let u := st.toNat
    (s.stack u).exacts = e :: rest → s.tensor u e.tensor = some x → x.slotIn e.slot = some q → q.closed = true →
    (∀ n, parity.count n ≤ 1) → (∀ f, lent = some f → f.again = false) →
    s.unitHeld (x.exactSpans q).1 (x.exactSpans q).2 = false →
    (x.rule = 1 ∨ x.rule = 3 → 3 ≤ (s.exactRules u e x q).iter ∧ (∃ l ∈ (s.stack u).lends, l.effective = true) ∧
      ∀ l ∈ (s.stack u).lends, l.effective = true → (s.vault l.core).haulDown = false ∧
        ∀ w, s.pitchGap l.core 3 (l.base * 256) ((l.limit + 1 - l.base) * 256) w = none) →
    Answers (.exactUpdate st parity lent) s fun t => (t.stack u).exacts = rest ∧
      t.reg (sA u UPD_ELEMENTS) = s.reg (sA u UPD_ELEMENTS) + BitVec.ofNat 64 x.size ∧
      ∃ y, t.tensor u e.tensor = some y ∧ y.failed = x.failed ∧ ∃ z ∈ y.slots, z.place = e.slot ∧ z.landed = true

/-- STALLED_CONTRIBUTION completes, whatever the words of the slot hold: the first contribution that stands stalled at the vault's
input lands once its slot takes it (R351), where nothing holds the rows: its contributor's bit is set and its sender answered OK,
POISON or SATURATED. -/
def Sys2Proof.Clauses.StalledContributionsComplete : Prop :=
  ∀ (st : StackId) (v : BitVec 6) (s : State) (i : Nat) (p : Packet) (b : Nat), Claims.Running s →
    let c := st.toNat * 64 + v.toNat
    let a := p.addr.toNat
    s.net.packets[i]? = some p → p.held = 2 →
    (∀ j q, j < i → s.net.packets[j]? = some q → q.held = 2 → q.place ≠ .delivered c) → (p.typ = 4 ∨ p.typ = 5) → p.len = 0 →
    (∀ q ∈ s.net.packets, p.partOfIt q = false) → p.pieces = [(a, p.data.length)] → p.contrib < 64 →
    Claims.AtTarget s i p.typ p.data.length true true p c → (s.land a p.gen).2 = .at_ b → s.mustWait true (b, p.data.length) = false →
    Answers (.stalledContribution st v) s fun t =>
      (∃ status, (status = 0 ∨ status = 3 ∨ status = 6) ∧ Claims.AnsweredWith s t i p c 6 status []) ∧
        (t.seg (b / 4096)).bitmap.getLsbD p.contrib = true

/-! ### Interrupt controllers (R409 to R423) -/

/-- CLAIM, EOI and STACK_CTL of a core's controller and of the package's: a claim takes a pending source and runs at its priority;
an end returns to the saved one; one out of order, or a ninth claim, freezes the controller with its event and source 35. -/
def Sys2Proof.Clauses.ControllersClaimEndAndReset : Prop :=
  ∀ (req : Requester) (s : State),
    (∀ (c : CoreId) (n : BitVec 6), (s.core c.toNat).power ≠ 0 →
      Claims.ControllerRules s req (some c.toNat) n.toNat (.iccClaim req c n) (.iccEoi req c n) (.iccStackReset req c)) ∧
    ∀ n : BitVec 10, Claims.ControllerRules s req none n.toNat (.icpClaim req n) (.icpEoi req n) (.icpStackReset req)

/-- ICC_SEND, ICC_RAISE, ICC_PENDING_CLEAR, ICP_RAISE, ICP_PENDING_CLEAR and ICP_FWD_CLEAR: a number from 256 leaves for the warden;
raised sources are pending where enabled; cleared ones are not; the last bit of ICP_FWD cleared withdraws its stack's source. -/
def Sys2Proof.Clauses.SourcesAreRaisedAndWithdrawn : Prop :=
  ∀ (req : Requester) (s : State),
    let same (t : State) : Prop := t.mem = s.mem ∧ t.cores = s.cores
    (∀ (c : CoreId) (n : BitVec 10), (s.core c.toNat).power ≠ 0 → Claims.Admitted s req (cA c.toNat ICC_SEND) →
      Answers (.iccSend req c n) s fun t => t.regs = s.regs ∧ same t ∧
        (256 ≤ n.toNat → ∃ m, t.net.msgs = s.net.msgs ++ [m] ∧ m.typ = 2 ∧ m.src = c.toNat ∧ m.payload.toNat = n.toNat) ∧
        (n.toNat < 256 → t.net = s.net)) ∧
    (∀ (c : CoreId) (v : W64), (s.core c.toNat).power ≠ 0 →
      (Claims.Admitted s req (cA c.toNat ICC_RAISE) → v &&& 0x0000FFFFFFFFFFFF = 0 → Answers (.iccRaise req c v) s fun t =>
        (∀ n, n < 64 → t.bit (cA c.toNat ICC_PENDING) n =
          (s.bit (cA c.toNat ICC_PENDING) n || (v.getLsbD n && s.bit (cA c.toNat ICC_ENABLE) n))) ∧
        (∀ a, a ≠ cA c.toNat ICC_PENDING → t.reg a = s.reg a) ∧ same t) ∧
      (Claims.Admitted s req (cA c.toNat ICC_PENDING) → v.getLsbD 0 = false → Answers (.iccPendingClear req c v) s fun t =>
        (∀ n, n < 64 → t.bit (cA c.toNat ICC_PENDING) n = (s.bit (cA c.toNat ICC_PENDING) n && !v.getLsbD n)) ∧
        (∀ a, a ≠ cA c.toNat ICC_PENDING → t.reg a = s.reg a) ∧ t.net = s.net ∧ same t)) ∧
    (∀ (w : BitVec 4) (v : W64), Claims.Admitted s req (pA ICP_RAISE + 8 * w.toNat) → w.toNat < 12 →
      Answers (.icpRaise req w v) s fun t => same t ∧
        ∀ n, 256 ≤ n → n < 1024 → Claims.pkgPending t n =
          (Claims.pkgPending s n || (decide (n / 64 = w.toNat + 4) && v.getLsbD (n % 64) && Claims.pkgEnabled s n))) ∧
    (∀ (w : BitVec 4) (v : W64), Claims.Admitted s req (pA ICP_PENDING0 + 8 * w.toNat) → (w = 0 → v.getLsbD 0 = false) →
      Answers (.icpPendingClear req w v) s fun t => same t ∧ t.net = s.net ∧
        ∀ n, n < 1024 → Claims.pkgPending t n = (Claims.pkgPending s n && !(decide (n / 64 = w.toNat) && v.getLsbD (n % 64)))) ∧
    ∀ (st : StackId) (v : W64), Claims.Admitted s req (pA ICP_FWD + 8 * st.toNat) → Answers (.icpFwdClear req st v) s fun t =>
      same t ∧ t.net = s.net ∧ t.reg (pA ICP_FWD + 8 * st.toNat) = (s.reg (pA ICP_FWD + 8 * st.toNat) &&& ~~~v) ∧
      (s.reg (pA ICP_FWD + 8 * st.toNat) ≠ 0 → s.reg (pA ICP_FWD + 8 * st.toNat) &&& ~~~v = 0 →
        Claims.pkgPending t (st.toNat + 1) = false)

/-! ### The host interface (R390 to R407) -/

/-- DOORBELL_TAIL, DOORBELL_CHEAD and Q_CONTROL_WRITE: a tail that lowers the pending count of an enabled queue is a fault and
leaves the tail; ENABLE is writable once bring-up has ended. -/
def Sys2Proof.Clauses.QueuesTakeTheirDoorbells : Prop :=
  ∀ (q : BitVec 6) (value : W32) (s : State),
    let r := q.toNat
    let head := s.fld (qA r Q_HEAD) 7 0
    let pending (tail : Nat) : Nat := (tail + 256 - head) % 256
    let same (t : State) : Prop := t.mem = s.mem ∧ t.cores = s.cores ∧ t.net = s.net
    let lowers := s.bit (qA r Q_CONTROL) 31 = true ∧ pending value.toNat < pending (s.fld (qA r Q_TAIL) 7 0)
    (Claims.Admitted s .host (qA r Q_TAIL) → Claims.NoneWaiting s → value.toNat < 256 →
      (¬ lowers → Answers (.doorbellTail q value) s fun t => t.fld (qA r Q_TAIL) 7 0 = value.toNat ∧
        (∀ a, a ≠ qA r Q_TAIL → t.reg a = s.reg a) ∧ same t) ∧
      (lowers → Answers (.doorbellTail q value) s fun t => t.fld (qA r Q_TAIL) 7 0 = s.fld (qA r Q_TAIL) 7 0 ∧
        t.bit (qA r Q_CONTROL) 30 = true ∧ t.bit (qA r Q_CONTROL) 31 = false ∧ Claims.Up (qA r Q_REFUSED) s t ∧ same t)) ∧
    (Claims.Admitted s .host (qA r Q_CHEAD) → Claims.NoneWaiting s → value.toNat < 256 → Answers (.doorbellChead q value) s fun t =>
      t.fld (qA r Q_CHEAD) 7 0 = value.toNat ∧ (∀ a, a ≠ qA r Q_CHEAD → t.reg a = s.reg a) ∧ same t) ∧
    ∀ req : Requester, Claims.Admitted s req (qA r Q_CONTROL) → value &&& 0x3FFFF800 = 0 →
      Answers (.qControlWrite req q value) s fun t => t.fld (qA r Q_CONTROL) 10 0 = value.toNat % 2048 ∧ same t ∧
        (s.fld (pA BRG_STATUS) 27 25 = 5 → t.bit (qA r Q_CONTROL) 31 = value.getLsbD 31) ∧
        (s.fld (pA BRG_STATUS) 27 25 ≠ 5 → t.bit (qA r Q_CONTROL) 31 = s.bit (qA r Q_CONTROL) 31) ∧
        (value.getLsbD 30 = true → t.bit (qA r Q_CONTROL) 30 = false) ∧
        (value.getLsbD 30 = false → t.bit (qA r Q_CONTROL) 30 = s.bit (qA r Q_CONTROL) 30)

/-- LAUNCH, MARK and LAUNCH_COMPLETE: in its turn the entry at a queue's head is refused with its reason, starts its idle cores, or
as a MARK is done once the earlier ones are; a launch whose cores have halted is recorded DONE, or FAULTED with the core that was
reset. -/
def Sys2Proof.Clauses.LaunchesStartAndComplete : Prop :=
  ∀ (q : BitVec 6) (s : State), Claims.Running s →
    let r := q.toNat
    let x := s.fld (qA r Q_HEAD) 7 0
    let e := Claims.ringEntry s r x
    let advanced (t : State) : Prop := t.fld (qA r Q_HEAD) 7 0 = (x + 1) % 256
    (s.takes r = true → s.queueTurn r = true →
      (s.entryReason e ≠ 0 → Answers (.launch q) s fun t => advanced t ∧ Claims.Up (qA r Q_REFUSED) s t ∧
        Claims.Recorded s t r x e 1 (s.entryReason e) 0 ∧ t.cores = s.cores ∧ t.mem = s.mem) ∧
      (s.entryReason e = 0 → entryOp e = 1 → (entryWait e = true → ∀ l ∈ s.host.launches, l.queue ≠ r) →
        (∀ i, i < entryCount e → s.coreIdle (entryFirst e + i) = true) → Answers (.launch q) s fun t => advanced t ∧
          t.host.launches = s.host.launches ++ [⟨r, x, e, none⟩] ∧ t.mem = s.mem ∧
          (∀ i, i < entryCount e → Claims.Started s t r x e (entryFirst e + i) i (entryCount e)) ∧
          ∀ c, c < entryFirst e ∨ entryFirst e + entryCount e ≤ c → t.core c = s.core c) ∧
      (s.entryReason e = 0 → entryOp e = 1 → (∃ i, i < entryCount e ∧ s.coreIdle (entryFirst e + i) = false) →
        exec (.launch q) s = .next s) ∧
      (s.entryReason e = 0 → entryOp e = 2 → (∀ l ∈ s.host.launches, l.queue ≠ r) → Answers (.mark q) s fun t => advanced t ∧
        Claims.Recorded s t r x e 0 0 0 ∧ t.cores = s.cores ∧ t.mem = s.mem)) ∧
    (s.takes r = false ∨ s.queueTurn r = false → exec (.launch q) s = .next s ∧ exec (.mark q) s = .next s) ∧
    ∀ (index : Byte) (l : Launch), s.host.launches = [l] → l.queue = r → l.index = index.toNat →
      (∀ c, c < 1024 → (s.core c).launchQ = some (r, index.toNat) →
        (s.core c).run = .idle ∨ (l.fault.isSome = true ∧ (s.core c).run ≠ .running)) →
      entryFirst l.bytes + entryCount l.bytes ≤ 1024 →
      (s.fld (qA r Q_CTAIL) 7 0 + 256 - s.fld (qA r Q_CHEAD) 7 0) % 256 < 255 → (∀ c, l.fault = some c → c < 1024) →
      Answers (.launchComplete q index) s fun t => t.host.launches = [] ∧
        (∀ c, entryFirst l.bytes ≤ c → c < entryFirst l.bytes + entryCount l.bytes → (t.core c).launchQ ≠ some (r, index.toNat)) ∧
        t.reg (pA HIF_LAUNCHES) = s.reg (pA HIF_LAUNCHES) + 1 ∧
        Claims.Recorded s t r index.toNat l.bytes (if l.fault = none then 0 else 2) 0 (l.fault.getD 0)

/-! ### Registers (R9 to R13) -/

/-- A load of a core's own registers in privileged mode reads the register, a store writes it, by device address and by the local
alias. -/
def Sys2Proof.Clauses.LoadsAndStoresReachTheirRegisters : Prop :=
  ∀ (c : CoreId) (rd ra : BitVec 5) (imm : W16) (s : State), Ready s c.toNat → s.privileged c.toNat = true →
    let a := cA c.toNat ICC_ENABLE
    let v := s.gpr c.toNat rd
    Claims.dataAddr s c ra imm = BitVec.ofNat 64 a ∨ Claims.dataAddr s c ra imm = BitVec.ofNat 64 (0x3F8000000000 + ICC_ENABLE) →
      Answers (.ld c rd ra imm []) s (fun t => Claims.NoHalf t (.core c) ∧
        Completed c.toNat rd (s.reg a) (s.nextPc c.toNat) { s with halves := t.halves } t) ∧
      (v.getLsbD 0 = false → Answers (.sd c rd ra imm []) s fun t => t.reg a = v ||| (s.reg a &&& 1) ∧
        (∀ x, x ≠ a → t.reg x = s.reg x) ∧ (t.core c.toNat).pc = s.nextPc c.toNat ∧ t.mem = s.mem ∧ t.net = s.net ∧
        ∀ r, t.gpr c.toNat r = s.gpr c.toNat r) ∧
      (v.getLsbD 0 = true → exec (.sd c rd ra imm []) s = .fault .reservedFieldWritten)

/-! ### The instruction cache (R113, R114) -/

/-- ICACHE_MISS_FILL: the line of pc is put in the cache from the core's scratchpad; a line already there, or a core that does not
fetch, changes nothing; a poisoned unit of it traps with cause 3 and value pc. -/
def Sys2Proof.Clauses.MissesFillTheCache : Prop :=
  ∀ (c : CoreId) (s : State) (off : Nat), Ready s c.toNat → off < 0x200000 →
    let k := s.core c.toNat
    let line := Claims.spAddr c (off / 64 * 64)
    fetchAddr c.toNat k.pc = some (Claims.spAddr c off) →
      ((∀ x ∈ k.icache, x.1 ≠ line) →
        (Claims.NoError s line 64 → Answers (.icacheMissFill c []) s fun t => OnlyCore c.toNat s t ∧
          (line, s.bytes line 64) ∈ (t.core c.toNat).icache ∧
          (∀ x ∈ (t.core c.toNat).icache, x = (line, s.bytes line 64) ∨ x ∈ k.icache) ∧
          t.core c.toNat = { k with icache := (t.core c.toNat).icache, fills := k.fills + 1 } ∧
          (k.icache.countP (fun x => x.1 / 64 % 128 == line / 64 % 128) < 4 → ∀ x ∈ k.icache, x ∈ (t.core c.toNat).icache)) ∧
        (∀ i, i < 8 → s.spMarkAt (line + 8 * i) = 1 → (∀ j, j < 8 → s.spMarkAt (line + 8 * j) ≤ 1) →
          Answers (.icacheMissFill c []) s (Trapped c.toNat 3 (k.pc.setWidth 64) s))) ∧
      ((∃ x ∈ k.icache, x.1 = line) → exec (.icacheMissFill c []) s = .next s)

/-! ### The whole machine -/

/-- Every step keeps each slot of each core's tally the name of one entry, below 512, so that tags name one operation each. -/
def Sys2Proof.Clauses.EveryStepKeepsTallySlots : Prop :=
  ∀ s t : State, step s = .next t → Claims.SlotsOnce s → Claims.SlotsOnce t

/-- No command touches the queue of commands: a step takes the first and leaves the others in order. No command lowers what the
fuses and the count of boots hold, and only WARDEN_BOOT, of a warden that has not booted, raises either. -/
def Sys2Proof.Clauses.EveryStepKeepsQueueAndFuses : Prop :=
  ∀ s t : State, step s = .next t → t.pending = s.pending.tail ∧ s.warden.flash.floor ≤ t.warden.flash.floor ∧
    s.warden.flash.bootCount.toNat ≤ t.warden.flash.bootCount.toNat ∧
    ((t.warden.flash.floor ≠ s.warden.flash.floor ∨ t.warden.flash.bootCount ≠ s.warden.flash.bootCount) →
      s.warden.booted = false ∧ ∃ b, s.pending.head? = some (.wardenBoot b))

/-! ### Power, clocks and temperature (R424 to R446) -/

/-- CLOCK_STRETCH and CLOCK_STRETCH_END: a droop halves the core's clock, as CORE_CLOCK shows it, and is counted; more than 16 in a
stack's last 20 evaluations raise its droop demand; at its end the time is charged to the droop reason in whole µs. -/
def Sys2Proof.Clauses.DroopsStretchTheClock : Prop :=
  ∀ (c : CoreId) (s : State), Claims.Running s →
    let u := c.toNat / 64
    let h := (s.stack u).thermal
    (Claims.Clocked s c.toNat → (s.core c.toNat).droop = false → Answers (.clockStretch c) s fun t =>
      t.core c.toNat = { s.core c.toNat with droop := true, droopAt := s.now } ∧ (∀ d, d ≠ c.toNat → t.core d = s.core d) ∧ t.mem = s.mem ∧
      t.reg (sA u SPWR_DROOPS) = s.reg (sA u SPWR_DROOPS) + 1 ∧
      (∀ v : W64, bits v 26 16 < 2048 → bits (t.coreView c.toNat CORE_CLOCK 0 v) 26 16 = bits v 26 16 / 2) ∧
      t.fld (sA u SPWR_CEIL) 6 4 = if 16 ≤ (h.stretches.filter fun e => h.evals < e + 20).length
        then min (s.fld (sA u SPWR_CEIL) 6 4 + 1) 7 else s.fld (sA u SPWR_CEIL) 6 4) ∧
    (¬ Claims.Clocked s c.toNat ∨ (s.core c.toNat).droop = true → exec (.clockStretch c) s = .next s) ∧
    ((s.core c.toNat).droop = false → exec (.clockStretchEnd c) s = .next s) ∧
    ((s.core c.toNat).droop = true → Answers (.clockStretchEnd c) s fun t =>
      let ns := s.warden.power.droopNs + (s.now - (s.core c.toNat).droopAt).toNat
      t.core c.toNat = { s.core c.toNat with droop := false, droopAt := 0 } ∧ OnlyCore c.toNat { s with warden := t.warden } t ∧
      t.warden.power.droopNs = ns % 1000 ∧
      smGet 0 t.warden.power.durations 5 = smGet 0 s.warden.power.durations 5 + ns / 1000)

/-- TELEMETRY_FRAME and PWR_TIME_REF_WRITE: a frame goes to slot SEQ mod 64 with its sequence, the wall time and the input power,
nothing else in memory changes, and SHUT_INPUT shows the input voltage; the high half of the time reference takes effect with the
low half held, and latches the count. -/
def Sys2Proof.Clauses.FramesCarryTheTime : Prop :=
  ∀ s : State,
    (s.warden.stopped ≠ 2 → s.bit (pA SEC_STATUS) 6 = false → ∀ r : PowerReadings, r.inputAvg < 2 ^ 32 →
      Answers (.telemetryFrame r) s fun t =>
      let n := s.warden.power.frames
      let a := pA 0x31000 + 0x80 * (n % 64)
      t.fld (pA PWR_FRAME_SEQ) 31 0 = n % 2 ^ 32 ∧ t.bit (pA PWR_STATUS) 14 = decide (n / 2 ^ 32 % 2 = 1) ∧
        Claims.number (t.bytes a 4) = n % 2 ^ 32 ∧
        Claims.number (t.bytes (a + 8) 8) = (s.reg (pA PWR_TIME_REF) + (s.now - s.reg (pA PWR_TIME_LATCH))).toNat ∧
        Claims.number (t.bytes (a + 20) 4) = r.inputAvg ∧ (∀ x, x < a ∨ a + 128 ≤ x → t.byte x = s.byte x) ∧
        t.fld (pA SHUT_INPUT) 15 0 = min r.inputMv 65535 ∧
        t.warden.power.frames = n + 1 ∧ t.warden.power.durations = [] ∧ t.cores = s.cores ∧ t.net = s.net) ∧
    ∀ (req : Requester) (high low : W32), Claims.Admitted s req (pA PWR_TIME_REF) →
      let a := pA PWR_TIME_REF
      Claims.holds s req a false low ∨ (Claims.NoHalf s req ∧ low = (s.reg a).setWidth 32) →
        Answers (.pwrTimeRefWrite req high) s fun t => t.reg a = high.setWidth 64 <<< 32 ||| low.setWidth 64 ∧
          t.reg (pA PWR_TIME_LATCH) = s.now ∧ t.warden.power.timeSet = true ∧ Claims.NoHalf t req ∧ t.mem = s.mem ∧ t.cores = s.cores ∧
          ∀ x, x ≠ a → x ≠ pA PWR_TIME_LATCH → t.reg x = s.reg x

/-- PWR_CAP_WRITE and STHM_SUSPECT_CLEAR: a cap is kept from 500 to 1,200 W and rounded down to a multiple of 25; a suspect bit
written 1 clears, its count restarts, and where it was set its stack's request is withdrawn. -/
def Sys2Proof.Clauses.PowerRegistersTakeTheirWrites : Prop :=
  ∀ (req : Requester) (s : State),
    (∀ v : W32, Claims.Admitted s req (pA PWR_CAP) → v &&& 0xFFFFF800 = 0 → Answers (.pwrCapWrite req v) s fun t =>
      let n := v.toNat
      t.fld (pA PWR_CAP) 10 0 = (if n < 500 then 500 else if 1200 < n then 1200 else n - n % 25) ∧
        (∀ x, x ≠ pA PWR_CAP → t.reg x = s.reg x) ∧ { t with regs := s.regs } = Claims.heard s req) ∧
    ∀ (st : StackId) (v : W32), Claims.Admitted s req (sA st.toNat STHM_SUSPECT) → v &&& 0xFFFF0000 = 0 →
      Answers (.sthmSuspectClear req st v) s fun t => t.mem = s.mem ∧
        (∀ x, x ≠ sA st.toNat STHM_SUSPECT → x ≠ pA ICP_PENDING0 → t.reg x = s.reg x) ∧
        (∀ n, n < 1024 → n ≠ st.toNat + 17 → Claims.pkgPending t n = Claims.pkgPending s n) ∧
        ((∃ b, b < 16 ∧ s.bit (sA st.toNat STHM_SUSPECT) b = true ∧ v.getLsbD b = true) →
          Claims.pkgPending t (st.toNat + 17) = false) ∧
        ∀ b, b < 16 → t.bit (sA st.toNat STHM_SUSPECT) b = (s.bit (sA st.toNat STHM_SUSPECT) b && !v.getLsbD b) ∧
          (v.getLsbD b = true → smGet 0 (t.stack st.toNat).thermal.low b = 0)

/-! ### Bring-up, repair and reset (R450 to R478) -/

/-- CLOCKS to SERVICE and BRINGUP_STEP_END: a step out of order ends with CODE 1, step 1 without coolant with CODE 2, in a failed
module, in recovery or without a steward image with CODE 3; another begins, and ends with CODE 0 once every steward has taken its
command, step 2 of a full start once its retention pauses have run with every bench below 85 °C; a GO while BUSY has no effect.
Which code wins where several apply, and that the effects fall at GO, is log entry 57's. -/
def Sys2Proof.Clauses.BringUpRunsItsStepsInOrder : Prop :=
  ∀ (req : Requester) (full : Bool) (r : TestResults) (s : State), Claims.Admitted s req (pA BRG_COMMAND) →
    s.warden.fastWhy < 16 →
    let st := pA BRG_STATUS
    let halted := s.bit st 29 = true ∨ s.bit (pA SEC_STATUS) 6 = true
    (∀ p ∈ Claims.bringup req full r,
      (s.bit st 31 = false ∨ s.bit st 30 = true → exec p.1 s = .next (Claims.heard s req)) ∧
      (s.bit st 31 = true → s.bit st 30 = false →
        (halted → Answers p.1 s fun t => Claims.StepEnded s t p.2 3 0) ∧
        (¬ halted → p.2 ≠ s.fld st 27 25 + 1 → Answers p.1 s fun t => Claims.StepEnded s t p.2 1 0) ∧
        (¬ halted → p.2 = s.fld st 27 25 + 1 → p.2 = 1 → s.warden.stewardOk = false → Answers p.1 s fun t =>
          Claims.StepEnded s t 1 3 0) ∧
        (¬ halted → p.2 = s.fld st 27 25 + 1 → p.2 = 1 → s.warden.stewardOk = true → r.coolantFlow < 200 → Answers p.1 s fun t =>
          Claims.StepEnded s t 1 2 0) ∧
        (¬ halted → p.2 = s.fld st 27 25 + 1 → (p.2 = 1 → s.warden.stewardOk = true ∧ 200 ≤ r.coolantFlow) →
          Answers p.1 s fun t => Claims.StepBegan t p.2))) ∧
    ∀ (n : Nat) (elapsed : W16), s.warden.stopped ≠ 2 → n < 6 → s.warden.step = some n →
      ((∀ m ∈ s.net.msgs, m.typ ≠ 8) → (n = 2 → s.bit st 24 = true ∨ s.warden.pausing = true) →
        Answers (.bringupStepEnd elapsed) s fun t => Claims.StepDone s t n 0 elapsed.toNat ∧
        (n ≠ 4 → t.mem = s.mem ∧ t.cores = s.cores) ∧
        (n = 4 → ∀ c, c < 1024 → ((s.core c).power = 1 → Claims.Cleared t c) ∧
          ((s.core c).power ≠ 1 → t.core c = s.core c ∧ ∀ off, off < 0x200000 →
            t.byte (Claims.spByte c off) = s.byte (Claims.spByte c off)))) ∧
      ((∀ m ∈ s.net.msgs, m.typ ≠ 8) → n = 2 → s.bit st 24 = false → s.warden.pausing = false →
        ((∀ u b, u < 16 → b < 16 → s.benchRead u b < 340) → Answers (.bringupStepEnd elapsed) s fun t =>
          t.warden.pausing = true ∧ { t with warden := { t.warden with pausing := false } } = s) ∧
        ((∃ u b, u < 16 ∧ b < 16 ∧ 340 ≤ s.benchRead u b) → exec (.bringupStepEnd elapsed) s = .next s)) ∧
      ((∃ m ∈ s.net.msgs, m.typ = 8) → exec (.bringupStepEnd elapsed) s = .next s)

/-- What the steps do (R454 to R466): step 1 copies the steward's image into every base die; step 2 clears both tiers; step 3 brings
the enabled ports up that train to another module; step 4 gives each row its SUB by its retired pairs, takes down the stacks left
short, and begins the clear of every core served; step 5 clears the suspect sensors and records a full start. A base die that fails,
or a small memory of one, fails the module (R287). -/
def Sys2Proof.Clauses.BringUpBuildsTheMachine : Prop :=
  ∀ (req : Requester) (full : Bool) (r : TestResults) (s : State), Claims.Admitted s req (pA BRG_COMMAND) →
    s.bit (pA BRG_STATUS) 31 = true → s.bit (pA BRG_STATUS) 30 = false → s.bit (pA BRG_STATUS) 29 = false →
    s.bit (pA SEC_STATUS) 6 = false → Claims.Running s →
    let done := s.fld (pA BRG_STATUS) 27 25
    (done = 0 → s.warden.stewardOk = true → 200 ≤ r.coolantFlow → Answers (.clocks req full r) s fun t =>
      t.bit (pA BRG_STATUS) 29 = Claims.baseFails r ∧ t.mem = s.mem ∧ t.cores = s.cores ∧
      ∀ u, u < 16 → (t.stack u).image = s.stewardImage) ∧
    (done = 1 → Answers (.memory req full r) s fun t => t.bit (pA BRG_STATUS) 29 = Claims.baseFails r ∧
      (∀ a, a < 0x020000000000 ∨ (0x040000000000 ≤ a ∧ a < 0x04F000000000) → t.byte a = 0) ∧
      (∀ a, a < 0x020000000000 → t.rowValid a = false) ∧
      (∀ u, u < 16 → u ∉ r.channels → t.bit (sA u SLOW_STATUS) 0 = true) ∧ (full = true → t.bit (pA BRG_STATUS) 24 = false ∧
        t.warden.fastWhy = 1) ∧ t.cores = s.cores) ∧
    (done = 2 → Answers (.links req full r) s fun t => t.mem = s.mem ∧ t.cores = s.cores ∧
      ∀ p id, p < 8 → p ∈ r.ports → s.bit (pA BILO_ID) 31 = true →
        (r.partners.find? fun x => x.1 == p) = some (p, id, false) → id < 2 ^ 14 → id ≠ s.fld (pA BILO_ID) 13 0 →
        Claims.portUp t p = true ∧ t.bit (bpA p BPORT_CONTROL) 0 = true ∧ t.fld (bpA p BPORT_STATUS) 29 16 = id) ∧
    (done = 3 → Answers (.cores req full r) s fun t =>
      (∀ u q, u < 16 → q < 8 →
        (∀ j, j < 8 → Claims.gone t u q = [j] → t.sub u q = j ∧ t.fld (pA MAP_SUB + 4 * u) (4 * q + 3) (4 * q) = j) ∧
        (Claims.gone t u q = [] ∨ Claims.gone t u q = [8] ∨ 2 ≤ (Claims.gone t u q).length → t.sub u q = 15) ∧
        (2 ≤ (Claims.gone t u q).length → t.stackDown u = true)) ∧
      (∀ u, u < 16 → t.epoch u = 0 ∧ ((∀ q, q < 8 → (Claims.gone t u q).length < 2) → t.stackDown u = false)) ∧
      t.mem = s.mem ∧ ∀ c, c < 1024 → (t.unserved c = false → t.core c = { s.core c with power := 1 } ∧
        t.fld (cA c CORE_STATE) 1 0 = 1) ∧ (t.unserved c = true → t.core c = s.core c)) ∧
    (done = 4 → Answers (.service req full) s fun t => (∀ u, u < 16 → t.fld (sA u STHM_SUSPECT) 15 0 = 0) ∧
      (s.bit (pA BRG_STATUS) 24 = false → t.reg (pA BRG_LAST_FULL) = s.warden.stepWall) ∧ t.mem = s.mem ∧ t.cores = s.cores)

/-- CORE_RESET, CORE_RESET_RELEASE, STACK_RESET and PARTITION_RESET: refused as R471 says, with ERROR and nothing else, else the
core, or every served core of the stacks, is Off at its reset values, and the stacks are fenced with their work gone; memory is
untouched but by an exact update under way and the VALID of a barrow's entry; RELEASE lets a held core wake. -/
def Sys2Proof.Clauses.ResetsDropTheirCores : Prop :=
  ∀ (req : Requester) (s : State), Claims.Admitted s req (pA BRG_RESET) → Claims.Running s →
    let began (t : State) : Prop := t.bit (pA BRG_RESET) 30 = true
    let idle (u : Nat) : Prop := (s.stack u).exacts = [] ∧ ∀ b ∈ s.bilo.barrows, b.stack ≠ u
    (∀ (c : CoreId) (hold : Bool),
      (Claims.ResetRefused s 0 c.toNat → Answers (.coreReset req c hold) s fun t => Claims.ErrorSet s t) ∧
      (¬ Claims.ResetRefused s 0 c.toNat → Answers (.coreReset req c hold) s fun t => began t ∧ t.mem = s.mem ∧
        t.warden.reset = some (0, c.toNat) ∧ Claims.CoreDropped s t c.toNat hold ∧ ∀ d, d ≠ c.toNat → t.core d = s.core d) ∧
      (s.warden.reset = some (0, c.toNat) → (s.core c.toNat).held = true → Answers (.coreResetRelease req) s fun t =>
        t.core c.toNat = { s.core c.toNat with held := false, power := 1 } ∧ t.fld (cA c.toNat CORE_STATE) 1 0 = 1 ∧
        t.mem = s.mem ∧ t.net = s.net ∧ ∀ d, d ≠ c.toNat → t.core d = s.core d)) ∧
    (∀ u : StackId,
      (Claims.ResetRefused s 1 u.toNat → Answers (.stackReset req u) s fun t => Claims.ErrorSet s t) ∧
      (¬ Claims.ResetRefused s 1 u.toNat → Answers (.stackReset req u) s fun t => began t ∧
        t.warden.reset = some (1, u.toNat) ∧ Claims.StackFenced s t u.toNat ∧ (idle u.toNat → t.mem = s.mem) ∧
        (∀ d, d / 64 ≠ u.toNat → t.core d = s.core d) ∧ ∀ v, v ≠ u.toNat → t.stack v = s.stack v)) ∧
    ∀ mask : W16,
      (Claims.ResetRefused s 2 mask.toNat → Answers (.partitionReset req mask) s fun t => Claims.ErrorSet s t) ∧
      (¬ Claims.ResetRefused s 2 mask.toNat → Answers (.partitionReset req mask) s fun t => began t ∧
        t.warden.reset = some (2, mask.toNat) ∧ ((∀ u, u < 16 → mask.getLsbD u = true → idle u) → t.mem = s.mem) ∧ (∀ u, u < 16 →
          mask.getLsbD u = true → Claims.StackFenced s t u) ∧
        ∀ u, u < 16 → mask.getLsbD u = false → t.stack u = s.stack u ∧ ∀ d, d / 64 = u → t.core d = s.core d)

/-- RESET_END: the reset of a core not held starts its clear, then ends with the core On; a stack's waits until its work has
drained, then renews the base die with the fast tier and its open writes kept and the steward's image copied, trains its channel, up
or down, and begins its cores' clear; once that is done the fence is lifted with epoch 0 and every stack is told. -/
def Sys2Proof.Clauses.ResetsEndOnceDrained : Prop :=
  ∀ (r : Retrained) (s : State), Claims.Running s →
    let ended (t : State) : Prop := t.bit (pA BRG_RESET) 30 = false ∧ t.warden.reset = none
    (s.warden.reset = none → exec (.resetEnd r) s = .next s) ∧
    (∀ c : CoreId, s.warden.reset = some (0, c.toNat) →
      let k := s.core c.toNat
      (k.held = true → exec (.resetEnd r) s = .next s) ∧
      (k.held = false → Answers (.resetEnd r) s fun t => ∀ d, d ≠ c.toNat → t.core d = s.core d) ∧
      (k.held = false → k.power = 0 → Answers (.resetEnd r) s fun t => t.core c.toNat = { k with power := 1 } ∧
        t.fld (cA c.toNat CORE_STATE) 1 0 = 1 ∧ t.mem = s.mem ∧ t.net = s.net ∧ t.warden = s.warden) ∧
      (k.held = false → k.power = 1 → Answers (.resetEnd r) s fun t => ended t ∧ Claims.Cleared t c.toNat ∧
        (t.core c.toNat).resetting = false ∧ Claims.CoreEndTold t c) ∧
      (k.held = false → k.power = 2 → Answers (.resetEnd r) s fun t => ended t ∧
        t.core c.toNat = { k with resetting := false } ∧ Claims.CoreEndTold t c ∧ t.mem = s.mem)) ∧
    ∀ u : StackId, s.warden.reset = some (1, u.toNat) →
      let kept (t : State) : Prop :=
        (∀ a, a < 0x020000000000 → t.byte a = s.byte a ∧ t.rowValid a = s.rowValid a ∧ t.rowSummary a = s.rowSummary a) ∧
        (∀ c, c / 64 = u.toNat → (t.vault c).opens = (s.vault c).opens) ∧ ∀ d, d / 64 ≠ u.toNat → t.core d = s.core d
      (s.warden.renewed = false → s.drained [u.toNat] = false → exec (.resetEnd r) s = .next s) ∧
      (s.warden.renewed = false → s.drained [u.toNat] = true → (∀ c, c / 64 = u.toNat → (s.vault c).unchecked = []) →
        Answers (.resetEnd r) s fun t => t.warden.renewed = true ∧ t.warden.reset = s.warden.reset ∧
          (t.stack u.toNat).fence = true ∧ (t.stack u.toNat).image = s.stewardImage ∧
          t.bit (sA u.toNat SLOW_STATUS) 0 = !decide (u.toNat ∈ r.channels) ∧
          t.bit (sA u.toNat SLOW_STATUS) 3 = decide (u.toNat ∈ r.channels) ∧ t.reg (pA MAP_EPOCH + 4 * u.toNat) = 0 ∧
            t.reg (sA u.toNat UPD_LENT) = 0 ∧ kept t ∧
          ∀ c, c / 64 = u.toNat → (t.vault c).cmds = [] ∧ (t.vault c).input = [] ∧
            (s.unserved c = false → t.core c = { s.core c with power := 1 }) ∧ (s.unserved c = true → t.core c = s.core c)) ∧
      (s.warden.renewed = true → s.net.asked = none →
        (∀ p, p < 8 → portStack p = u.toNat → Claims.portUp s p = false ∨ p ∈ r.ports) → Answers (.resetEnd r) s fun t => ended t ∧
          (t.stack u.toNat).fence = false ∧ t.epoch u.toNat = 0 ∧ Claims.StackEndTold t u ∧ kept t ∧
          ∀ c, c / 64 = u.toNat → (t.core c).resetting = false ∧ ((s.core c).power = 1 → Claims.Cleared t c))

/-! ### Security and debug (R479 to R496) -/

/-- ATTEST and EXTEND: without an identity, or once the signer is erased, a report ends with ERROR and is not written; else it holds
the serial number, the count of boots, the measurements and the nonce. A measurement from 4 to 7 becomes the hash of itself and the
digest; one below 4 is an error. -/
def Sys2Proof.Clauses.ReportsAndMeasurements : Prop :=
  ∀ (req : Requester) (s : State),
    (Claims.Admitted s req (pA SEC_ATTEST) →
      let barred := s.warden.identity = none ∨ s.bit (pA SEC_STATUS) 4 = true ∨ s.bit (pA SEC_STATUS) 5 = true
      (barred → Answers (.attest req) s fun t => t.bit (pA SEC_ATTEST) 29 = true ∧ t.mem = s.mem ∧ t.warden = s.warden) ∧
      (¬ barred → Answers (.attest req) s fun t =>
        let a := pA 0x70200
        Claims.number (t.bytes a 4) = 0x54505441 ∧ Claims.number (t.bytes (a + 8) 8) = Config.serial.toNat ∧
        Claims.number (t.bytes (a + 16) 4) = s.fld (pA SEC_BOOTCOUNT) 31 0 ∧ t.bytes (a + 64) 256 = s.bytes (pA 0x70100) 256 ∧
        t.bytes (a + 320) 32 = s.bytes (pA 0x70020) 32 ∧ (∀ x, x < a ∨ a + 480 ≤ x → t.byte x = s.byte x) ∧ t.regs = s.regs ∧
        t.warden = s.warden)) ∧
    ∀ v : W32, Claims.Admitted s req (pA SEC_EXTEND) → v &&& 0x1FFFFFF8 = 0 →
      let n := v.toNat % 8
      let a := pA 0x70100 + 0x20 * n
      (n < 4 → Answers (.extend req v) s fun t => t.bit (pA SEC_EXTEND) 29 = true ∧ t.mem = s.mem) ∧
      (4 ≤ n → Answers (.extend req v) s fun t => t.bytes a 32 = sha256 (s.bytes a 32 ++ s.bytes (pA 0x70040) 32) ∧
        (∀ x, x < a ∨ a + 32 ≤ x → t.byte x = s.byte x) ∧ t.fld (pA SEC_EXTEND) 2 0 = n)

/-- UPDATE_CHUNK: chunks run in order into the copy not in use, which is not valid until its last chunk is verified; any failure is
recorded, ends the update and leaves the copies in use untouched. -/
def Sys2Proof.Clauses.UpdatesLeaveTheActiveCopy : Prop :=
  ∀ (req : Requester) (v : W32) (fails : Bool) (s : State), Claims.Admitted s req (pA SEC_UPDATE) → v &&& 0x007F0000 = 0 →
    let kind := v.toNat / 2 ^ 24 % 4
    let chunk := v.toNat % 2 ^ 16
    let order := kind ≠ 0 ∧ (chunk = 0 ∨ (kind = s.warden.upKind ∧ chunk = s.warden.upNext))
    let data := (if chunk = 0 then [] else s.warden.upload) ++ s.bytes (pA 0x71000) 4096
    (∃ t, exec (.updateChunk req v fails) s = .next t ∧ Claims.ActiveKept s t ∧ t.mem = s.mem ∧ t.cores = s.cores) ∧
    (¬ order → Answers (.updateChunk req v fails) s fun t => Claims.UpdateFailed t 1 ∧ t.warden.flash = s.warden.flash) ∧
    (order → fails = true → Answers (.updateChunk req v fails) s fun t => Claims.UpdateFailed t 5 ∧
      (Claims.inactive t kind).valid = false) ∧
    (order → fails = false → chunk < 1025 → v.getLsbD 23 = false → Answers (.updateChunk req v fails) s fun t =>
      t.warden.upKind = kind ∧ t.warden.upNext = chunk + 1 ∧ t.warden.upload = data ∧ (Claims.inactive t kind).valid = false ∧
      t.fld (pA SEC_UPDATE) 29 26 = 0 ∧ t.net = s.net) ∧
    (order → fails = false → chunk < 1025 → v.getLsbD 23 = true →
      (s.updateVerdict kind data = 0 → Answers (.updateChunk req v fails) s fun t => (Claims.inactive t kind).valid = true ∧
        t.fld (pA SEC_UPDATE) 29 26 = 0 ∧ t.warden.upKind = 0 ∧ Claims.EventSent t 0x80 4) ∧
      (s.updateVerdict kind data ≠ 0 → Answers (.updateChunk req v fails) s fun t => (Claims.inactive t kind).valid = false ∧
        Claims.UpdateFailed t (s.updateVerdict kind data)))

/-- DEBUG_READ and DEBUG_WRITE: nothing in scope 0; an access above the scope ends with ERROR; one that the pitches of master 6
grant reads or writes the scratchpad at DBG_ADDR, one that they refuse ends with ERROR and changes no byte that they do not grant.
-/
def Sys2Proof.Clauses.DebugAccessesNeedScopeAndPitch : Prop :=
  ∀ (size : BitVec 2) (s : State),
    let scope := s.fld (pA DBG_STATUS) 1 0
    let n := 2 ^ size.toNat
    (scope = 0 → exec (.debugRead size []) s = .next s ∧ exec (.debugWrite size []) s = .next s) ∧
    (scope = 1 → s.warden.stopped ≠ 2 → Answers (.debugWrite size []) s fun t => t.bit (pA DBG_OP) 29 = true ∧
      t.bit (pA DBG_OP) 30 = false ∧ t.mem = s.mem ∧ t.cores = s.cores) ∧
    ∀ (c : CoreId) (off : Nat), Claims.Running s → off < 0x200000 → Claims.SpServed s c →
      let a := Claims.spAddr c off
      s.fld (pA DBG_ADDR) 45 0 = a → s.uncommitted a (a + n) = false → Claims.NoError s a n →
        (1 ≤ scope → s.pitchGap c.toNat 6 off n false = none → Answers (.debugRead size []) s fun t =>
          t.reg (pA DBG_DATA) = BitVec.ofNat 64 (Claims.number (s.bytes a n)) ∧ t.bit (pA DBG_OP) 30 = false ∧
          t.bit (pA DBG_OP) 29 = s.bit (pA DBG_OP) 29 ∧ t.mem = s.mem ∧ t.cores = s.cores) ∧
        (2 ≤ scope → s.pitchGap c.toNat 6 off n true = none → Answers (.debugWrite size []) s fun t =>
          Claims.number (t.bytes a n) = (s.reg (pA DBG_DATA)).toNat % 256 ^ n ∧
          (∀ x, x < a ∨ a + n ≤ x → t.byte x = s.byte x) ∧ t.bit (pA DBG_OP) 29 = s.bit (pA DBG_OP) 29 ∧
          ∀ d, t.core d = { s.core d with tally := (t.core d).tally }) ∧
        ∀ first, 2 ≤ scope → s.pitchGap c.toNat 6 off n true = some first → Answers (.debugWrite size []) s fun t =>
          t.bit (pA DBG_OP) 29 = true ∧ t.bit (cA c.toNat PITCH_FAULT) 0 = true ∧ t.fld (cA c.toNat PITCH_FAULT) 47 45 = 6 ∧
          t.bit (cA c.toNat PITCH_FAULT) 44 = true ∧ t.fld (cA c.toNat PITCH_FAULT) 40 20 = first ∧
          (∀ x, x < a ∨ a + n ≤ x → t.byte x = s.byte x) ∧
          ∀ i, i < n → s.pitchOk c.toNat 6 (off + i) 1 true = false → t.byte (a + i) = s.byte (a + i)

/-- CDBG_HALT, CDBG_STEP and CDBG_REGISTER_WRITE: HALT halts and resumes the control core; its pc and general registers take writes
only while halted; STEP of a halted core runs the instruction at pc, shown for addi, and leaves it halted. -/
def Sys2Proof.Clauses.HaltedCoresStepAndTakeWrites : Prop :=
  ∀ (req : Requester) (c : CoreId) (s : State), 2 ≤ (s.core c.toNat).power →
    let k := s.core c.toNat
    (Claims.Admitted s req (cA c.toNat CDBG_CONTROL) →
      (∀ halt : Bool, Answers (.cdbgHalt req c halt) s fun t => t.core c.toNat = { k with halted := halt } ∧
        OnlyCore c.toNat (Claims.heard s req) t) ∧
      (k.halted = false → Answers (.cdbgStep req c []) s fun t => t.core c.toNat = { k with halted := true } ∧
        OnlyCore c.toNat (Claims.heard s req) t) ∧
      ∀ (w : W32) (a : Nat) (rd ra : BitVec 5) (imm : W16), k.halted = true → k.power = 2 → k.run = .running →
        fetchAddr c.toNat k.pc = some a → s.cachedWord c.toNat a = some w → isBulkWord w = false →
        decodeScalar c w = some (.addi c rd ra imm) → Answers (.cdbgStep req c []) s fun t =>
          Completed c.toNat rd (BitVec.ofInt 64 ((s.gpr c.toNat ra).toInt + imm.toInt)) (s.nextPc c.toNat) (Claims.heard s req) t) ∧
    ∀ (n : BitVec 5) (v : W64),
      (Claims.Admitted s req (cA c.toNat CDBG_PC) →
        (k.halted = true → Answers (.cdbgRegisterWrite req c true n v) s fun t => t.core c.toNat = { k with pc := v.setWidth 46 } ∧
          OnlyCore c.toNat (Claims.heard s req) t) ∧
        (k.halted = false → exec (.cdbgRegisterWrite req c true n v) s = .next (Claims.heard s req))) ∧
      (Claims.Admitted s req (cA c.toNat CDBG_G + 8 * n.toNat) →
        (k.halted = true → Answers (.cdbgRegisterWrite req c false n v) s fun t => t.gpr c.toNat n = (if n = 0 then 0 else v) ∧
          (∀ r, r ≠ n → t.gpr c.toNat r = s.gpr c.toNat r) ∧ t.core c.toNat = { k with g := (t.core c.toNat).g } ∧
          OnlyCore c.toNat (Claims.heard s req) t) ∧
        (k.halted = false → exec (.cdbgRegisterWrite req c false n v) s = .next (Claims.heard s req)))

/-! ### The module interface and the event ring (R497 to R526) -/

/-- MCTP_CONTROL, PLDM_REQUEST and VENDOR_FRAME_REQUEST: at the module's address the bus owner sets and reads the endpoint ID and
reads what identifies the module; a request that would change the module's state otherwise is answered as unsupported; a sensor and
the latest frame are read; the Alert Response Address is answered while ALERT# is asserted, another not. The codes, layouts and the
numbers of state sensors are log entries 29's and 150's. -/
def Sys2Proof.Clauses.TheBusAnswersWithoutEffect : Prop :=
  ∀ (r : BusRequest) (s : State),
    let up := s.warden.pins.vaux = true ∧ s.warden.stopped ≠ 2
    (up →
      (r.address = 0x63 →
       (r.changesState = true → ∀ i ∈ [Instr.mctpControl r, .pldmRequest r, .vendorFrameRequest r],
         Answers i s fun t => Claims.BusAnswered s t r.tag [0x05]) ∧
       (r.changesState = false →
       (r.command = 1 → Answers (.mctpControl r) s fun t => t.host.answers = s.host.answers ++ [(r.tag, [0x00, 0x00, r.eid, 0x00])] ∧
         { t with host := s.host } = { s with warden := { s.warden with eid := r.eid } }) ∧
       (r.command = 2 → Answers (.mctpControl r) s fun t => Claims.BusAnswered s t r.tag [0x00, s.warden.eid, 0x00, 0x00]) ∧
       (r.command = 3 ∨ r.command = 4 → Answers (.mctpControl r) s fun t => ∃ bs, bs.length = (if r.command = 3 then 17 else 6) ∧
         bs.head? = some 0x00 ∧ Claims.BusAnswered { s with freeCtr := t.freeCtr } t r.tag bs) ∧
       (r.command = 5 → Answers (.mctpControl r) s fun t => Claims.BusAnswered s t r.tag [0x00, 0x03, 0x00, 0x01, 0x7E]) ∧
       (r.command = 0 ∨ 5 < r.command → Answers (.mctpControl r) s fun t => Claims.BusAnswered s t r.tag [0x05]) ∧
        (r.sensor < 0x80 → Answers (.pldmRequest r) s fun t =>
          Claims.BusAnswered s t r.tag (0x00 :: ((Claims.latestFrame s).drop r.sensor).take r.length)) ∧
        (r.sensor = 0x81 → Answers (.pldmRequest r) s fun t =>
          Claims.BusAnswered s t r.tag [0x00, if s.warden.pins.thermtrip then 1 else 0]) ∧
        (r.command = 1 → Answers (.vendorFrameRequest r) s fun t => Claims.BusAnswered s t r.tag (Claims.latestFrame s)) ∧
        (r.command ≠ 1 → Answers (.vendorFrameRequest r) s fun t => Claims.BusAnswered s t r.tag [0x05]))) ∧
      (r.address = 0x0C → s.alertPin = true → ∀ i ∈ [Instr.mctpControl r, .pldmRequest r, .vendorFrameRequest r],
        Answers i s fun t => Claims.BusAnswered s t r.tag [0xC6])) ∧
    (¬ up ∨ (r.address ≠ 0x63 ∧ (r.address = 0x0C → s.alertPin = false)) → exec (.mctpControl r) s = .next s ∧
      exec (.pldmRequest r) s = .next s ∧ exec (.vendorFrameRequest r) s = .next s)

/-- HOLDCAP_MEASURE, SHUT_CONTROL_CLEAR, EVT_TAIL_WRITE and VAUX12_LOSS: the capacitor is armed at 15.0 V and 3.0 mF; a record read
is cleared; the tail never leaves more than 65,536 records unread; the standby domain lost loses the latched trip, and SHUTTER_DONE
goes once HOLDCAP is exhausted. -/
def Sys2Proof.Clauses.StandbyAndRecordsAreKept : Prop :=
  ∀ (req : Requester) (s : State),
    (∀ mv cap : W16, s.warden.stopped ≠ 2 → Answers (.holdcapMeasure mv cap) s fun t =>
      t.fld (pA SHUT_HOLDCAP) 15 0 = mv.toNat ∧ t.fld (pA SHUT_HOLDCAP) 31 16 = cap.toNat ∧
      t.bit (pA SHUT_STATUS) 0 = (decide (15000 ≤ mv.toNat) && decide (300 ≤ cap.toNat)) ∧
      t.bit (pA SHUT_STATUS) 7 = decide (cap.toNat < 300) ∧ { t with regs := s.regs } = s) ∧
    (∀ mv cap : W16, s.warden.stopped = 2 → Answers (.holdcapMeasure mv cap) s fun t => t.regs = s.regs ∧
      t.warden.pins.shutterDone = (s.warden.pins.shutterDone && decide (6000 ≤ mv.toNat)) ∧ { t with warden := s.warden } = s) ∧
    (Claims.Admitted s req (pA SHUT_CONTROL) → Answers (.shutControlClear req) s fun t => t.bit (pA SHUT_STATUS) 1 = false ∧
      t.fld (pA SHUT_STATUS) 3 2 = 0 ∧ (if s.mramLater then t.warden.flash.mramB else t.warden.flash.mramA).cleared = true ∧
      t.mem = s.mem ∧ t.cores = s.cores) ∧
    (∀ v : W32, Claims.Admitted s req (pA EVT_TAIL) → v &&& 0xFFFE0000 = 0 → Answers (.evtTailWrite req v) s fun t =>
      let left := (s.fld (pA EVT_HEAD) 16 0 + 2 ^ 17 - v.toNat) % 2 ^ 17
      t.fld (pA EVT_TAIL) 16 0 = (if left ≤ 65536 then v.toNat else s.fld (pA EVT_TAIL) 16 0) ∧
        (∀ a, a ≠ pA EVT_TAIL → t.reg a = s.reg a) ∧ { t with regs := s.regs } = Claims.heard s req) ∧
    (s.warden.pins.perst = true ∨ s.warden.stopped = 2 → Answers .vaux12Loss s fun t => t.warden.stopped = 2 ∧
      t.warden.pins.vaux = false ∧ t.warden.pins.thermtrip = false ∧ t.warden.eid = 0 ∧
      t.warden.pins.shutterDone = s.warden.pins.shutterDone ∧ t.reg (pA THM_TRIP) = 0 ∧ t.warden.flash = s.warden.flash ∧
      ∀ a, a ≠ pA THM_TRIP → t.reg a = s.reg a) ∧
    (s.warden.pins.perst = false → s.warden.stopped ≠ 2 → exec .vaux12Loss s = .next s)
end

