-- ==== Sys2Proof/Certificates/Slice0/Obligations.lean ====
section
/-! DEFINITION. The statements about the model. Each says which rules of spec/ it formalises in OBLIGATIONS.json; a clause that rests
on a log entry names it. -/

open Sys2Proof Sys2Proof.Machine

/-- Log entry 4: on a command the step is its meaning on the queue's rest; on an empty queue, with no host's write waiting, one
cycle of the warden's count passes, but where its island too stands stopped, and memory and network are as before where no barrow
command is in progress. -/
def Obligations.StepRunsTheFrontCommand : Prop :=
  (∀ (c : Instr) (rest : List Instr) (s : State), s.pending = c :: rest → step s = exec c { s with pending := rest }) ∧
    ∀ s : State, s.pending = [] → s.host.posted = [] → (s.warden.stopped = 2 → step s = .next s) ∧
      (s.warden.stopped ≠ 2 → ∃ t, step s = .next t ∧ t.now = s.now + 1 ∧ t.pending = [] ∧
        (s.bilo.busy = none → t.mem = s.mem ∧ t.net = s.net ∧ t.vaults = s.vaults))

/-- A word written out by hand from the encoding tables of R105 to R108, R118, R124, R129, R130 and the chapter's worked example
decodes to its instruction; unlisted opcodes, functions and sub-operations decode to none. -/
def Obligations.WordsOfTheTablesDecode : Prop :=
  decodeScalar 7 0x20A3FFF8 = some (.addi 7 5 3 0xFFF8) ∧ decodeScalar 7 0x84A0FFFA = some (.bne 7 5 0 0xFFFA) ∧
  decodeScalar 7 0x00000000 = some (.add 7 0 0 0) ∧ decodeScalar 7 0xC0001004 = some (.twait 7 0 0 0 4) ∧
  decodeScalar 7 0x04000001 = some (.ecall 7 0 0 0) ∧ decodeScalar 7 0x6D090000 = some (.sd 7 8 9 0 []) ∧
  decodeBulk 7 0xF8234010 0x50000001 = some (.mma 7 0x10 ⟨3, 4, 0, 5, 0, 0, 1⟩) ∧
  decodeBulk 7 0xF8834006 0x12350000 = some (.vopFma 7 ⟨3, 4, 0, 1, 2, 3, 0x50000⟩) ∧
  decodeScalar 7 0x00000005 = none ∧ decodeScalar 7 0xFC000000 = none ∧ decodeScalar 7 0xC0006001 = none

/-- Decoding and encoding agree, in both directions, for every word the control core fetches, with every operand at every value. -/
def Obligations.ControlCoreWordsDecodeAndEncodeAgree : Prop :=
  Clauses.ScalarWordsRoundTrip ∧
    Clauses.BulkWordsRoundTrip ∧
    Clauses.DecodedWordsEncodeBack

/-- The ALU functions of R108 and the immediate forms of R107, said in integers, change rd, pc and RETIRED only. -/
def Obligations.ArithmeticWritesItsResults : Prop :=
  Clauses.AluFunctionsWriteTheirResults ∧
    Clauses.BitCountsWriteTheirResults ∧
    Clauses.ImmediateFormsWriteTheirResults

/-- Branches and jumps (R107): where they go, what they link, and the forms that trap. -/
def Obligations.BranchesAndJumpsTakeTheirTargets : Prop :=
  Clauses.BranchesTakeTheirTargets ∧
    Clauses.JumpsLinkAndTakeTheirTargets

/-- Instructions that cannot be run trap (R106, R113) and do nothing else. -/
def Obligations.IllegalAndUnfetchableInstructionsTrap : Prop :=
  Clauses.FetchOutsideMemoryTraps ∧
    Clauses.IllegalFormsTrap

/-- Loads and stores that complete (R107, R109 to R112): what they read, what they write, and that nothing else changes. -/
def Obligations.LoadsAndStoresReachTheirMemory : Prop :=
  Clauses.LoadsReadTheScratchpad ∧
    Clauses.StoresWriteTheScratchpad ∧
    Clauses.LoadsAndStoresReachTheirRegisters

/-- Loads and stores that do not complete trap in the order of log entry 27 and store nothing; a pitch failure is recorded (R95). -/
def Obligations.LoadsAndStoresTrapInOrder : Prop :=
  Clauses.LoadsAndStoresTrap ∧
    Clauses.PitchFailuresAreRecorded

/-- mfs and mts (R115, R116, R142); tdw and tdr (R117). -/
def Obligations.StateRegistersAreReadAndWritten : Prop :=
  Clauses.StateRegistersRead ∧
    Clauses.StateRegistersWrite ∧
    Clauses.DescriptorsHoldTheirWords

/-- The token instructions (R118): the counter each names, what it stalls on, and what leaves the core. -/
def Obligations.TokensCountAndLeave : Prop :=
  Clauses.TokenInstructionsCount ∧
    Clauses.TokenSendLeaves

/-- Entry to and return from the trap handler (R124, R126, R127, R415). -/
def Obligations.TrapsEnterAndLeaveTheHandler : Prop :=
  Clauses.CallsAndBreakpointsTrap ∧
    Clauses.DoubleTrapsStopTheCore ∧
    Clauses.EretRestoresWhatTrapsSaved ∧
    Clauses.InterruptsEnterTheHandler

/-- System instructions and the instruction cache (R113, R114, R124). -/
def Obligations.SystemInstructionsWaitAndFetch : Prop :=
  Clauses.SystemWaitsEnd ∧
    Clauses.MissesFillTheCache

/-- Issue of every bulk instruction (R77, R79, R129 to R132, R199 to R201). -/
def Obligations.BulkInstructionsAreIssued : Prop :=
  Clauses.BulkInstructionsEnterTheTally ∧
    Clauses.BulkInstructionsTrapOrStall

/-- BULK_START (R77, R78, R133, R202, R205), shown with what an SMOV does (R176). -/
def Obligations.OperationsStartInTheirTurn : Prop :=
  Clauses.HeadsOfQueuesWait ∧
    Clauses.OperationsStartWithTheirToken ∧
    Clauses.ScratchpadMovesCopyTheirRow

/-- BULK_COMPLETE and SETTLE (R134, R189, R203). -/
def Obligations.OperationsCompleteSignalAndSettle : Prop :=
  Clauses.OperationsCompleteAndSignal ∧
    Clauses.OperationsSettle

/-- A wait of a replay that is not over at TALLY_WAIT_LIMIT, and a poisoned input with no surviving source, end the operation as
failed (R210, R212, R215); a poisoned row of the scratchpad that an SMOV of the source log wrote is copied again, counted, and its
reader may replay. -/
def Obligations.ReplaysAreLimitedAndRepaired : Prop :=
  ∀ (c : CoreId) (slot : BitVec 9) (s : State) (e : Entry), Claims.Running s → s.entry c.toNat slot.toNat = some e → e.state = .replaying →
    (e.written = [] → (e.fault = 6 ∨ e.fault = 7) → e.done = false → e.waitFor ≠ none → s.replayReady c.toNat e = false →
      s.fld (cA c.toNat TALLY_WAIT_LIMIT) 31 0 ≠ 0 → Answers (.replayWaitExpiry c slot) s (Claims.Failed c e s)) ∧
    (e.written = [] → e.fault = 5 → e.repairDone = false → e.sent = [] → s.poisonOf [(e.poisonAt, 1)] ≠ [] →
      s.source c.toNat e.poisonAt = none →
      Answers (.poisonRepair c slot) s (Claims.Failed c e s)) ∧
    (∀ r : SrcRec, e.fault = 5 → e.repairDone = false → e.sent = [] → r.opcode = 0x21 → (s.core c.toNat).power = 2 →
      s.poisonOf [(e.poisonAt, 1)] ≠ [] →
      s.source c.toNat e.poisonAt = some (.log r) → Claims.rowAddr c r.d ≤ e.poisonAt →
      e.poisonAt < Claims.rowAddr c r.d + r.d.rowLen →
      (∀ a ∈ s.poisonOf (s.useOf c.toNat e).reads, Claims.rowAddr c r.d ≤ a ∧ a < Claims.rowAddr c r.d + r.d.rowLen) →
      r.src = [.mem none (Claims.rowAddr c r.a) (Claims.rowAddr c r.a + r.a.rowLen)] → Claims.OneRow r.a → Claims.OneRow r.d →
      r.a.rowLen = r.d.rowLen → r.d.base % 8 = 0 → r.d.rowLen % 8 = 0 → r.a.base + r.a.rowLen ≤ 0x200000 →
      r.d.base + r.d.rowLen ≤ 0x200000 → Claims.NoError s (Claims.rowAddr c r.a) r.a.rowLen →
      Answers (.poisonRepair c slot) s fun t =>
        (∀ i, i < r.d.rowLen → t.byte (Claims.rowAddr c r.d + i) = s.byte (Claims.rowAddr c r.a + i) ∧
          t.spMarkAt ((Claims.rowAddr c r.d + i) / 8 * 8) = 0) ∧
        t.entry c.toNat slot.toNat = some { e with repairDone := true } ∧
        t.fld (cA c.toNat TALLY_POISON) 15 0 = min (s.fld (cA c.toNat TALLY_POISON) 15 0 + 1) 65535)

/-- TALLY_FAILED.VALID written 1 frees the entry it names and shows the next failed one (R213); a starved request sets HIT and
raises source 5 (R88); a waking core is cleared before it runs: scratchpad, counters and instruction cache (R99). -/
def Obligations.CoresAreClearedAndReport : Prop :=
  ∀ (c : CoreId) (s : State),
    (∀ (req : Requester) (e : Entry), Claims.Admitted s req (cA c.toNat TALLY_FAILED) → (s.core c.toNat).power ≠ 0 →
      s.bit (cA c.toNat TALLY_FAILED) 0 = true →
      s.entryOf c.toNat (BitVec.ofNat 16 (s.fld (cA c.toNat TALLY_FAILED) 63 48)) = some e → e.state = .failed →
      (∀ x ∈ (s.core c.toNat).tally, x.state = .failed → x.slot = e.slot) →
      Answers (.tallyFailedClear req c) s fun t =>
        t.entry c.toNat e.slot = none ∧ t.reg (cA c.toNat TALLY_FAILED) = 0 ∧ t.bit (cA c.toNat ICC_PENDING) 9 = false ∧ t.mem = s.mem) ∧
    (Claims.Running s → s.fld (cA c.toNat CORE_SP_STARVE) 15 0 ≠ 0 →
      Answers (.spStarveLimit c) s fun t => t.bit (cA c.toNat CORE_SP_STARVE) 16 = true ∧
        t.fld (cA c.toNat CORE_SP_STARVE) 15 0 = s.fld (cA c.toNat CORE_SP_STARVE) 15 0 ∧
        (s.bit (cA c.toNat ICC_ENABLE) 5 = true → t.bit (cA c.toNat ICC_PENDING) 5 = true) ∧ t.mem = s.mem ∧ t.cores = s.cores) ∧
    (Claims.Running s → (s.core c.toNat).power = 1 →
      Answers (.coreClear c) s fun t =>
        (∀ off, off < 0x200000 → t.byte (Claims.spAddr c off) = 0 ∧ t.spMarkAt (Claims.spAddr c off / 8 * 8) = 0) ∧
        (∀ a, (∀ off, off < 0x200000 → a ≠ Claims.spAddr c off) → t.byte a = s.byte a) ∧
        (∀ k : BitVec 4, Claims.counter t c k = 0) ∧ (t.core c.toNat).icache = [] ∧ (t.core c.toNat).e0 = Engine.reset ∧
        (t.core c.toNat).e1 = Engine.reset ∧ (t.core c.toNat).power = 2 ∧ ∀ d, d ≠ c.toNat → t.core d = s.core d)

/-- What each TYPE of crier message does where it arrives (R119, R120, R208, R237, R242, R243, R413, R525). -/
def Obligations.CrierMessagesAreTaken : Prop :=
  Clauses.TokensAndNoticesArrive ∧
    Clauses.WardenTakesForwardsAndFaults ∧
    Clauses.NodesTakeMapsEndsAndRestarts

/-- PACKET_HOP and PLAN_MERGE (R222 to R237). -/
def Obligations.PacketsFollowTheirRouteAndMerge : Prop :=
  Clauses.PacketsFollowTheirRoute ∧
    Clauses.PlansMergeTheirPorts

/-- LINK_DOWN, DETOUR_INSTALL, RETIRED_INJECTION and RETIRED_HAUL_ROW: a link goes down at both its ends, 8 repeats counted at the
receiving router; a detour, where one exists, lets it pass and is reported; what a pair that serves no vault, or is retired, injects
is refused and counted in MAP_QUAR, or, past its port by a fault, dropped by the neighbour that its stale epoch meets and counted
there. -/
def Obligations.LinksFailAndRetiredPairsAreRefused : Prop :=
  ∀ (st : StackId) (phys : Nat) (port : BitVec 2) (s : State), Claims.Running s → phys < 72 →
    let t0 := st.toNat
    (∀ far, linkEnd t0 phys port.toNat = some far → (∀ l ∈ s.net.down, l.stack ≠ t0 ∨ l.phys ≠ phys ∨ l.port ≠ port.toNat) →
      Answers (.linkDown st phys port) s fun t =>
        t.net.down = s.net.down ++ [⟨t0, phys, port.toNat, false⟩, ⟨far.1, far.2.1, far.2.2, false⟩] ∧ t.mem = s.mem ∧
        t.net.packets = s.net.packets ∧ t.cores = s.cores ∧
        ∀ d, s.servedBy (far.1 * 128 + far.2.1 / 9 * 16 + far.2.1 % 9) = some d →
          t.reg (cA d NI_RETRIES) = s.reg (cA d NI_RETRIES) + 8) ∧
    (∀ l, l ∈ s.net.down → l = ⟨t0, phys, port.toNat, false⟩ → s.detourOk t0 phys port.toNat = true →
      Answers (.detourInstall st phys port) s fun t =>
        ({ l with detoured := true } ∈ t.net.down) ∧ Claims.EventSent t 0x30 2 ∧ t.net.down.length = s.net.down.length ∧ t.mem = s.mem) ∧
    ((∀ j, j < 64 → s.physOf (t0 * 64 + j) % 128 ≠ phys / 9 * 16 + phys % 9) ∨ t0 * 72 + phys ∈ s.warden.retired →
      let counted (u : Nat) (t : State) : Prop :=
        t.fld (pA MAP_QUAR + 4 * u) 31 0 = min (s.fld (pA MAP_QUAR + 4 * u) 31 0 + 1) (2 ^ 32 - 1) ∧ t.mem = s.mem
      Answers (.retiredInjection st phys .crierNode) s (counted t0) ∧ Answers (.retiredInjection st phys .localPort) s (counted t0) ∧
      Answers (.retiredHaulRow st phys) s (counted t0) ∧
      ∀ (d : CoreId) (e : Byte) far, linkEnd t0 phys port.toNat = some far → e ≠ s.epochAt far.1 (d.toNat / 64) →
        Answers (.retiredInjection st phys (.past port d e)) s (counted far.1))

/-- REMOTE_WRITE and READ_REQUEST at the scratchpad: bytes granted by a pitch of master 4 are written and answered OK, others
refused, recorded and answered REFUSED; committed bytes are read and sent back. A write of a whole fast-tier word makes its row
valid. -/
def Obligations.RemoteWritesAndReadsAreServed : Prop :=
  ∀ (i : Nat) (c : CoreId) (k : Nat) (p : Packet) (s : State), Claims.Running s → Claims.Whole p →
    let a := p.addr.toNat
    (∀ off, off < 0x200000 → a = Claims.spAddr c off → off + p.data.length ≤ 0x200000 → 0 < p.data.length →
      Claims.AtTarget s i 1 p.data.length false true p k →
      (s.pitchGap c.toNat 4 off p.data.length true = none → Claims.NoError s a p.data.length →
        Answers (.remoteWrite i []) s fun t => Claims.AnsweredWith s t i p k 6 0 [] ∧
          (∀ x, t.byte x = if a ≤ x ∧ x < a + p.data.length then p.data.getD (x - a) 0 else s.byte x) ∧
          ∀ x, t.spMarkAt x = s.spMarkAt x) ∧
      (∀ first, s.pitchGap c.toNat 4 off p.data.length true = some first →
        Answers (.remoteWrite i []) s fun t => ∃ u, Claims.AnsweredWith s t i p k 6 1 u ∧ t.mem = s.mem ∧
          t.bit (cA k PITCH_FAULT) 0 = true ∧ t.fld (cA k PITCH_FAULT) 40 20 = first)) ∧
    (a % 64 = 0 → a < 0x020000000000 → p.data.length = 64 → Claims.AtTarget s i 1 64 false true p k →
      (s.vault (a / 2 ^ 31)).unchecked = [] →
      Answers (.remoteWrite i []) s fun t => Claims.AnsweredWith s t i p k 6 0 [] ∧ t.rowValid a = true ∧ t.fastSynAt a = 0 ∧
        ∀ x, t.byte x = if a ≤ x ∧ x < a + 64 then p.data.getD (x - a) 0 else s.byte x) ∧
    (∀ off, off < 0x200000 → a = Claims.spAddr c off → off + p.len ≤ 0x200000 → 0 < p.len →
      Claims.AtTarget s i 2 p.len false false p k → s.readWaits p = false → Claims.NoError s a p.len →
      Answers (.readRequest i []) s fun t => Claims.AnsweredWith s t i p k 3 0 (s.bytes a p.len) ∧ { t with net := s.net } = s)

/-- ACCUMULATE and MERGE at a plain segment: a whole word of FP32 elements is added, one triple row is merged; the contributor's bit
of the generation is set and OK answered; a bit already set drops the contribution, counted; an older generation is answered STALE.
-/
def Obligations.ContributionsLandOnce : Prop :=
  ∀ (i k : Nat) (p : Packet) (s : State), Claims.Running s → Claims.Whole p → p.data.length = 64 → p.len = 0 →
    (∀ q ∈ s.net.packets, p.partOfIt q = false) →
    let a := p.addr.toNat
    p.pieces = [(a, 64)] → p.contrib < 64 → a < 0x020000000000 →
    (Claims.CleanWord s a → Claims.Lands s a p.gen → (Claims.taken s a p.gen).getLsbD p.contrib = false →
      let landed (t : State) : Prop := (∃ u, Claims.AnsweredWith s t i p k 6 0 u) ∧ (t.seg (a / 4096)).gen = some p.gen ∧
        (t.seg (a / 4096)).bitmap = (Claims.taken s a p.gen ||| BitVec.ofNat 64 (2 ^ p.contrib)) ∧
        ∀ x, (x < a ∨ a + 64 ≤ x) → t.byte x = s.byte x
      (p.fmt = 7 → Claims.AtTarget s i 4 64 true true p k →
        Answers (.accumulate i []) s fun t => landed t ∧
          t.bytes a 64 = bytes32 (List.zipWith fadd (words32 (s.bytes a 64)) (words32 p.data))) ∧
      (Claims.AtTarget s i 5 64 true true p k →
        Answers (.merge i []) s fun t => landed t ∧
          t.bytes a 64 = bytes32 (tripleMerge (words32 (s.bytes a 64)) (words32 p.data)))) ∧
    (s.tensorAt a = none → s.barrowAt a = none → Claims.AtTarget s i 4 64 true true p k →
      ((s.seg (a / 4096)).gen = some p.gen → (s.seg (a / 4096)).bitmap.getLsbD p.contrib = true →
        Answers (.accumulate i []) s fun t => (∃ u, Claims.AnsweredWith s t i p k 6 0 u) ∧ t.mem = s.mem ∧
          t.reg (pA BILO_DUP) = s.reg (pA BILO_DUP) + 1) ∧
      (∀ h, (s.seg (a / 4096)).gen = some h → 128 ≤ (p.gen - h).toNat →
        Answers (.accumulate i []) s fun t => (∃ u, Claims.AnsweredWith s t i p k 6 4 u) ∧ t.mem = s.mem ∧
          (t.seg (a / 4096)) = s.seg (a / 4096)))

/-- SEND_PACKET, READ_DATA and STATUS: a one-packet send fills a matching posted receive of one row, answers its sender OK and ends
the operation; read data is written at its local place; the last OK ends the operation, a LINK replays it, a refusal refuses it. -/
def Obligations.AnswersEndOperations : Prop :=
  ∀ (i : Nat) (c : CoreId) (p : Packet) (e : Entry) (s : State), Claims.Running s → Claims.Whole p →
    (∀ q : Posted, s.delivered i 0 = some (p, c.toNat) → s.absorbing c.toNat = false → s.drains p (c.toNat / 64) = false →
      (s.core c.toNat).posted = [q] →
      q.channel = p.channel.toNat → s.entry c.toNat q.slot = some e → q.streams = [] → q.senders = [] → q.refuse = false →
      q.fanin = 1 → q.red = 0 → p.red = 0 → e.red = 0 → p.count = 1 → p.first = true → p.final = true → p.len = 0 →
        p.senders = [(p.src, p.tag)] →
      p.shape = e.d.shapeWord → Claims.OneRow e.d → p.data.length = e.d.rowLen → p.data.length = shapeBytes e.d.shapeWord →
      0 < p.data.length → e.d.base + e.d.rowLen ≤ 0x200000 → Claims.NoError s (Claims.rowAddr c e.d) e.d.rowLen →
      Answers (.sendPacket ⟨i, []⟩) s fun t =>
        (∀ x, t.byte x = if Claims.rowAddr c e.d ≤ x ∧ x < Claims.rowAddr c e.d + e.d.rowLen then
          p.data.getD (x - Claims.rowAddr c e.d) 0 else s.byte x) ∧
        (∃ r, t.net.packets = s.net.packets.eraseIdx i ++ [r] ∧ r.typ = 6 ∧ r.dest = p.src ∧ r.tag = p.tag ∧ r.status = 0) ∧
        (t.core c.toNat).posted = [] ∧ ∃ x, t.entry c.toNat q.slot = some x ∧ x.done = true) ∧
    (∀ r : Nat × Nat × Nat, s.delivered i 3 = some (p, c.toNat) → s.entryOf c.toNat p.tag = some e → s.entry c.toNat e.slot = some e →
      e.opcode = 0x29 → Claims.Answerable e → e.unitOf c.toNat p.addr.toNat = some [r] → p.data.length = r.2.2 →
      (∃ off, r.2.1 = Claims.spAddr c off ∧ off + p.data.length ≤ 0x200000) → 0 < p.data.length →
      Claims.NoError s r.2.1 p.data.length → (∃ x, e.sent = [x] ∧ x.2.1 = r.2.1) → e.far = none → e.inbox = [] →
      Answers (.readData ⟨i, []⟩) s fun t =>
        (∀ x, t.byte x = if r.2.1 ≤ x ∧ x < r.2.1 + p.data.length then p.data.getD (x - r.2.1) 0 else s.byte x) ∧
        (∃ x, t.entry c.toNat e.slot = some x ∧ x.done = true ∧ x.sent = []) ∧ t.net.packets = s.net.packets.eraseIdx i) ∧
    (∀ x : Nat × Nat × Nat, s.delivered i 6 = some (p, c.toNat) → p.port = none → s.entryOf c.toNat p.tag = some e →
      s.entry c.toNat e.slot = some e → e.opcode = 0x28 → Claims.Answerable e → e.sent = [x] → x.2.1 = p.addr.toNat → e.far = none →
      (p.status = 0 → Answers (.status ⟨i, []⟩) s fun t => ∃ y, t.entry c.toNat e.slot = some y ∧ y.done = true ∧ y.sent = []) ∧
      (p.status = 5 → e.fault = 0 → Answers (.status ⟨i, []⟩) s fun t => ∃ y, t.entry c.toNat e.slot = some y ∧ y.state = .replaying ∧
        y.fault = 7 ∧ y.waitFor = some ((s.deviceOf e.word).elim (.route x.1) .farRoute) ∧
        t.reg (cA c.toNat TALLY_REPLAYS) = s.reg (cA c.toNat TALLY_REPLAYS) + 1 ∧ Claims.EventSent t 0x10 7) ∧
      (p.status = 1 → Answers (.status ⟨i, []⟩) s fun t => t.entry c.toNat e.slot = none ∧ t.bit (cA c.toNat CORE_MOVE_FAULT) 0 = true ∧
        t.fld (cA c.toNat CORE_MOVE_FAULT) 7 4 = 7))

/-- RECV_WAIT_LIMIT, MAP_COMMAND and MAP_CHANGE_END: a send that waits beyond the limit is recorded with source 8; a change of
substitution sets BUSY, the row's substitution and the stack's next epoch and tells every stack, but during a stack or partition
reset only BUSY, for it waits (R471), and one that would make a retired pair serve is refused (log entry 64); it ends once all
stacks have taken it. -/
def Obligations.MapChangesRunToTheirEnd : Prop :=
  (∀ (c : CoreId) (ch : Byte) (s : State) (p : Packet), Claims.Running s → s.fld (cA c.toNat NI_RECV_LIMIT) 31 0 ≠ 0 →
    p ∈ s.net.packets → p.typ = 0 → p.channel = ch → p.place = .delivered c.toNat → (∀ q ∈ (s.core c.toNat).posted, q.channel ≠ ch.toNat) →
    Answers (.recvWaitLimit c ch) s fun t => t.bit (cA c.toNat NI_RECV_WAIT) 16 = true ∧
      t.fld (cA c.toNat NI_RECV_WAIT) 7 0 = ch.toNat ∧
      (s.bit (cA c.toNat ICC_ENABLE) 8 = true → t.bit (cA c.toNat ICC_PENDING) 8 = true) ∧ t.mem = s.mem ∧ t.cores = s.cores) ∧
  (∀ (req : Requester) (v : W32) (s : State), Claims.Admitted s req (pA MAP_COMMAND) → v &&& 0x7FFF800F = 0 →
    s.bit (pA MAP_STATUS) 0 = false →
    let waits := ∃ scope target, s.warden.reset = some (scope, target) ∧ scope ≠ 0
    let x := bits (v.setWidth 64) 14 11
    let r := bits (v.setWidth 64) 10 8
    let new := bits (v.setWidth 64) 7 4
    let old := s.fld (pA MAP_SUB + 4 * x) (4 * r + 3) (4 * r)
    let e := s.fld (pA MAP_EPOCH + 4 * x) 7 0
    let bad := (8 ≤ new ∧ new < 15) ∨ (old ≠ 15 ∧ new ≠ 15 ∧ old ≠ new) ∨ s.mapsRetired x r old new = true
    (waits → Answers (.mapCommand req v) s fun t => t.bit (pA MAP_STATUS) 0 = true ∧
      t.net = { s.net with asked := some (x, r, new) } ∧
      t.fld (pA MAP_SUB + 4 * x) (4 * r + 3) (4 * r) = old ∧ t.fld (pA MAP_EPOCH + 4 * x) 7 0 = e) ∧
    (¬ waits → bad → Answers (.mapCommand req v) s fun t => t.bit (pA MAP_STATUS) 1 = true ∧
      t.fld (pA MAP_SUB + 4 * x) (4 * r + 3) (4 * r) = old ∧ t.net = s.net) ∧
    (¬ waits → ¬ bad → e = 255 → Answers (.mapCommand req v) s fun t => t.bit (pA MAP_STATUS) 2 = true ∧
      t.fld (pA MAP_SUB + 4 * x) (4 * r + 3) (4 * r) = old ∧ t.net = s.net) ∧
    (¬ waits → ¬ bad → e ≠ 255 → Answers (.mapCommand req v) s fun t => t.bit (pA MAP_STATUS) 0 = true ∧
      t.fld (pA MAP_SUB + 4 * x) (4 * r + 3) (4 * r) = new ∧ t.fld (pA MAP_EPOCH + 4 * x) 7 0 = e + 1 ∧
      t.net.msgs.length = s.net.msgs.length + 16 ∧ (∀ m ∈ t.net.msgs.drop s.net.msgs.length, m.typ = 5) ∧
      t.net.change = some (x, r, old, new))) ∧
  (∀ (s : State) (x r o n : Nat), s.warden.stopped ≠ 2 → s.net.change = some (x, r, o, n) → (∀ m ∈ s.net.msgs, m.typ ≠ 5) →
    Answers .mapChangeEnd s fun t => t.bit (pA MAP_STATUS) 0 = false ∧ t.net.change = none ∧ Claims.EventSent t 0x30 1 ∧
      (Claims.pkgEnabled s 36 = true → Claims.pkgPending t 36 = true) ∧ t.mem = s.mem ∧ t.cores = s.cores)

/-- The vault controller's haul, refresh and clear (R249 to R261). -/
def Obligations.HaulsRefreshAndClear : Prop :=
  Clauses.HaulsGoDownAndSlotsRefresh ∧
    Clauses.ClearsEmptyTheirBenches

/-- VC_REPAIR and WRITE_BACK (R256 to R258, R278). -/
def Obligations.RowsAreSparedAndWordsFixed : Prop :=
  Clauses.RowsAreSpared ∧
    Clauses.WriteBacksFixTheirWords

/-- The slow tier and the scrubber (R264 to R268, R282 to R285). -/
def Obligations.SlowChannelsAndScrubbing : Prop :=
  Clauses.SlowChannelsGoDownAndClear ∧
    Clauses.TheScrubberWalksValidRows

/-- Near-bank mode and acceptance (R294 to R299). -/
def Obligations.NearBankCommandsEnter : Prop :=
  Clauses.NearBankModeComesAndGoes ∧
    Clauses.NearBankCommandsAreAccepted

/-- NB_COMMAND_START, NB_COMMAND_END and NB_RESULT_READ: row logic of one step computes each byte of its destination row; an ended
command's record is kept with status, operation and CMDID, counted, and its core told; a window read of its row gives that record.
-/
def Obligations.NearBankCommandsRunAndReport : Prop :=
  ∀ (st : StackId) (v : BitVec 6) (bank : BitVec 7) (s : State) (k : NbCmd), Claims.Running s →
    let c := st.toNat * 64 + v.toNat
    (s.vault c).cmds = [k] → k.bank = bank.toNat → k.rowAddrA / 0x80000000 = c →
    (∀ p ∈ Claims.rowFunctions, k.running = false → s.bit (vA c NB_STATUS) 0 = true → k.op = p.1 →
      k.count = 1 → k.reason = 0 → (s.vault c).unchecked = [] → (s.vault c).writeBacks = [] →
      (∀ r ∈ k.reads.map k.rowAddr, Claims.CleanRow s r ∧ s.rowSummary r = false) →
      Answers (.nbCommandStart st v bank []) s fun t =>
        let d := k.rowAddr k.rowD
        (∀ x, t.byte x = if d ≤ x ∧ x < d + 512 then
          p.2 (s.byte (k.rowAddr k.rowA + (x - d))) (s.byte (k.rowAddr k.rowB + (x - d))) (s.byte (k.rowAddr k.rowC + (x - d)))
          else s.byte x) ∧
        t.rowValid d = true ∧ t.rowSummary d = false ∧ t.cores = s.cores ∧ t.net = s.net ∧
        (t.vault c).unchecked = (if p.1 = 3 ∨ p.1 = 4 ∨ p.1 = 6 then [d] else []) ∧
        ∃ j, (t.vault c).cmds = [j] ∧ j.running = true ∧ j.status = 1 ∧ j.bytes = k.bytes) ∧
    (k.running = true → k.status < 4 → Answers (.nbCommandEnd st v bank) s fun t =>
      (t.vault c).cmds = [] ∧ t.reg (vA c NB_COMMANDS) = s.reg (vA c NB_COMMANDS) + 1 ∧
      Claims.NbAnswered s t k (if k.status = 3 then 3 else 0) ∧ t.mem = s.mem ∧ t.cores = s.cores ∧
      ∃ r, (t.vault c).results.head? = some r ∧ r.addr = k.rowAddr k.rowD ∧ r.bytes.length = 64 ∧
        r.bytes.getD 0 0 = BitVec.ofNat 8 k.status ∧ r.bytes.getD 1 0 = k.bytes.getD 0 0 ∧
        ∀ i, i < 4 → r.bytes.getD (4 + i) 0 = k.bytes.getD (24 + i) 0) ∧
    ∀ (tag : Nat) (a : Addr) (r : NbResult), s.hostOpen = true → s.inServiceAt a.toNat = true → s.stackDown (c / 64) = false →
      s.resetHolds c = false → (s.vault c).haulDown = false → a.toNat % 512 = 0 → a.toNat = 0x100000000000 + r.addr →
        r.addr / 0x80000000 = c → c < 1024 →
      k.rowAddr k.rowD ≠ r.addr → (s.vault c).results.find? (fun x => x.addr = r.addr) = some r →
      Answers (.nbResultRead .host tag a) s fun t =>
        t.host.completions = s.host.completions ++ [{ tag := tag, data := r.bytes, ep := false, status := .successful }] ∧ t.mem = s.mem

/-- LEND, RELEASE and the refusals of the update unit (R349, R356, R357). -/
def Obligations.LendsAndRefusalsOfTheUpdateUnit : Prop :=
  Clauses.LendsComeAndGo ∧
    Clauses.UpdateCommandsAreRefused

/-- OPEN, CLOSE, DRAIN and RECON of one tensor: a valid entry opens at its step; a CLOSE of the next step under a delay closes its
slot and queues its exact update; a DRAIN and a RECON count a reconciliation, and a DRAIN with RETIRE closes the entry; where
nothing holds the memory that the unit works on. With no slot in use and every word clean, a RECON stores the master's values as
blocks with computed scale, stochastically rounded (R353, R354). -/
def Obligations.TensorsOpenCloseAndReconcile : Prop :=
  ∀ (st : StackId) (s : State) (k : UpdCmd), Claims.Running s → k.reason = 0 → k.count = 1 →
    let u := st.toNat
    let n := k.tensor
    let a := s.fld (sA u UPD_TABLE) 45 16 * 65536 + 64 * n
    (let x := newTensor n ((List.range 8).map fun i => BitVec.ofNat 64 (Claims.number (s.bytes (a + 8 * i) 8))) k.step
     Claims.UpdFirst s u k 0x10 → s.tensorOpen u n = false → s.unitHeld [(a, 64)] [(a, 64)] = false → Claims.CleanWord s a →
      (tensorOk u (s.updDelay u) x = true → Answers (.updOpen st) s fun t => t.tensor u n = some x ∧ Claims.UpdDone s t u k ∧
        Claims.number (t.bytes (a + 48) 4) = (k.step - 1).toNat ∧ Claims.number (t.bytes (a + 52) 4) = (k.step - 1).toNat ∧
        t.byte (a + 56) = 1 ∧ ∀ y, y < a + 48 ∨ a + 64 ≤ y → t.byte y = s.byte y) ∧
      (tensorOk u (s.updDelay u) x = false → Answers (.updOpen st) s fun t => Claims.UpdRefused s t u k n 5 ∧ t.mem = s.mem)) ∧
    (∀ x, Claims.UpdFirst s u k 0x11 → k.through = 0 → k.mid = false → s.tensor u n = some x → x.failed = false → x.slots = [] →
      k.step = x.closed + 1 → 1 ≤ s.updDelay u → (∀ e ∈ (s.stack u).exacts, e.tensor ≠ n) → s.workHeld u n = false →
      Claims.CleanWord s a →
      Answers (.updClose st) s fun t => Claims.UpdDone s t u k ∧ (t.stack u).exacts = (s.stack u).exacts ++ [⟨n, 0, k.step, none⟩] ∧
        ∃ y, t.tensor u n = some y ∧ y.closed = k.step ∧ y.slots = [{ place := 0, stepNo := k.step, folds := 1, closed := true,
                                                                       started := false, landed := false,
                                                                       poisoned := false }]) ∧
    (∀ x, s.tensor u n = some x → tensorOk u (s.updDelay u) x = true → x.failed = false → x.slots = [] → s.workHeld u n = false →
      (∀ e ∈ (s.stack u).exacts, e.tensor ≠ n) →
      let counted (t : State) : Prop := t.reg (sA u UPD_RECONS) = s.reg (sA u UPD_RECONS) + 1
      (Claims.UpdFirst s u k 0x12 → Answers (.updDrain st) s fun t => Claims.UpdDone s t u k ∧ counted t ∧
        (k.flags = 1 → t.tensor u n = none) ∧ (k.flags = 0 → ∃ y, t.tensor u n = some y ∧ y.since = 0)) ∧
      (Claims.UpdFirst s u k 0x13 → Answers (.updRecon st) s fun t => Claims.UpdDone s t u k ∧ counted t ∧
        (∃ y, t.tensor u n = some y ∧ y.since = 0) ∧
        ((∀ i, i < 4 * x.size → Claims.CleanLine s ((x.master + i) / 64 * 64)) →
          (∀ i, i < x.workBytes + x.size / 32 → Claims.CleanWord s ((x.work + i) / 64 * 64)) →
          a % 64 = 0 → a + 64 ≤ x.work ∨ x.work + x.workBytes + x.size / 32 ≤ a → Claims.Reconciled s t u x)))

/-- The update unit's work completes, whatever its slots and memory hold, where nothing holds that memory (R344, R351, R352, R356).
-/
def Obligations.UpdateUnitCommandsComplete : Prop :=
  Clauses.UnitCommandsComplete ∧
    Clauses.ExactUpdatesComplete ∧
    Clauses.StalledContributionsComplete

/-- EXACT_UPDATE and STALLED_CONTRIBUTION: a closed slot of rule 0 updates each master element from its stored momentum (R344) and
no other byte; a second parity error in one chunk fails the tensor; a contribution that stalled is tried again as it came. -/
def Obligations.ExactUpdatesWriteTheMaster : Prop :=
  ∀ (st : StackId) (s : State) (e : Exact) (rest : List Exact) (x : Tensor) (q : Slot), Claims.Running s →
    let u := st.toNat
    ((s.stack u).exacts = e :: rest → s.tensor u e.tensor = some x → x.slots = [q] → q.place = e.slot → q.closed = true →
      (s.unitHeld (x.exactSpans q).1 (x.exactSpans q).2 = false → x.rule = 0 → e.rules = none → q.folds = 1 → x.size % 32 = 0 →
        x.grad % 4096 = 0 → x.master % 4096 = 0 → x.moment % 4096 = 0 →
        x.master + 4 * x.size ≤ x.moment →
        (∀ i, i < 4 * x.size → Claims.CleanWord s ((x.slotAt q.place + i) / 64 * 64) ∧
          (s.seg ((x.slotAt q.place + i) / 4096)).gen ≠ none) →
        (∀ i, i < 4 * x.size → Claims.CleanLine s ((x.master + i) / 64 * 64)) →
        (∀ i, i < 2 * x.size → Claims.CleanLine s ((x.moment + i) / 64 * 64)) →
        Answers (.exactUpdate st [] none) s fun t =>
          let rate := (s.reg (sA u UPD_LR + 0x80 * x.ruleSet)).setWidth 32
          let decay := (s.reg (sA u UPD_LR + 0x80 * x.ruleSet + 0x10)).setWidth 32
          (∀ i, i < x.size → Claims.fp32At t (x.master + 4 * i) =
            ffma (fneg rate) (ffma decay (Claims.fp32At s (x.master + 4 * i)) (Claims.bf16At t (x.moment + 2 * i)))
              (Claims.fp32At s (x.master + 4 * i))) ∧
          (∀ y, (y < x.master ∨ x.master + 4 * x.size ≤ y) → (y < x.moment ∨ x.moment + 2 * x.size ≤ y) → t.byte y = s.byte y) ∧
          (t.stack u).exacts = rest ∧ t.reg (sA u UPD_ELEMENTS) = s.reg (sA u UPD_ELEMENTS) + BitVec.ofNat 64 x.size ∧
          ∃ y, t.tensor u e.tensor = some y ∧ ∃ z ∈ y.slots, z.place = q.place ∧ z.landed = true) ∧
      (∀ n, s.unitHeld (x.exactSpans q).1 (x.exactSpans q).2 = false → x.rule ≠ 1 → x.rule ≠ 3 → n < x.chunks →
        Answers (.exactUpdate st [n, n] none) s fun t => (t.stack u).exacts = rest ∧
        Claims.EventSent t 0x10 8 ∧ Claims.EventSent t 0x11 8 ∧ ∃ y, t.tensor u e.tensor = some y ∧ y.failed = true ∧ y.partial_ = true)) ∧
    ∀ (v : BitVec 6) (i : Nat) (p : Packet), s.net.packets[i]? = some p → p.held = 2 → p.place = .delivered (st.toNat * 64 + v.toNat) →
      (∀ j q, j < i → s.net.packets[j]? = some q → q.held = 2 → q.place ≠ .delivered (st.toNat * 64 + v.toNat)) →
      ∃ t, exec (.stalledContribution st v) s = .next t ∧ exec (if p.typ = 5 then .merge i [] else .accumulate i []) s = .next t

/-- CODEWORD_RECEIVE, RETRAIN, RETRAIN_COMPLETE and BILO_ID_WRITE: codewords are taken in order of SEQ and others discarded and
asked for again; a NAK replays, after eight in a row the port is down; a retrained port is up unless its partner has its own id. -/
def Obligations.LinksKeepTheirCodewordsInOrder : Prop :=
  ∀ (port : BitVec 3) (s : State), Claims.Running s →
    let p := port.toNat
    let k := s.port p
    let same (t : State) : Prop := t.mem = s.mem ∧ t.cores = s.cores
    (∀ w : Codeword, s.portUp p = true →
      let taken := w.intact = true ∧ k.discarding = false ∧ w.seq = k.expect
      let gone := if (w.ack - k.acked).toNat ≤ k.buffer.length then (w.ack - k.acked).toNat else 0
      let down := w.nak = true ∧ gone = 0 ∧ 8 ≤ k.replays
      Answers (.codewordReceive port w) s fun t =>
        t.reg (bpA p BPORT_CODEWORDS) = s.reg (bpA p BPORT_CODEWORDS) + 1 ∧ same t ∧
        (taken → ¬ down → (t.port p).expect = k.expect + 1) ∧
        (¬ taken → (t.port p).expect = k.expect ∧ Claims.Up (bpA p BPORT_UNCORRECTED) s t) ∧
        (¬ taken → w.intact = false ∨ k.discarding = true → k.next = k.top → k.buffer.length < 256 →
          ∃ x, (t.port p).line = some x ∧ x.nak = true ∧ x.ack = k.expect - 1) ∧
        (w.intact = true → w.corrected = true → Claims.Up (bpA p BPORT_CORRECTED) s t) ∧
        (taken → w.nak = true → ¬ down → Claims.Up (bpA p BPORT_RETRIES) s t ∧ Claims.portUp t p = true ∧
          (t.port p).replays = (if gone = 0 then k.replays else 0) + 1 ∧
          ∀ x, w.ack + 1 ≠ k.top → (k.buffer.drop gone).find? (·.seq == w.ack + 1) = some x →
            (t.port p).line = some { x with ack := k.expect, nak := false }) ∧
        (taken → down → Claims.portUp t p = false ∧ Claims.Up (bpA p BPORT_DOWNS) s t ∧ Claims.EventSent t 0x30 7)) ∧
    (s.bit (pA BILO_ID) 31 = true → Claims.portUp s p = true → Answers (.retrain port) s fun t =>
      Claims.portUp t p = false ∧ t.bit (bpA p BPORT_CONTROL) 1 = true ∧ Claims.Up (bpA p BPORT_DOWNS) s t ∧
      Claims.EventSent t 0x30 7 ∧ same t) ∧
    (∀ (partner : BitVec 14) (isSwitch : Bool), s.bit (bpA p BPORT_CONTROL) 1 = true →
      s.bit (pA BILO_ID) 31 = true →
      let clash := isSwitch = false ∧ partner.toNat = s.fld (pA BILO_ID) 13 0
      Answers (.retrainComplete port partner isSwitch) s fun t => t.bit (bpA p BPORT_CONTROL) 1 = false ∧ same t ∧
        (¬ clash → Claims.portUp t p = true ∧ t.port p = Port.reset ∧ Claims.EventSent t 0x30 8 ∧
          (isSwitch = false → t.fld (bpA p BPORT_STATUS) 29 16 = partner.toNat)) ∧
        (clash → Claims.portUp t p = false ∧ t.bit (bpA p BPORT_STATUS) 30 = false ∧ t.bit (bpA p BPORT_STATUS) 14 = true)) ∧
    ∀ (req : Requester) (value : W32), Claims.Admitted s req (pA BILO_ID) → value &&& 0x7FFFC000 = 0 →
      Answers (.biloIdWrite req value) s fun t => same t ∧
        ((∀ q, q < 8 → Claims.portUp s q = false) → t.bit (pA BILO_ID) 31 = value.getLsbD 31 ∧
          t.fld (pA BILO_ID) 13 0 = value.toNat % 16384) ∧
        ((∃ q, q < 8 ∧ Claims.portUp s q = true) → t.reg (pA BILO_ID) = s.reg (pA BILO_ID))

/-- BILO_PACKET_ARRIVAL at a port that is up: a packet for another device passes on; a request of a module at rest waits; else one
whose target the module takes goes on the package from the port's base die, another is refused, one that fails its CRC is answered
LINK; a response goes to its core, a relay becomes a crier message of TYPE 9, and a barrow's packet acts as its own command. -/
def Obligations.PacketsOfOtherModulesArrive : Prop :=
  ∀ (port : BitVec 3) (p : BiloPacket) (s : State), Claims.Running s → s.portUp port.toNat = true → p.final = true →
    (∀ q, p.dst.toNat ≠ s.ownId → s.biloPort p.dst.toNat p.srcCore.toNat = some q → Answers (.biloPacketArrival port p) s fun t =>
      t.bilo.out = s.bilo.out ++ [(q, p)] ∧ { t with bilo := s.bilo } = s) ∧
    (p.dst.toNat = s.ownId → s.host.restPhase = 1 ∨ s.host.restPhase = 3 → p.cls = 0 → Answers (.biloPacketArrival port p) s fun t =>
      t.bilo.waiting = s.bilo.waiting ++ [(port.toNat, p)] ∧ t.net = s.net ∧ t.mem = s.mem) ∧
    (p.dst.toNat = s.ownId → s.host.restPhase ≠ 1 ∧ s.host.restPhase ≠ 3 ∨ p.cls ≠ 0 →
    let die := portStack port.toNat * 64
    let a := p.addr.toNat
    (∀ size, p.crcOk = true → p.pieces = [] → (p.typ = 1 ∧ size = p.data.length ∨ p.typ = 2 ∧ size = p.len ∨ p.typ = 5 ∧
      size = p.data.length ∨
        p.typ = 4 ∧ size = p.data.length * 32 / (if p.fmt = 5 then 8 else if p.fmt = 6 then 16 else 32)) →
      (s.targetOk a size (p.typ = 4 ∨ p.typ = 5) = true → Answers (.biloPacketArrival port p) s fun t =>
        (∃ q, t.net.packets = s.net.packets ++ [q] ∧ q.typ = p.typ ∧ q.addr = p.addr ∧ q.data = p.data ∧ q.dest = ownerCore a ∧
          q.place = .router die ∧ q.port = some (port.toNat, p.src.toNat, p.srcCore.toNat, p.tag)) ∧
        { t with net := s.net } = s) ∧
      (s.targetOk a size (p.typ = 4 ∨ p.typ = 5) = false → (s.biloPort p.src.toNat p.srcCore.toNat).isSome →
        Answers (.biloPacketArrival port p) s fun t => Claims.ToldBack s t p.srcCore.toNat p 1 ∧ { t with bilo := s.bilo } = s)) ∧
    (p.crcOk = false → p.cls ≠ 1 → p.typ ≤ 5 ∨ p.typ = 9 → (s.biloPort p.src.toNat p.srcCore.toNat).isSome →
      Answers (.biloPacketArrival port p) s fun t => Claims.ToldBack s t p.srcCore.toNat p 5 ∧ { t with bilo := s.bilo } = s) ∧
    (p.crcOk = true → p.typ = 3 ∨ p.typ = 6 → p.srcCore ≠ 0x3FF ∨ p.tag ≠ 0 → Answers (.biloPacketArrival port p) s fun t =>
      (∃ q, t.net.packets = s.net.packets ++ [q] ∧ q.typ = p.typ ∧ q.dest = p.srcCore.toNat ∧ q.tag = p.tag ∧ q.data = p.data ∧
        q.status = p.status) ∧ { t with net := s.net } = s) ∧
    (p.crcOk = true → p.typ = 11 → p.subtype = 1 → Answers (.biloPacketArrival port p) s fun t =>
      (∃ m, t.net.msgs = s.net.msgs ++ [m] ∧ m.typ = 9 ∧ m.kind = 0 ∧ m.dest = a % 1024 ∧ m.arg.toNat = 1 ∧
        m.payload.toNat % 16 = p.tag.toNat % 16 ∧ m.payload.toNat / 65536 = p.src.toNat) ∧ { t with net := s.net } = s) ∧
    (p.crcOk = true → p.typ = 9 → exec (.biloPacketArrival port p) s = exec (.barrowContribution p) s) ∧
    (p.crcOk = true → p.typ = 10 → exec (.biloPacketArrival port p) s =
      exec (if p.subtype = 1 then .barrowDone p else .barrowResend p) s))

/-- BARROW_OPEN, BARROW_RETIRE and BARROW_EXCUSE: a valid entry opens with its areas zero; an open barrow with nothing pending
closes; EXCUSE sets its contributors in every segment of the generation that is not complete; other uses set ERROR. -/
def Obligations.BarrowsOpenRetireAndExcuse : Prop :=
  ∀ (req : Requester) (value : W32) (s : State), Claims.Admitted s req (pA BILO_COMMAND) → value &&& 0x00F00000 = 0 →
    s.bit (pA BILO_COMMAND) 30 = false → s.bilo.busy = none →
    let id := bits (value.setWidth 64) 19 8
    let gen : Byte := value.setWidth 8
    let ended (n : Nat) (t : State) : Prop := t.fld (pA BILO_COMMAND) 29 26 = n ∧ t.bit (pA BILO_COMMAND) 31 = false ∧
      t.bit (pA BILO_COMMAND) 30 = false
    let a := s.fld (pA BILO_BARROW_BASE) 45 20 * 0x100000 + 256 * id
    let ws := (List.range 32).map fun i => BitVec.ofNat 64 (Claims.number (s.bytes (a + 8 * i) 8))
    let b : Barrow := { id := id, words := ws, gen := BitVec.ofNat 8 (bits (ws.getD 0 0) 53 46), got := [] }
    (s.barrow id = none → (∀ i, i < 4 → Claims.CleanWord s (a + 64 * i)) → s.blocked [(a, 256)] [] = false →
      (b.ok s.ownId = true → b.local_ % 4096 = 0 → b.node % 4096 = 0 →
        s.blocked [] (b.halves b.gen ++ b.halves (b.gen + 1)) = false → Answers (.barrowOpen req value) s fun t => ended 0 t ∧
        t.bilo.barrows = s.bilo.barrows ++ [b] ∧ (∀ x, b.local_ ≤ x → x < b.local_ + 2 * b.size → t.byte x = 0) ∧
        (∀ x, b.node ≤ x → x < b.node + 2 * b.size → t.byte x = 0)) ∧
      (b.ok s.ownId = false → Answers (.barrowOpen req value) s fun t => ended 1 t ∧ t.bilo = s.bilo ∧ t.mem = s.mem)) ∧
    (s.barrow id = none → (Answers (.barrowRetire req value) s fun t => ended 2 t ∧ t.bilo = s.bilo) ∧
      Answers (.barrowExcuse req value) s fun t => ended 2 t ∧ t.bilo = s.bilo) ∧
    ∀ c, s.barrow id = some c →
      (Answers (.barrowOpen req value) s fun t => ended 2 t ∧ t.bilo = s.bilo ∧ t.mem = s.mem) ∧
      (let holds := s.blocked [] [(a, 8)]
       (s.barrowPending c = false → holds = false → Answers (.barrowRetire req value) s fun t =>
          ended 0 t ∧ ∀ x ∈ t.bilo.barrows, x.id ≠ id) ∧
        (s.barrowPending c = true ∨ holds = true → Answers (.barrowRetire req value) s fun t =>
          t.bit (pA BILO_COMMAND) 30 = true ∧ t.bilo = { s.bilo with busy := some (2, id) })) ∧
      (c.expect = 0 ∨ 1 < (gen - c.gen).toNat → Answers (.barrowExcuse req value) s fun t => ended 3 t ∧ t.segs = s.segs) ∧
      (c.expect ≠ 0 → (gen - c.gen).toNat ≤ 1 →
        (c.root = true → gen = c.gen → ∃ n, n < c.segments ∧ (Claims.segAt s c c.node gen n).delivered = false ∧
          (Claims.segAt s c c.node gen n).refused = false) →
        Answers (.barrowExcuse req value) s fun t => ended 0 t ∧ Claims.EventSent t 0x51 2 ∧ t.mem = s.mem ∧
          ∀ n, n < c.segments → (Claims.segAt t c c.node gen n).bitmap =
            if (Claims.segAt s c c.node gen n).bitmap = c.expect then c.expect
            else (Claims.segAt s c c.node gen n).bitmap ||| (s.reg (pA BILO_EXCUSE) &&& c.expect))

/-- FORWARD_LOCAL_SEGMENT, BARROW_CONTRIBUTION and NODE_COMPLETE: a filled local segment of a leaf leaves for the parent; a child's
32-bit contribution is added, saturating, to its node segment once; a complete node segment leaves for the parent; at the root it
goes to RESULT, shown for BF16 barrows of which RESULT is on this module, and one that saturated is reported, cleared and marked to
be summed again in BF16. -/
def Obligations.ContributionsClimbTheTree : Prop :=
  ∀ (s : State) (b : Barrow) (n : BitVec 14), Claims.Running s → s.barrow b.id = some b → b.id < 4096 → n.toNat < b.segments →
    let id : BitVec 12 := BitVec.ofNat 12 b.id
    (let q := Claims.segAt s b b.local_ b.gen n.toNat
     let a := Claims.segAddr b b.local_ b.gen n.toNat
     q.bitmap = b.lexpect → q.sent = false → b.expect = 0 → b.wire = 1 → s.localBlocked b b.gen n.toNat = false → Claims.CleanSeg s a →
      (s.biloPort b.parent (0x400 + b.stack)).isSome →
      Answers (.forwardLocalSegment id n b.gen) s fun t =>
        (∃ p, Claims.SentOut s t b.parent (0x400 + b.stack) p ∧ p.typ = 9 ∧ p.gen = b.gen ∧ p.contrib.toNat = b.up ∧ p.segment = n ∧
          Claims.CarriesBf16 s a p) ∧ Claims.segAt t b b.local_ b.gen n.toNat = { q with sent := true } ∧ t.mem = s.mem) ∧
    (∀ p : BiloPacket, p.barrow = id → p.segment = n →
      let q := Claims.segAt s b b.node p.gen n.toNat
      let a := Claims.segAddr b b.node p.gen n.toNat
      let told (k : Nat) (t : State) : Prop := Claims.ToldBack s t (0x400 + b.stack) p k
      let free := s.blocked [] (b.nodeSpan p.gen n.toNat) = false
      (s.biloPort p.src.toNat (0x400 + b.stack)).isSome →
      (b.expect ≠ 0 → 128 ≤ (p.gen - b.gen).toNat → Answers (.barrowContribution p) s fun t => told 4 t ∧ t.mem = s.mem ∧ t.segs = s.segs) ∧
      (b.expect ≠ 0 → 2 ≤ (p.gen - b.gen).toNat → (p.gen - b.gen).toNat < 128 → Answers (.barrowContribution p) s fun t =>
        t.bilo.held = s.bilo.held ++ [p] ∧ { t with bilo := s.bilo } = s) ∧
      (b.expect = 0 → Answers (.barrowContribution p) s fun t => told 1 t ∧ t.mem = s.mem ∧ t.segs = s.segs) ∧
      (b.expect ≠ 0 → (p.gen - b.gen).toNat ≤ 1 → free → q.bitmap.getLsbD p.contrib.toNat = true →
        Answers (.barrowContribution p) s fun t => told 0 t ∧ t.reg (pA BILO_DUP) = s.reg (pA BILO_DUP) + 1 ∧ t.mem = s.mem) ∧
      (b.expect ≠ 0 → (p.gen - b.gen).toNat ≤ 1 → free → q.bitmap.getLsbD p.contrib.toNat = false → q.fp32 = false → p.fmt = 1 →
        p.data.length = 4096 → (∀ x ∈ p.poison, x = false) → Claims.CleanSeg s a →
        Answers (.barrowContribution p) s fun t => told 0 t ∧
          (Claims.segAt t b b.node p.gen n.toNat).bitmap = q.bitmap ||| BitVec.ofNat 64 (2 ^ p.contrib.toNat) ∧
          ∀ i, i < 1024 → (Claims.fp32At t (a + 4 * i)).toInt =
            max (-2147483648) (min 2147483647 ((Claims.fp32At s (a + 4 * i)).toInt + (Claims.dataWord p i).toInt)))) ∧
    (∀ gen : Byte,
      let q := Claims.segAt s b b.node gen n.toNat
      let a := Claims.segAddr b b.node gen n.toNat
      b.expect ≠ 0 → q.bitmap = b.expect → q.sent = false → (gen - b.gen).toNat ≤ 1 →
      s.blocked ((a, 4096) :: if b.root then [(b.scales + n.toNat, 1)] else [])
        (if b.root then [(b.scales + 16384 + 4 * n.toNat, 4)] else []) = false →
      (b.root = false → b.wire = 1 → Claims.CleanSeg s a → (s.biloPort b.parent (0x400 + b.stack)).isSome →
        Answers (.nodeComplete id n gen) s fun t =>
          (∃ p, Claims.SentOut s t b.parent (0x400 + b.stack) p ∧ p.typ = 9 ∧ p.gen = gen ∧ p.contrib.toNat = b.up ∧ p.segment = n ∧
            p.max = q.maxMag ∧ Claims.CarriesBf16 s a p) ∧ Claims.segAt t b b.node gen n.toNat = { q with sent := true } ∧
          t.mem = s.mem) ∧
      (b.root = true → q.sat = true → q.fp32 = false → s.localBlocked b gen n.toNat = false → Answers (.nodeComplete id n gen) s fun t =>
        Claims.EventSent t 0x50 1 ∧ Claims.Up (pA BILO_SATURATED) s t ∧ (Claims.segAt t b b.local_ gen n.toNat).fp32 = true) ∧
      (b.root = true → b.wire = 1 → q.sat = false → b.rdev = s.fld (pA BILO_ID) 13 0 → Claims.CleanSeg s a →
        Answers (.nodeComplete id n gen) s fun t => (Claims.segAt t b b.node gen n.toNat).sent = true ∧
          ∃ p, t.net.packets = s.net.packets ++ [p] ∧ p.typ = 4 ∧ p.fmt = 7 ∧ p.gen = gen ∧ p.contrib = b.rcontrib ∧
            p.addr = BitVec.ofNat 46 (b.result + 4096 * n.toNat) ∧ p.dest = ownerCore (b.result + 4096 * n.toNat) ∧
            p.data = s.bytes a 4096))

/-- FORWARD_LOCAL_SEGMENT, BARROW_CONTRIBUTION and NODE_COMPLETE complete whatever the segments' words hold: a filled local segment
goes to the parent of a leaf, in its wire format, or into the module's own node; a child's contribution of a generation in the
window is counted and answered; a complete node segment goes to the parent or, at the root, to RESULT. -/
def Obligations.ForwarderCommandsComplete : Prop :=
  ∀ (s : State) (b : Barrow) (n : BitVec 14) (gen : Byte), Claims.Running s → s.barrow b.id = some b → b.id < 4096 →
    n.toNat < b.segments →
    let id : BitVec 12 := BitVec.ofNat 12 b.id
    let l := Claims.segAt s b b.local_ gen n.toNat
    let q := Claims.segAt s b b.node gen n.toNat
    let upward (t : State) : Prop := ∃ p, Claims.SentOut s t b.parent (0x400 + b.stack) p ∧ p.typ = 9 ∧ p.gen = gen ∧
      p.contrib.toNat = b.up ∧ p.segment = n
    (gen = b.gen → l.bitmap = b.lexpect → l.sent = false → s.localBlocked b gen n.toNat = false →
      (b.expect = 0 → (s.biloPort b.parent (0x400 + b.stack)).isSome) → Answers (.forwardLocalSegment id n gen) s fun t =>
        (Claims.segAt t b b.local_ gen n.toNat).sent = true ∧ (b.expect = 0 → upward t) ∧
        (b.expect ≠ 0 → q.fp32 = false → (Claims.segAt t b b.node gen n.toNat).bitmap.getLsbD b.self = true) ∧ t.cores = s.cores) ∧
    (∀ p : BiloPacket, p.barrow = id → p.segment = n → p.gen = gen → b.expect ≠ 0 → (gen - b.gen).toNat ≤ 1 →
      s.blocked [] (b.nodeSpan gen n.toNat) = false → (s.biloPort p.src.toNat (0x400 + b.stack)).isSome → q.fp32 = false ∨ p.fmt = 2 →
      Answers (.barrowContribution p) s fun t => (Claims.segAt t b b.node gen n.toNat).bitmap.getLsbD p.contrib.toNat = true ∧
        (Claims.ToldBack s t (0x400 + b.stack) p 0 ∨ Claims.ToldBack s t (0x400 + b.stack) p 3) ∧ t.cores = s.cores) ∧
    (b.expect ≠ 0 → q.bitmap = b.expect → q.sent = false → (gen - b.gen).toNat ≤ 1 →
      s.blocked ((Claims.segAddr b b.node gen n.toNat, 4096) :: if b.root then [(b.scales + n.toNat, 1)] else [])
        (if b.root then [(b.scales + 16384 + 4 * n.toNat, 4)] else []) = false →
      (b.root = false → (s.biloPort b.parent (0x400 + b.stack)).isSome → Answers (.nodeComplete id n gen) s fun t =>
        (Claims.segAt t b b.node gen n.toNat).sent = true ∧ upward t ∧ t.cores = s.cores) ∧
      (b.root = true → q.sat = false ∨ q.fp32 = true → b.rdev = s.fld (pA BILO_ID) 13 0 → Answers (.nodeComplete id n gen) s fun t =>
        (Claims.segAt t b b.node gen n.toNat).sent = true ∧ t.cores = s.cores ∧
        ∃ p, t.net.packets = s.net.packets ++ [p] ∧ p.typ = 4 ∧ p.gen = gen ∧
          p.addr = BitVec.ofNat 46 (b.result + 4096 * n.toNat)))

/-- BARROW_DONE, BARROW_RESEND, NODE_TIMEOUT and FORWARDER_ANSWER: the last DONE ends the generation with its scale strip written
and its token sent; a RESEND marks the segment FP32; a late node segment is reported once; an answer delivers, reports or sends
again. -/
def Obligations.GenerationsEndAndFallBack : Prop :=
  ∀ (s : State) (b : Barrow) (n : BitVec 14), Claims.Running s → s.barrow b.id = some b → b.id < 4096 →
    let id : BitVec 12 := BitVec.ofNat 12 b.id
    (∀ p : BiloPacket, p.barrow = id → p.segment = 0 → b.root = false → p.gen = b.gen → b.got = [] → b.segments ≤ 4096 →
      s.blocked [] ((b.scales, p.data.length) :: b.halves b.gen) = false →
      Answers (.barrowDone p) s fun t => (∃ c, t.barrow b.id = some c ∧ c.gen = b.gen + 1 ∧ c.got = []) ∧
        (b.dtoken ≠ 0 → ∃ m, t.net.msgs.getLast? = some m ∧ m.typ = 1 ∧ m.dest = b.dcore ∧ m.arg.toNat = b.dtoken) ∧
        (p.data.length = b.segments → (∀ i, i < b.segments → Claims.CleanWord s ((b.scales + i) / 64 * 64) ∧
            ∀ x ∈ [b.local_, b.node], b.scales + i < x ∨ x + 2 * b.size ≤ b.scales + i) →
          b.local_ % 4096 = 0 → b.node % 4096 = 0 → ∀ i, i < b.segments → t.byte (b.scales + i) = p.data.getD i 0)) ∧
    (∀ p : BiloPacket, p.barrow = id → p.segment = n → p.gen = b.gen → n.toNat < b.segments → s.localBlocked b b.gen n.toNat = false →
      let q := Claims.segAt s b b.local_ b.gen n.toNat
      q.sent = false → (b.expect ≠ 0 → b.local_ % 4096 = 0 ∧ b.node % 4096 = 0 ∧ (b.local_ + 2 * b.size ≤ b.node ∨
        b.node + 2 * b.size ≤ b.local_)) →
      Answers (.barrowResend p) s fun t => Claims.segAt t b b.local_ b.gen n.toNat = { q with fp32 := true } ∧
        (b.expect ≠ 0 → Claims.segAt t b b.node b.gen n.toNat = { Seg.reset with fp32 := true })) ∧
    (∀ gen : Byte,
      let q := Claims.segAt s b b.node gen n.toNat
      let limit := s.fld (pA BILO_TIMEOUT) 31 0
      b.expect ≠ 0 → n.toNat < b.segments → (gen - b.gen).toNat ≤ 1 → q.since ≠ 0 → q.late = false → q.bitmap ≠ b.expect →
        limit ≠ 0 → q.since + 1000 * limit ≤ (s.stack b.stack).cycles.toNat + 1 →
      Answers (.nodeTimeout id n gen) s fun t => Claims.segAt t b b.node gen n.toNat = { q with late := true } ∧
        Claims.Up (pA BILO_MISSING) s t ∧ t.bit (pA BILO_LAST) 0 = true ∧ Claims.EventSent t 0x51 1 ∧ t.mem = s.mem) ∧
    (∀ f : ForwarderAnswer, f.barrow = id → f.segment = n → b.rdev ≠ s.ownId → s.portUp f.port = true →
      (∀ x ∈ s.net.packets, x.port = none) →
      let q := Claims.segAt s b b.node f.gen n.toNat
      (f.toResult = true → f.status = 0 → f.gen ≠ b.gen → Answers (.forwarderAnswer f) s fun t =>
        Claims.segAt t b b.node f.gen n.toNat = { q with delivered := true } ∧ t.regs = s.regs ∧ t.mem = s.mem) ∧
      (f.toResult = true → f.status = 1 ∨ f.status = 4 → Answers (.forwarderAnswer f) s fun t =>
        Claims.segAt t b b.node f.gen n.toNat = { q with refused := true } ∧ Claims.EventSent t 0x51 3 ∧ t.mem = s.mem) ∧
      (f.toResult = false → f.status = 0 → Answers (.forwarderAnswer f) s fun t => { t with bilo := s.bilo } = s ∧
        (∀ x ∈ t.bilo.unanswered, ¬ (x.2.typ = 9 ∧ x.2.barrow = id ∧ x.2.segment = n ∧ x.2.gen = f.gen))) ∧
      (∀ (y : BiloPacket) (port : Nat), f.status = 2 ∨ f.status = 5 → s.bilo.unanswered = [(b.stack, y)] → y.barrow = id →
        y.segment = n → y.gen = f.gen → s.biloPort y.dst.toNat (0x400 + b.stack) = some port →
        (f.toResult = false → y.typ = 9 → Answers (.forwarderAnswer f) s fun t => t.bilo.out = s.bilo.out ++ [(port, y)] ∧
          Claims.Up (bpA port BPORT_RETRIES) s t ∧ t.mem = s.mem) ∧
        (f.toResult = true → y.typ = 4 → Answers (.forwarderAnswer f) s fun t =>
          (∃ k, t.net.packets = s.net.packets ++ [k] ∧ k.typ = 4 ∧ k.addr = y.addr ∧ k.data = y.data) ∧
          Claims.Up (bpA port BPORT_RETRIES) s t ∧ t.mem = s.mem)))

/-- The core controllers and the package controller (R409 to R423). -/
def Obligations.InterruptControllersRuleTheirSources : Prop :=
  Clauses.ControllersClaimEndAndReset ∧
    Clauses.SourcesAreRaisedAndWithdrawn

/-- CONFIG_REQUEST, HOST_READ, HOST_WRITE and HOST_HOLD_LIMIT: requests before READY are retried; reads of committed scratchpad
bytes complete with them, in D3hot as unsupported, of no region as zeros, counted; writes that nothing holds store their bytes,
poisoned where EP is set, and wait in order where the module rests; a read held beyond the limit aborts. -/
def Obligations.HostAccessesComplete : Prop :=
  ∀ s : State,
    (∀ r : ConfigReq, s.warden.stopped ≠ 2 → s.warden.pins.perst = false → Answers (.configRequest r) s fun t =>
      t.mem = s.mem ∧ t.cores = s.cores ∧ t.regs = s.regs ∧
      (s.bit (pA BRG_STATUS) 31 = false → Claims.Completes s t r.tag .retry []) ∧
      (s.bit (pA BRG_STATUS) 31 = true → r.write = true → Claims.Completes s t r.tag .successful []) ∧
      (s.bit (pA BRG_STATUS) 31 = true → r.write = false → ∃ bs, bs.length = 4 ∧ Claims.Completes s t r.tag .successful bs ∧
        (r.offset = Config.rebarOffset → 20 ≤ s.host.bar2Log → s.host.bar2Log ≤ 46 →
          Claims.number bs / 256 % 64 = s.host.bar2Log - 20))) ∧
    (∀ (tag n : Nat) (c : CoreId) (off : Nat),
      let a := Claims.spAddr c off
      Claims.Running s → s.hostOpen = true → Claims.NoneWaiting s → s.host.bar2Log = 46 → 0 < n → a % 4096 + n ≤ 4096 →
      off < 0x200000 → Claims.SpServed s c →
      (s.uncommitted a (a + n) = false → s.pitchGap c.toNat 5 off n false = none → Claims.NoError s a n →
        Answers (.hostRead tag true a n []) s fun t => Claims.Completes s t tag .successful (s.bytes a n) ∧ t.mem = s.mem ∧
          t.cores = s.cores) ∧
      (s.uncommitted a (a + n) = true → Answers (.hostRead tag true a n []) s fun t => (∃ x ∈ t.host.holds, x.1 = tag) ∧
        t.host.completions = s.host.completions ∧ t.mem = s.mem) ∧
      (∀ data : List Byte, data.length = n → n ≤ 512 → s.pitchGap c.toNat 5 off n true = none → Claims.NoError s a n →
        (Answers (.hostWrite true a data false []) s fun t =>
          (∀ x, t.byte x = if a ≤ x ∧ x < a + n then data.getD (x - a) 0 else s.byte x) ∧ (∀ x, t.spMarkAt x = s.spMarkAt x) ∧
          ∀ d, t.core d = { s.core d with tally := (t.core d).tally }) ∧
        (a % 8 = 0 → n % 8 = 0 → Answers (.hostWrite true a data true []) s fun t =>
          (∀ x, t.byte x = if a ≤ x ∧ x < a + n then 0 else s.byte x) ∧
          ∀ x, x % 8 = 0 → t.spMarkAt x = if a ≤ x ∧ x < a + n then 1 else s.spMarkAt x))) ∧
    (∀ (tag n off : Nat), s.linkUp = true → s.inWindow true off n = true → Claims.NoneWaiting s →
      (s.host.d3hot = true → Answers (.hostRead tag true off n []) s fun t => Claims.Completes s t tag .unsupported [] ∧ t.mem = s.mem) ∧
      (Claims.Running s → s.hostOpen = true → classify (s.bar2Addr off) = .nothing → Answers (.hostRead tag true off n []) s fun t =>
        Claims.Completes s t tag .successful (List.replicate n 0) ∧ Claims.Up (pA HIF_UNMAPPED) s t ∧
        t.bit (pA HIF_STATUS) 12 = true ∧ t.mem = s.mem)) ∧
    (∀ (data : List Byte) (off : Nat), s.linkUp = true → s.hostOpen = false → s.host.d3hot = false → Claims.NoneWaiting s →
      s.inWindow true off data.length = true → data.length ≤ 512 → Answers (.hostWrite true off data false []) s fun t =>
        (∃ w, t.host.posted = [w] ∧ w.data = data ∧ w.addr = s.bar2Addr off) ∧ t.mem = s.mem ∧ t.cores = s.cores) ∧
    (∀ (data : List Byte) (off : Nat), s.hostOpen = true → Claims.NoneWaiting s → 0x1000000 ≤ off → off + data.length ≤ 0x1180000 →
      0 < data.length → data.length ≤ 512 → off % 4096 + data.length ≤ 4096 → Answers (.hostWrite false off data false []) s fun t =>
        t.bar0 off data.length = data ∧ t.mem = s.mem ∧ t.regs = s.regs ∧ t.cores = s.cores) ∧
    ∀ tag : Nat, s.fld (pA HIF_HOLD_LIMIT) 31 0 ≠ 0 → (∃ x ∈ s.host.holds, x.1 = tag) → s.linkUp = true →
      Answers (.hostHoldLimit tag) s fun t => Claims.Completes s t tag .abort [] ∧ (∀ x ∈ t.host.holds, x.1 ≠ tag) ∧
        Claims.Up (pA HIF_ABORTS) s t ∧ t.bit (pA HIF_STATUS) 11 = true ∧ t.mem = s.mem ∧ t.cores = s.cores

/-- The queues of the host interface (R395 to R401). -/
def Obligations.QueuesLaunchTheirEntries : Prop :=
  Clauses.QueuesTakeTheirDoorbells ∧
    Clauses.LaunchesStartAndComplete

/-- MSIX_UNMASK and Rest: a pending vector's message leaves once it is unmasked; entry by command is refused while a queue holds an
entry, entry through D3hot is not; its end rests the cores that are On; a wake ends with them On and the demands 0. -/
def Obligations.TheModuleRestsAndWakes : Prop :=
  ∀ s : State,
    (∀ v : BitVec 11, s.hostOpen = true → v.toNat ∈ s.host.pba → Answers (.msixUnmask v) s fun t =>
      v.toNat ∉ t.host.pba ∧ (∃ m, t.host.msix = s.host.msix ++ [m] ∧ m.1 = v.toNat) ∧ t.mem = s.mem ∧ t.regs = s.regs ∧
      t.cores = s.cores) ∧
    (∀ req : Requester, Claims.Admitted s req (pA HIF_REST) → s.host.restPhase = 0 →
      let busy := s.host.launches ≠ [] ∨ ∃ q, q < 64 ∧ s.fld (qA q Q_TAIL) 7 0 ≠ s.fld (qA q Q_HEAD) 7 0
      (¬ busy → Answers (.restEnter req) s fun t => t.host.restPhase = 2 ∧ t.bit (pA HIF_REST) 0 = true ∧ t.cores = s.cores ∧
        t.mem = s.mem) ∧
      (busy → Answers (.restEnter req) s fun t => t.host.restPhase = 0 ∧ t.bit (pA HIF_REST) 1 = true ∧ t.cores = s.cores ∧
        t.mem = s.mem)) ∧
    (s.linkUp = true → Answers .d3hotEntry s fun t => t.host.d3hot = true ∧ (s.host.restPhase = 0 → t.host.restPhase = 2) ∧
      { t with host := s.host } = s) ∧
    (Claims.Running s → s.host.restPhase = 2 → s.quiet = true → Answers .restEntryEnd s fun t =>
      t.host.restPhase = (if s.host.turn then 3 else 1) ∧ ((∀ p ∈ s.cores, p.2.power ≠ 1) → t.mem = s.mem) ∧
      (∀ c, c < 1024 → (s.core c).power = 2 → smWf Core.reset s.cores = true → t.core c = (s.core c).rest ∧
        t.fld (cA c CORE_STATE) 1 0 = 3)) ∧
    (∀ w : WakeTrigger, Claims.Running s → s.host.restPhase = 1 → (w = .hostAccess → s.host.d3hot = false) →
      Answers (.wake w) s fun t => t.host.restPhase = 3 ∧ (w = .d0 → t.host.d3hot = false) ∧ t.cores = s.cores ∧ t.mem = s.mem) ∧
    (Claims.Running s → s.host.restPhase = 3 → s.host.posted = [] → s.bilo.waiting = [] → Answers .wakeComplete s fun t =>
      t.host.restPhase = (if s.host.turn then 2 else 0) ∧ t.bit (pA HIF_REST) 0 = false ∧
      t.warden.power.dem = [] ∧ t.mem = s.mem ∧ (∀ st, st < 16 → (t.stack st).thermal.benchDem = [] ∧ (t.stack st).thermal.coreDem = []) ∧
      ∀ c, c < 1024 → (s.core c).power = 3 → smWf Core.reset s.cores = true → t.core c = { s.core c with power := 2 } ∧
        t.fld (cA c CORE_STATE) 1 0 = 2)

/-- REGISTER_WRITE and REGISTER_READ: an offset that no register occupies, and an access off a register's width, have no effect and
read zero; a write that gives a reserved field a value other than zero stops with the fault of that name (R12: what the module does
is not defined); RW, W1C and RC fields keep their codes; halves take effect together. ICC_ENABLE, CORE_SP_STARVE and EVT_DROPPED
stand for the registers of each code. That a lone high half changes its half only is R9's. -/
def Obligations.RegistersTakeTheirAccesses : Prop :=
  ∀ (req : Requester) (c : CoreId) (s : State),
    (∀ (a : Addr) (size : Nat) (v : W64) (tag : Nat), s.accessible req a.toNat = true →
      ((findReg a.toNat = none ∧ ∀ off, regionOf a.toNat = some (.package, 0, off) → ¬ Claims.inBuffer off) ∨
        (∃ h, findReg a.toNat = some h ∧ ¬ Claims.Fits h a.toNat size)) →
      exec (.registerWrite req a size v) s = .next (Claims.heard s req) ∧
        Answers (.registerRead req tag a size) s fun t => Claims.Told s t req tag (List.replicate size 0) ∧
          t.regs = s.regs ∧ t.halves = (Claims.heard s req).halves) ∧
    (let a := cA c.toNat ICC_ENABLE
     let addr : Addr := BitVec.ofNat 46 a
     let high : Addr := BitVec.ofNat 46 (a + 4)
     2 ≤ (s.core c.toNat).power →
      (Claims.Admitted s req a → ∀ v : W64,
        (v.getLsbD 0 = false → Answers (.registerWrite req addr 8 v) s fun t => t.reg a = v ||| (s.reg a &&& 1) ∧
          (∀ x, x ≠ a → t.reg x = s.reg x) ∧ { t with regs := s.regs, halves := s.halves } = s) ∧
        (v.getLsbD 0 = true → exec (.registerWrite req addr 8 v) s = .fault .reservedFieldWritten) ∧
        (v.getLsbD 0 = false → Answers (.registerWrite req addr 4 v) s fun t => Claims.holds t req a false (v.setWidth 32) ∧
          t.regs = s.regs ∧ { t with halves := s.halves } = s) ∧
        (∀ low : W32, Claims.holds s req a false low → low.getLsbD 0 = false → Answers (.registerWrite req high 4 v) s fun t =>
          t.reg a = (low.setWidth 64 ||| (v <<< 32)) ||| (s.reg a &&& 1) ∧ Claims.NoHalf t req ∧ t.cores = s.cores) ∧
        (Claims.NoHalf s req → Answers (.registerWrite req high 4 v) s fun t =>
          t.reg a = (s.reg a &&& 0xFFFFFFFF) ||| (v <<< 32) ∧ Claims.NoHalf t req ∧ t.cores = s.cores)) ∧
      (Claims.Readable s req a → ∀ tag : Nat,
        Answers (.registerRead req tag addr 8) s (fun t => Claims.Told s t req tag (leBytes 8 (s.reg a).toNat) ∧ t.regs = s.regs) ∧
        Answers (.registerRead req tag addr 4) s (fun t => Claims.Told s t req tag (leBytes 4 (s.reg a).toNat) ∧ t.regs = s.regs ∧
          Claims.holds t req a true ((s.reg a >>> 32).setWidth 32)) ∧
        ∀ cap : W32, Claims.holds s req a true cap → Answers (.registerRead req tag high 4) s fun t =>
          Claims.Told s t req tag (leBytes 4 cap.toNat) ∧ t.regs = s.regs ∧ Claims.NoHalf t req)) ∧
    (let a := cA c.toNat CORE_SP_STARVE
     Claims.Admitted s req a → 2 ≤ (s.core c.toNat).power → ∀ v : W64, v &&& 0xFFFE0000 = 0 →
      Answers (.registerWrite req (BitVec.ofNat 46 a) 4 v) s fun t => t.fld a 15 0 = v.toNat % 65536 ∧
        t.bit a 16 = (s.bit a 16 && !v.getLsbD 16) ∧ t.mem = s.mem ∧ t.cores = s.cores ∧ t.net = s.net ∧
        (s.bit a 16 = true → v.getLsbD 16 = true → t.bit (cA c.toNat ICC_PENDING) 5 = false)) ∧
    (let a := pA EVT_DROPPED
     Claims.Readable s req a → ∀ tag : Nat, Answers (.registerRead req tag (BitVec.ofNat 46 a) 4) s fun t =>
       Claims.Told s t req tag (leBytes 4 (s.reg a).toNat) ∧ t.fld a 31 0 = 0 ∧ ∀ x, x ≠ a → t.reg x = s.reg x)

/-- After reset the registers hold what their tables give: cores Off with STATUS 0x01, pitches and priorities as R102 and R410 give
them, PWR_CAP 1,100 W; no memory is listed, nothing waits and nothing is in flight, and the invariants of the steps hold. The reset
values of general registers, of what bring-up sets and of flash are log entries 1 and 2's and not said here. -/
def Obligations.ResetHoldsTheTablesValues : Prop :=
  let s := State.reset
  (∀ c : CoreId, (s.core c.toNat).power = 0 ∧ (s.core c.toNat).status = 1 ∧ (s.core c.toNat).tally = [] ∧
    (s.core c.toNat).run = .idle ∧ (s.core c.toNat).e0 = Engine.reset ∧ s.fld (cA c.toNat CORE_CLOCK) 2 0 = 7 ∧
    s.fld (cA c.toNat CORE_CLOCK) 26 16 = 400 ∧ s.fld (cA c.toNat CORE_SP_STARVE) 15 0 = 0x1000 ∧
    (∀ t : BitVec 4, Claims.counter s c t = 0) ∧ s.reg (cA c.toNat ICC_ENABLE) = 0xFFFF0000000007FE) ∧
    s.fld (pA PWR_CAP) 10 0 = 1100 ∧ s.reg (pA BRG_STATUS) = 0 ∧ s.mem = [] ∧ s.net.packets = [] ∧ s.net.msgs = [] ∧
    s.pending = [] ∧ s.warden.stopped = 0 ∧ s.warden.pins.perst = true ∧ Memory.wf s.mem ∧ Claims.SlotsOnce s

/-- Every command and every tick keeps the canonical form of the module's memory. -/
def Obligations.EveryStepKeepsMemoryCanonical : Prop :=
  ∀ s t : State, step s = .next t → Memory.wf s.mem → Memory.wf t.mem

/-- What every command keeps (R199, R482, R487): the slots of tallies, the order of the queue, the fuses and the count of boots. -/
def Obligations.EveryStepKeepsTallyQueueAndFuses : Prop :=
  Clauses.EveryStepKeepsTallySlots ∧
    Clauses.EveryStepKeepsQueueAndFuses

/-- STEP_EVALUATION, VOLTAGE_UPDATE and FREQUENCY_COMMAND: each core's commanded step is the largest of its demands, a domain above
its limit and a module above its cap raise theirs by one step, VLG's target is the voltage of the lowest step, the regulators move
by the sensed error within their limits, and a frequency is commanded once the sensed target allows it. In recovery the first two do
nothing. -/
def Obligations.StepsFollowTheDemands : Prop :=
  ∀ (st : StackId) (s : State), Claims.Running s →
    let u := st.toNat
    let recovery := s.bit (pA SEC_STATUS) 6
    (recovery = true → ∀ (r : PowerReadings) (x : StackSensors),
      exec (.stepEvaluation st r) s = .next s ∧ exec (.voltageUpdate st x) s = .next s) ∧
    (recovery = false → ∀ r : PowerReadings, Answers (.stepEvaluation st r) s fun t =>
      (∀ c, c / 64 = u → Claims.Clocked s c → (∀ d ∈ t.demands c, d ≤ 7) →
        t.fld (cA c CORE_CLOCK) 10 8 = (t.demands c).foldl max 0 ∧ t.fld (cA c CORE_CLOCK) 2 0 = s.fld (cA c CORE_CLOCK) 2 0) ∧
      (∀ n, Claims.LowestStep t u n → t.fld (sA u SPWR_STATUS) 31 16 = stepMv n ∧ t.fld (sA u SPWR_STATUS) 2 0 = n) ∧
      (s.fld (pA PWR_LIMIT + 4 * (4 + u)) 15 0 < Claims.current r (4 + u) → smGet 0 s.warden.power.dem (4 + u) ≤ 7 →
        t.fld (sA u SPWR_CEIL) 2 0 = min (smGet 0 s.warden.power.dem (4 + u) + 1) 7) ∧
      (u = 0 → ((s.stack 0).thermal.evals + 1) % 20 = 0 → 1000 * s.fld (pA PWR_CAP) 10 0 < r.inputAvg →
        t.fld (pA PWR_STATUS) 2 0 = min (s.fld (pA PWR_STATUS) 2 0 + 1) 7) ∧
      (t.stack u).thermal.evals = (s.stack u).thermal.evals + 1 ∧ t.mem = s.mem ∧ t.cores = s.cores) ∧
    (recovery = false → ∀ r : StackSensors, Answers (.voltageUpdate st r) s fun t => t.mem = s.mem ∧ t.cores = s.cores ∧
      (∀ low, Claims.Least (r.vlg.filter fun x => s.islandOn u x.1) low → t.fld (sA u SPWR_MIN_MV) 15 0 = low % 65536 ∧
        smGet 0 t.warden.power.out (4 + u) = Claims.within (-50) 300 (smGet 0 s.warden.power.out (4 + u) +
          Claims.within (-25) 25 ((s.fld (sA u SPWR_STATUS) 31 16 : Int) - low))) ∧
      ((∀ x ∈ r.vlg, s.islandOn u x.1 = false) → t.fld (sA u SPWR_MIN_MV) 15 0 = s.fld (sA u SPWR_MIN_MV) 15 0 ∧
        smGet 0 t.warden.power.out (4 + u) = smGet 0 s.warden.power.out (4 + u)) ∧
      ∀ low, u % 4 = 0 → Claims.Least (r.vma.map (0, ·)) low → smGet 0 t.warden.power.out (u / 4) = Claims.within (-60) 60
        (smGet 0 s.warden.power.out (u / 4) + Claims.within (-25) 25 (1050 - (low : Int)))) ∧
    ∀ c : CoreId, c.toNat / 64 = u →
      let a := cA c.toNat CORE_CLOCK
      let n := s.fld a 10 8
      let sensed := ((s.stack u).thermal.oldTarget).getD (s.fld (sA u SPWR_STATUS) 31 16)
      (Claims.Clocked s c.toNat → s.fld a 2 0 ≠ n → stepMv n ≤ sensed → Answers (.frequencyCommand c) s fun t =>
        t.fld a 2 0 = n ∧ t.fld a 26 16 = stepMhz n ∧ t.fld a 10 8 = n ∧ t.mem = s.mem ∧ t.cores = s.cores) ∧
      (¬ Claims.Clocked s c.toNat ∨ s.fld a 2 0 = n ∨ sensed < stepMv n → exec (.frequencyCommand c) s = .next s)

/-- Droops (R427), telemetry and time (R443, R444), and the registers of R432 and R439. -/
def Obligations.DroopsFramesAndPowerRegisters : Prop :=
  Clauses.DroopsStretchTheClock ∧
    Clauses.FramesCarryTheTime ∧
    Clauses.PowerRegistersTakeTheirWrites

/-- SENSOR_READ of any readings below the trip limits, with no prediction about to trip, completes: a bench shows the highest of its
sensors; at 95 °C every vault of the stack refreshes it at rate 2, at 90 °C it is marked, and every vault's NB_THROTTLE shows the
marks. A bench whose sensors are suspect is taken by its prediction. A core at 110 °C, or else a bench whose sensors are not suspect
at 100 °C, trips; in recovery nothing is done. -/
def Obligations.SensorsSetRatesAndMarks : Prop :=
  ∀ (st : StackId) (r : StackSensors) (s : State), Claims.Running s →
    let u := st.toNat
    let recovery := s.bit (pA SEC_STATUS) 6
    let hotCore := ∃ x ∈ r.cores, 440 ≤ x.2
    let hotBench := ∃ x ∈ r.benches, 400 ≤ x.2.2 ∧ s.bit (sA u STHM_SUSPECT) x.1 = false
    let tripped (kind : Nat) (t : State) : Prop := t.bit (pA THM_TRIP) 31 = true ∧ t.fld (pA THM_TRIP) 30 29 = kind ∧
      t.fld (pA THM_TRIP) 28 25 = u ∧ t.warden.pins.thermtrip = true ∧ t.warden.stopped = 2 ∧ t.mem = s.mem
    (recovery = true → exec (.sensorRead st r) s = .next s) ∧
    (recovery = false → hotCore → Answers (.sensorRead st r) s (tripped 0)) ∧
    (recovery = false → ¬ hotCore → hotBench → Answers (.sensorRead st r) s (tripped 1)) ∧
    (recovery = false → ¬ hotCore → ¬ hotBench → (∀ b, b < 16 → smGet 0 (s.stack u).thermal.trips b < 9) →
     Answers (.sensorRead st r) s fun t => t.mem = s.mem ∧ t.cores = s.cores ∧ t.warden.stopped = 0 ∧
      (∀ v, v < 64 → t.fld (vA (u * 64 + v) NB_THROTTLE) 15 0 = t.fld (sA u STHM_MARKS) 15 0) ∧
      ∀ b x, b < 16 → Claims.Highest r b x → -32768 ≤ x → x < 32768 →
        (BitVec.ofNat 16 (t.fld (sA u STHM_BENCH + 4 * b) 15 0)).toInt = x ∧
        (t.bit (sA u STHM_SUSPECT) b = false →
          (360 ≤ x → t.bit (sA u STHM_MARKS) b = true) ∧
          (380 ≤ x → (∀ v, v < 64 → s.fld (vA (u * 64 + v) VC_BENCH_RATE) (2 * b + 1) (2 * b) =
              s.fld (vA (u * 64) VC_BENCH_RATE) (2 * b + 1) (2 * b)) →
            ∀ v, v < 64 → t.fld (vA (u * 64 + v) VC_BENCH_RATE) (2 * b + 1) (2 * b) = 2)))

/-- COOLANT_READ and THERMAL_TRIP: the coolant demand rises to 7 or 3 after its second out of range and falls to 0 after ten within
it; a temperature at its limit asserts THERMTRIP#, is recorded, stops every island and turns the regulators off, without a save, an
event or a change of memory; one below does nothing. -/
def Obligations.CoolantAndTripsProtectTheModule : Prop :=
  ∀ s : State, s.warden.stopped ≠ 2 →
    (∀ r : CoolantReadings, let p := s.warden.power
      (s.bit (pA SEC_STATUS) 6 = true → exec (.coolantRead r) s = .next s) ∧
      (s.bit (pA SEC_STATUS) 6 = false → Answers (.coolantRead r) s fun t => t.fld (pA THM_COOLANT_T) 15 0 = (BitVec.ofInt 16 r.inlet).toNat ∧
        t.fld (pA THM_COOLANT_T) 31 16 = (BitVec.ofInt 16 r.outlet).toNat ∧ t.fld (pA THM_COOLANT_F) 15 0 = r.flow % 65536 ∧
        t.fld (pA THM_COOLANT_F) 31 16 = r.drop % 65536 ∧ t.mem = s.mem ∧ t.cores = s.cores ∧
        (180 < r.inlet ∨ r.flow < 200 → 99 ≤ p.cool7 → t.fld (pA PWR_STATUS) 6 4 = 7) ∧
        (160 < r.inlet ∨ r.flow < 300 → ¬ (180 < r.inlet ∨ r.flow < 200) → 99 ≤ p.cool3 → t.fld (pA PWR_STATUS) 6 4 = 3) ∧
        (60 ≤ r.inlet → r.inlet ≤ 160 → 300 ≤ r.flow → r.drop ≤ 600 → 999 ≤ p.cool0 → t.fld (pA PWR_STATUS) 6 4 = 0) ∧
        (r.inlet < 60 → p.cold = false → Claims.EventSent t 0x20 0x0A))) ∧
    ∀ (st : StackId) (kind : BitVec 2) (n : BitVec 9) (temp : W16),
      let limit : Int := if kind = 0 then 440 else 400
      (temp.toInt < limit → exec (.thermalTrip st kind n temp) s = .next s) ∧
      (limit ≤ temp.toInt → Answers (.thermalTrip st kind n temp) s fun t =>
      let a := pA THM_TRIP
      t.bit a 31 = true ∧ t.fld a 30 29 = kind.toNat ∧ t.fld a 28 25 = st.toNat ∧ t.fld a 24 16 = n.toNat ∧
        t.fld a 15 0 = temp.toNat ∧ (∀ x, x ≠ a → t.reg x = s.reg x) ∧ t.warden.pins.thermtrip = true ∧ t.warden.stopped = 2 ∧
        t.warden.power.off = true ∧ t.warden.save = s.warden.save ∧ t.warden.flash = s.warden.flash ∧ t.mem = s.mem ∧
        t.net.msgs = [])

/-- The bring-up steps (R453 to R466): when each runs and what it builds. -/
def Obligations.BringUpRunsAndBuilds : Prop :=
  Clauses.BringUpRunsItsStepsInOrder ∧
    Clauses.BringUpBuildsTheMachine

/-- The resets of BRG_RESET (R470 to R476). -/
def Obligations.ResetsDropAndReturnTheirCores : Prop :=
  Clauses.ResetsDropTheirCores ∧
    Clauses.ResetsEndOnceDrained

/-- REPAIR_RECORD_WRITE and RETIRED_CURRENT_CHECK: the defects in force become the record in the copy that was not, with the next
SEQ and the identity's signature, unless they have not changed; one without room sets FULL and raises its event. A retired island's
current has its gate asserted again and raises its event at most once per second. -/
def Obligations.RepairRecordsAreWritten : Prop :=
  ∀ s : State,
    (∀ d : Nat, s.warden.stopped ≠ 2 → s.warden.identity = some d →
      let old := s.recordNow
      let es := s.warden.defects
      let held := s.recordIn = true
      let full := 131056 < es.length ∨ (held ∧ old.seq = 0xFFFFFFFF)
      (held → es = old.entries → exec .repairRecordWrite s = .next s) ∧
      ((held → es ≠ old.entries) → ¬ full → Answers .repairRecordWrite s fun t =>
        (∃ x : RepairRecord, x.magic = 0x52455041 ∧ x.entries = es ∧ x.serial = Config.serial ∧
          x.seq = (if s.recordIn then old.seq + 1 else 1) ∧ x.sig = sigBytes d x.body ∧
          (if s.recordIn = true ∧ s.warden.flash.recordA = old then t.warden.flash.recordB = x ∧ t.warden.flash.recordA = old
            else t.warden.flash.recordA = x ∧ t.warden.flash.recordB = s.warden.flash.recordB) ∧
          t.fld (pA BRG_RECORD_SEQ) 31 0 = x.seq.toNat) ∧ t.bit (pA BRG_RECORD) 31 = true ∧
        t.fld (pA BRG_RECORD) 17 0 = es.length ∧ t.net = s.net ∧ t.mem = s.mem) ∧
      ((held → es ≠ old.entries) → full → Answers .repairRecordWrite s fun t => t.warden.flash = s.warden.flash ∧
        t.bit (pA BRG_RECORD) 29 = true ∧ Claims.EventSent t 0x30 0x0A ∧ t.mem = s.mem)) ∧
    ∀ (st : StackId) (x : Nat) (above : Bool), Claims.Running s →
      let u := st.toNat
      let last := smGet 0 s.warden.gateAt (u * 72 + x)
      let dead := x < 72 ∧ u * 72 + x ∈ s.warden.retired
      let due := last = 0 ∨ last - 1 + 1000000000 ≤ s.now.toNat
      (dead → above = true → ¬ due → Answers (.retiredCurrentCheck st x above) s fun t => u * 72 + x ∈ t.warden.gated ∧
        t.net = s.net ∧ t.regs = s.regs ∧ t.mem = s.mem) ∧
      (dead → above = true → due → Answers (.retiredCurrentCheck st x above) s fun t => u * 72 + x ∈ t.warden.gated ∧
        Claims.EventSent t 0x31 3 ∧ smGet 0 t.warden.gateAt (u * 72 + x) = s.now.toNat + 1 ∧ t.regs = s.regs ∧ t.mem = s.mem ∧
        t.cores = s.cores) ∧
      (¬ dead ∨ above = false → exec (.retiredCurrentCheck st x above) s = .next s)

/-- PACKAGE_RESET and WARDEN_BOOT: a package reset leaves flash, MRAM and THM_TRIP and puts everything else at its reset value,
unless a save waits to run; the boot with both inputs present and PWRGD_IN asserted advances the count of boots, saturating, in both
its copies, and sets READY; without an identity, for a 128-bit group of the PUF response with more than 25 bit errors, or a
configuration it says so, and without a configuration it enters recovery. -/
def Obligations.PackageResetAndBoot : Prop :=
  ∀ s : State,
    (s.warden.save = 0 ∨ s.warden.stopped = 2 → Answers .packageReset s fun t => t.mem = [] ∧ t.cores = [] ∧ t.vaults = [] ∧
      t.net.packets = [] ∧ t.net.msgs = [] ∧ t.valid = [] ∧ t.warden.flash = s.warden.flash ∧ t.warden.pins.perst = true ∧
      t.host.launches = [] ∧ t.reg (pA THM_TRIP) = s.reg (pA THM_TRIP) ∧
      (∀ a, a ≠ pA THM_TRIP → t.reg a = State.reset.reg a) ∧ t.pending = s.pending ∧
      t.warden.pins.vaux = s.warden.pins.vaux ∧ t.warden.pins.pwrgdIn = s.warden.pins.pwrgdIn ∧ t.warden.pins.shutterDone = false ∧
      t.warden.pins.thermtrip = (s.warden.pins.thermtrip && !s.warden.hot.isEmpty)) ∧
    (s.warden.save ≠ 0 → s.warden.stopped ≠ 2 → exec .packageReset s = .next s) ∧
    ∀ b : BootFinds,
      let ready := s.warden.booted = false ∧ Claims.Running s ∧ s.warden.pins.vaux = true ∧ s.warden.pins.pwrgdIn = true
      (ready → b.ends = false → Answers (.wardenBoot b) s fun t => t.warden.pins.perst = false ∧ t.warden.booted = false ∧
        t.warden.flash = s.warden.flash ∧ { t with warden := s.warden } = s) ∧
      (ready → b.ends = true → Answers (.wardenBoot b) s fun t =>
        let n := max s.warden.flash.bootCount.toNat s.warden.flash.bootCountB.toNat
        t.bit (pA BRG_STATUS) 31 = true ∧ t.warden.booted = true ∧ t.warden.pins.perst = false ∧
        t.warden.flash.bootCount.toNat = min (n + 1) (2 ^ 32 - 1) ∧ t.warden.flash.bootCountB = t.warden.flash.bootCount ∧
        t.fld (pA SEC_BOOTCOUNT) 31 0 = t.warden.flash.bootCount.toNat ∧
        t.fld (pA HIF_STATUS) 7 5 = b.speed.toNat ∧ t.bit (pA HIF_STATUS) 4 = b.flit ∧ t.fld (pA HIF_STATUS) 3 0 = b.width.toNat ∧
        ((∃ n ∈ b.pufErrors, 25 < n) → t.bit (pA SEC_STATUS) 4 = true ∧ t.warden.identity = none ∧ Claims.EventSent t 0x80 5 ∧
          t.bit (pA BRG_RECORD) 30 = true ∧ Claims.EventSent t 0x80 0x21) ∧
        (s.cfgValid s.warden.flash.configA = false → s.cfgValid s.warden.flash.configB = false →
          t.bit (pA SEC_STATUS) 6 = true ∧ Claims.EventSent t 0x80 0x22 ∧ Claims.EventSent t 0x80 2 ∧
          t.warden.stewardOk = s.warden.stewardOk) ∧ t.cores = s.cores) ∧
      (¬ ready → exec (.wardenBoot b) s = .next s)

/-- Attestation, measurements and updates (R486, R488, R493). -/
def Obligations.ReportsAndUpdatesAreGuarded : Prop :=
  Clauses.ReportsAndMeasurements ∧
    Clauses.UpdatesLeaveTheActiveCopy

/-- CHALLENGE, SUBMIT, RELOCK and NONCE_LAPSE: a challenge draws a nonce; every SUBMIT spends it; a grant without one, with another
nonce or for another key is refused by the first reason that applies; one with no reason against it sets its scope, and scope 3
erases the signer and stops the islands; RELOCK locks. -/
def Obligations.GrantsOpenTheDebugLock : Prop :=
  ∀ (req : Requester) (s : State),
    (Claims.Admitted s req (pA DBG_CONTROL) →
      let g := s.bytes (pA 0x80100) 176
      let scope := Claims.number ((g.drop 4).take 4)
      let nonce := s.bit (pA DBG_STATUS) 2 = true
      let same := (g.drop 16).take 32 = s.bytes (pA 0x80020) 32
      (Answers (.challenge req) s fun t => t.bit (pA DBG_STATUS) 2 = true ∧ t.warden.draws = s.warden.draws + 1 ∧
        Claims.number (t.bytes (pA 0x80020) 32) = (Config.random s.warden.draws).toNat ∧
        (∀ x, x < pA 0x80020 ∨ pA 0x80040 ≤ x → t.byte x = s.byte x) ∧ t.fld (pA DBG_STATUS) 1 0 = s.fld (pA DBG_STATUS) 1 0) ∧
      (¬ nonce → Answers (.submit req) s fun t => Claims.GrantRefused s t 1) ∧
      (nonce → ¬ same → Answers (.submit req) s fun t => Claims.GrantRefused s t 2) ∧
      (nonce → same → s.warden.identity = none ∨ s.bit (pA SEC_STATUS) 4 = true → Answers (.submit req) s fun t =>
        Claims.GrantRefused s t 3) ∧
      (s.grantReason g = 0 → Answers (.submit req) s fun t => nonce ∧ same ∧ 1 ≤ scope ∧ scope ≤ 3 ∧
        t.fld (pA DBG_STATUS) 1 0 = scope ∧ t.bit (pA DBG_STATUS) 2 = false ∧ t.bit (pA DBG_STATUS) 3 = true ∧
        t.fld (pA DBG_EXPIRY) 31 0 = Claims.number ((g.drop 8).take 4) ∧ Claims.EventSent t 0x80 0x10 ∧
        (scope < 3 → t.warden.flash.grant = some ⟨g⟩ ∧ t.warden.stopped = s.warden.stopped) ∧
        (scope = 3 → t.warden.identity = none ∧ t.warden.cdi1 = none ∧ t.warden.cdi2 = none ∧ t.bit (pA SEC_STATUS) 5 = true ∧
          1 ≤ t.warden.stopped ∧ t.warden.flash.grant = none)) ∧
      (Answers (.relock req) s fun t => t.fld (pA DBG_STATUS) 1 0 = 0 ∧ t.warden.flash.grant = none ∧
        Claims.EventSent t 0x80 0x12 ∧ t.mem = s.mem ∧ t.cores = s.cores)) ∧
    (s.warden.stopped ≠ 2 → Answers .nonceLapse s fun t => t.bit (pA DBG_STATUS) 2 = false ∧
      (∀ a, a ≠ pA DBG_STATUS → t.reg a = s.reg a) ∧ { t with regs := s.regs } = s)

/-- Debug accesses and the control of a halted core (R489, R492, R496). -/
def Obligations.DebugAccessesNeedTheirScope : Prop :=
  Clauses.DebugAccessesNeedScopeAndPitch ∧
    Clauses.HaltedCoresStepAndTakeWrites

/-- INPUT_OUT_OF_RANGE, PWRGD_IN_DEASSERT and SHUTTER_SAVE: an input near its range is shown and reported, one beyond it triggers a
save with its cause, the 54 V input then off its switch; a save stops every island and writes a record with the next SAVE_SEQ into
the slot not used last, complete with its CRC and SHUTTER_DONE unless HOLDCAP gives out, with the input switch open and the
regulators off. -/
def Obligations.SavesRecordWhatWasInFlight : Prop :=
  ∀ s : State,
    (s.warden.stopped ≠ 2 → s.warden.pins.perst = false →
      (Answers (.inputOutOfRange .low) s fun t => t.bit (pA SHUT_STATUS) 5 = true ∧ Claims.EventSent t 0x70 4 ∧
        t.warden.save = s.warden.save ∧ t.mem = s.mem ∧ t.cores = s.cores) ∧
      Answers (.inputOutOfRange .high) s fun t => t.bit (pA SHUT_STATUS) 6 = true ∧ Claims.EventSent t 0x70 5 ∧
        t.warden.save = s.warden.save ∧ t.mem = s.mem ∧ t.cores = s.cores) ∧
    (∀ p ∈ [(InputEvent.under, 1), (.aboveMax, 2), (.vaux, 4)], Answers (.inputOutOfRange p.1) s fun t => Claims.SaveFor s t p.2 ∧
      (p.1 ≠ .vaux → t.warden.pins.main = false ∧ t.warden.pins.inputOn = false) ∧
      (p.1 = .under → t.warden.pins.thermtrip = false)) ∧
    (∀ e ∈ [InputEvent.back, .vauxBack, .pwrgd], Answers (.inputOutOfRange e) s fun t => { t with warden := s.warden } = s ∧
      let p := s.warden.pins
      t.warden.save = s.warden.save ∧ t.warden.stopped = s.warden.stopped ∧ t.warden.pins =
        if e = .back then { p with main := true, inputOn := p.inputOn || p.perst }
        else if e = .pwrgd then { p with pwrgdIn := p.vaux && p.main }
        else if p.vaux then p else { p with vaux := true, perst := true }) ∧
    (Answers .pwrgdInDeassert s fun t => t.warden.pins.pwrgdIn = false ∧ Claims.SaveFor s t 3) ∧
    ∀ trip dies : Bool,
      (s.warden.save = 0 ∨ s.warden.stopped = 2 → exec (.shutterSave trip dies) s = .next s) ∧
      (1 ≤ s.warden.save → s.warden.save ≤ 4 → s.warden.stopped ≠ 2 → Answers (.shutterSave trip dies) s fun t =>
        let f := s.warden.flash
        let last := if s.mramLater then f.mramB else f.mramA
        let intoB := last.started && !s.mramLater
        let new := if intoB then t.warden.flash.mramB else t.warden.flash.mramA
        t.warden.stopped = 2 ∧ t.warden.flash.sags = f.sags + 1 ∧ t.warden.pins.shutterDone = (s.warden.pins.shutterDone || !dies) ∧
        t.warden.pins.inputOn = false ∧ t.warden.power.off = true ∧
        (if intoB then t.warden.flash.mramA = f.mramA else t.warden.flash.mramB = f.mramB) ∧
        new.started = true ∧ new.cleared = false ∧ new.num 24 24 = s.warden.save ∧ new.flag 3 = trip ∧ new.flag 1 = !dies ∧
        new.seq = (if last.started then last.seq + 1 else 1) ∧ (dies = false → new.intact = true) ∧
        t.mem = s.mem ∧ t.regs = s.regs ∧ t.cores = s.cores)

/-- The management bus (R505, R506), HOLDCAP, the records read and the standby domain (R503, R507, R512, R526). -/
def Obligations.TheBusAndStandbyAnswer : Prop :=
  Clauses.TheBusAnswersWithoutEffect ∧
    Clauses.StandbyAndRecordsAreKept
end

