-- ==== Sys2Proof/Laws/Alu.lean ====
section
/-! SUPPORT. The control core's arithmetic said in integers (R107, R108). -/

namespace Sys2Proof.Machine

/-- A word is fixed by an integer in its signed range. -/
theorem eq_ofInt_of_toInt {a : W64} {x : Int} (h : a.toInt = x) : a = BitVec.ofInt 64 x := by rw [← h, BitVec.ofInt_toInt]

theorem toInt_ofInt_small {x : Int} (h1 : -2 ^ 63 ≤ x) (h2 : x < 2 ^ 63) : (BitVec.ofInt 64 x).toInt = x := by
  rw [BitVec.toInt_ofInt, Int.bmod_eq_of_le] <;> norm_num at * <;> omega

theorem toInt_range (a : W64) : -2 ^ 63 ≤ a.toInt ∧ a.toInt < 2 ^ 63 := ⟨BitVec.le_toInt a, BitVec.toInt_lt⟩

theorem shiftLeft_eq (a : W64) (n : Nat) : a <<< n = BitVec.ofNat 64 (a.toNat * 2 ^ n) := by
  apply BitVec.eq_of_toNat_eq; simp [Nat.shiftLeft_eq]

theorem ushiftRight_eq (a : W64) (n : Nat) : a >>> n = BitVec.ofNat 64 (a.toNat / 2 ^ n) := by
  apply BitVec.eq_of_toNat_eq
  simp only [BitVec.toNat_ushiftRight, Nat.shiftRight_eq_div_pow, BitVec.toNat_ofNat]
  rw [Nat.mod_eq_of_lt (lt_of_le_of_lt (Nat.div_le_self _ _) a.isLt)]

theorem sshiftRight_eq (a : W64) (n : Nat) : a.sshiftRight n = BitVec.ofInt 64 (a.toInt / 2 ^ n) :=
  eq_ofInt_of_toInt (by rw [BitVec.toInt_sshiftRight, Int.shiftRight_eq_div_pow]; norm_num)

/-- The high half of the signed product. -/
theorem mulHigh_eq (a b : W64) : mulHigh a b = BitVec.ofInt 64 (a.toInt * b.toInt / 2 ^ 64) := by
  have h : a.signExtend 128 * b.signExtend 128 = BitVec.ofInt 128 (a.toInt * b.toInt) := by
    apply BitVec.eq_of_toInt_eq
    rw [BitVec.toInt_mul, BitVec.toInt_ofInt, BitVec.toInt_signExtend_of_le (by decide), BitVec.toInt_signExtend_of_le (by decide)]
  unfold mulHigh
  rw [h]
  apply BitVec.eq_of_toNat_eq
  generalize a.toInt * b.toInt = p
  simp only [BitVec.toNat_setWidth, BitVec.toNat_ushiftRight, Nat.shiftRight_eq_div_pow, BitVec.toNat_ofInt]
  norm_num
  omega

/-- The high half of the unsigned product. -/
theorem mulHighU_eq (a b : W64) : mulHighU a b = BitVec.ofNat 64 (a.toNat * b.toNat / 2 ^ 64) := by
  have ha := a.isLt
  have hb := b.isLt
  have : a.toNat * b.toNat < 2 ^ 128 := by nlinarith
  apply BitVec.eq_of_toNat_eq
  simp [mulHighU, Nat.shiftRight_eq_div_pow]
  rw [Nat.mod_eq_of_lt (a := a.toNat * b.toNat) (by omega)]

theorem min_eq_ofInt (a b : W64) : (if a.slt b then a else b) = BitVec.ofInt 64 (Min.min a.toInt b.toInt) := by
  simp only [BitVec.slt, decide_eq_true_eq]
  split
  · rw [min_eq_left (by omega), BitVec.ofInt_toInt]
  · rw [min_eq_right (by omega), BitVec.ofInt_toInt]

theorem max_eq_ofInt (a b : W64) : (if a.slt b then b else a) = BitVec.ofInt 64 (Max.max a.toInt b.toInt) := by
  simp only [BitVec.slt, decide_eq_true_eq]
  split
  · rw [max_eq_right (by omega), BitVec.ofInt_toInt]
  · rw [max_eq_left (by omega), BitVec.ofInt_toInt]

theorem minu_eq_ofNat (a b : W64) : (if a.ult b then a else b) = BitVec.ofNat 64 (Min.min a.toNat b.toNat) := by
  simp only [BitVec.ult, decide_eq_true_eq]
  split
  · rw [min_eq_left (by omega), BitVec.ofNat_toNat, BitVec.setWidth_eq]
  · rw [min_eq_right (by omega), BitVec.ofNat_toNat, BitVec.setWidth_eq]

theorem maxu_eq_ofNat (a b : W64) : (if a.ult b then b else a) = BitVec.ofNat 64 (Max.max a.toNat b.toNat) := by
  simp only [BitVec.ult, decide_eq_true_eq]
  split
  · rw [max_eq_right (by omega), BitVec.ofNat_toNat, BitVec.setWidth_eq]
  · rw [max_eq_left (by omega), BitVec.ofNat_toNat, BitVec.setWidth_eq]

/-- The signed quotient (R108): by zero every bit set, −2⁶³ by −1 is −2⁶³. -/
theorem divS_eq (a b : W64) : divS a b = if b = 0 then BitVec.ofInt 64 (-1) else BitVec.ofInt 64 (a.toInt.tdiv b.toInt) := by
  unfold divS
  split
  · rfl
  · apply BitVec.eq_of_toInt_eq; rw [BitVec.toInt_sdiv, BitVec.toInt_ofInt]

theorem divU_eq (a b : W64) : divU a b = if b = 0 then BitVec.ofInt 64 (-1) else BitVec.ofNat 64 (a.toNat / b.toNat) := by
  unfold divU
  split
  · rfl
  · apply BitVec.eq_of_toNat_eq
    simp only [BitVec.udiv_eq, BitVec.toNat_udiv, BitVec.toNat_ofNat]
    rw [Nat.mod_eq_of_lt (lt_of_le_of_lt (Nat.div_le_self _ _) a.isLt)]

/-- The signed remainder (R108): by zero the dividend. -/
theorem remS_eq (a b : W64) : remS a b = if b = 0 then a else BitVec.ofInt 64 (a.toInt.tmod b.toInt) := by
  unfold remS
  split
  · rfl
  · exact eq_ofInt_of_toInt (BitVec.toInt_srem a b)

theorem remU_eq (a b : W64) : remU a b = if b = 0 then a else BitVec.ofNat 64 (a.toNat % b.toNat) := by
  unfold remU
  split
  · rfl
  · apply BitVec.eq_of_toNat_eq
    simp only [BitVec.umod_eq, BitVec.toNat_umod, BitVec.toNat_ofNat]
    rw [Nat.mod_eq_of_lt (lt_of_le_of_lt (Nat.mod_le _ _) a.isLt)]

/-! ### Counts of bits -/

theorem find?_range_spec (p : Nat → Bool) (n : Nat) :
    ((List.range n).find? p).getD n ≤ n ∧ (∀ i, i < ((List.range n).find? p).getD n → p i = false) ∧
      (((List.range n).find? p).getD n < n → p (((List.range n).find? p).getD n) = true) := by
  cases h : (List.range n).find? p with
  | none =>
    refine ⟨le_refl _, fun i hi => ?_, fun hn => absurd hn (lt_irrefl _)⟩
    have := List.find?_eq_none.mp h i (List.mem_range.mpr hi)
    simpa using this
  | some k =>
    obtain ⟨hp, as, bs, e, hb⟩ := List.find?_eq_some_iff_append.mp h
    have hk : k < n := List.mem_range.mp (List.mem_of_find?_eq_some h)
    refine ⟨Nat.le_of_lt hk, fun i hi => ?_, fun _ => hp⟩
    have hi' : i < k := hi
    have hl : as.length = k := by
      have h1 := congrArg (fun l => l[as.length]?) e
      simp only [List.getElem?_append_right (le_refl _), Nat.sub_self, List.getElem?_cons_zero] at h1
      have h2 := List.getElem?_eq_some_iff.mp h1
      obtain ⟨_, h3⟩ := h2
      simpa using h3
    have hmem : i ∈ as := by
      have h1 : (List.range n)[i]? = some i := by rw [List.getElem?_range (by omega)]
      rw [e, List.getElem?_append_left (by omega)] at h1
      exact List.mem_of_getElem? h1
    simpa using hb i hmem

/-- The leading zeros of R108. -/
theorem countLeading_spec (a : W64) : countLeading a ≤ 64 ∧ (∀ i, i < countLeading a → a.getLsbD (63 - i) = false) ∧
    (countLeading a < 64 → a.getLsbD (63 - countLeading a) = true) :=
  find?_range_spec (fun i => a.getLsbD (63 - i)) 64

/-- The trailing zeros of R108. -/
theorem countTrailing_spec (a : W64) : countTrailing a ≤ 64 ∧ (∀ i, i < countTrailing a → a.getLsbD i = false) ∧
    (countTrailing a < 64 → a.getLsbD (countTrailing a) = true) :=
  find?_range_spec (fun i => a.getLsbD i) 64

end Sys2Proof.Machine
end

