-- ==== Sys2Proof/Laws/SMap.lean ====
section
/-! SUPPORT. The laws of sparse maps: reading after writing, without any premise on the map; and the canonical form, which
every operation keeps. -/

namespace Sys2Proof.Machine

variable {α : Type}

/-! ### Reading after writing -/

theorem smGet_smErase (d : α) (m : List (Nat × α)) (a b : Nat) :
    smGet d (smErase m a) b = if b = a then d else smGet d m b := by
  induction m with
  | nil => simp [smErase, smGet]
  | cons p m ih =>
    obtain ⟨k, v⟩ := p
    by_cases hk : k = a
    · subst hk
      by_cases hb : b = k
      · subst hb; simp [smErase, ih]
      · simp [smErase, smGet, ih, hb, Ne.symm hb]
    · by_cases hb : k = b
      · subst hb; simp [smErase, smGet, hk]
      · simp [smErase, smGet, hk, hb, ih]

theorem smGet_smInsert (d : α) (m : List (Nat × α)) (a b : Nat) (x : α) :
    smGet d (smInsert m a x) b = if b = a then x else smGet d m b := by
  induction m with
  | nil => by_cases h : b = a <;> simp [smInsert, smGet, h, Ne.symm]
  | cons p m ih =>
    obtain ⟨k, v⟩ := p
    by_cases hk : k = a
    · subst hk
      by_cases hb : b = k
      · simp [smInsert, smGet, hb]
      · simp [smInsert, smGet, hb, Ne.symm hb]
    · by_cases hlt : a < k
      · by_cases hb : b = a
        · simp [smInsert, smGet, hk, hlt, hb]
        · simp [smInsert, smGet, hk, hlt, hb, Ne.symm hb]
      · by_cases hb : k = b
        · subst hb; simp [smInsert, smGet, hk, hlt]
        · simp [smInsert, smGet, hk, hlt, hb, ih]

variable [DecidableEq α]

/-- A map reads as written at the key written, and elsewhere as before. -/
@[simp] theorem smGet_smSet (d : α) (m : List (Nat × α)) (a b : Nat) (x : α) :
    smGet d (smSet d m a x) b = if b = a then x else smGet d m b := by
  unfold smSet
  split
  · next h => rw [smGet_smErase, h]
  · rw [smGet_smInsert]

/-- A key not written reads as before, whatever it reads as unlisted. -/
theorem smGet_smSet_ne (d e : α) (m : List (Nat × α)) {a b : Nat} (x : α) (h : b ≠ a) :
    smGet e (smSet d m a x) b = smGet e m b := by
  unfold smSet
  split
  · rw [smGet_smErase, if_neg h]
  · rw [smGet_smInsert, if_neg h]

omit [DecidableEq α] in
theorem smGet_smClear (d : α) (m : List (Nat × α)) (lo hi b : Nat) :
    smGet d (smClear m lo hi) b = if lo ≤ b ∧ b < hi then d else smGet d m b := by
  induction m with
  | nil => simp [smClear, smGet]
  | cons p m ih =>
    obtain ⟨k, v⟩ := p
    have step : smClear ((k, v) :: m) lo hi
        = if k < lo ∨ hi ≤ k then (k, v) :: smClear m lo hi else smClear m lo hi := by
      by_cases h : k < lo ∨ hi ≤ k <;> simp [smClear, h]
    rw [step]
    by_cases h : k < lo ∨ hi ≤ k
    · by_cases hb : k = b
      · subst hb
        have : ¬(lo ≤ k ∧ k < hi) := by omega
        simp [h, smGet, this]
      · simp only [h, if_true, smGet, hb, if_false, ih]
    · by_cases hb : k = b
      · subst hb
        have : lo ≤ k ∧ k < hi := by omega
        simp only [h, if_false, ih, this, if_true, and_self]
      · simp only [h, if_false, ih, smGet, hb]

theorem smGet_smSetList (d : α) (m : List (Nat × α)) (a b : Nat) (xs : List α) :
    smGet d (smSetList d m a xs) b = if a ≤ b ∧ b < a + xs.length then xs.getD (b - a) d else smGet d m b := by
  induction xs generalizing m a with
  | nil => simp [smSetList]
  | cons x xs ih =>
    rw [smSetList, ih]
    by_cases h0 : b = a
    · subst h0; simp
    · by_cases h1 : a + 1 ≤ b ∧ b < a + 1 + xs.length
      · have h2 : a ≤ b ∧ b < a + (x :: xs).length := by simp only [List.length_cons]; omega
        rw [if_pos h1, if_pos h2]
        obtain ⟨n, rfl⟩ : ∃ n, b = a + 1 + n := ⟨b - (a + 1), by omega⟩
        rw [show a + 1 + n - (a + 1) = n by omega, show a + 1 + n - a = n + 1 by omega]
        simp
      · have h2 : ¬(a ≤ b ∧ b < a + (x :: xs).length) := by simp only [List.length_cons]; omega
        rw [if_neg h1, if_neg h2, smGet_smSet, if_neg h0]

omit [DecidableEq α] in
@[simp] theorem smGetList_length (d : α) (m : List (Nat × α)) (a n : Nat) : (smGetList d m a n).length = n := by
  simp [smGetList]

omit [DecidableEq α] in
theorem smGetList_getD (d : α) (m : List (Nat × α)) (a n i : Nat) (h : i < n) :
    (smGetList d m a n).getD i d = smGet d m (a + i) := by
  simp [smGetList, h]

/-! ### The canonical form -/

omit [DecidableEq α] in
/-- Every key of a sorted map lies above its bound. -/
theorem smSorted_lt {b : Nat} {m : List (Nat × α)} (h : smSorted (some b) m = true) : ∀ p ∈ m, b < p.1 := by
  induction m generalizing b with
  | nil => simp
  | cons p m ih =>
    obtain ⟨k, v⟩ := p
    simp only [smSorted, Bool.and_eq_true, decide_eq_true_eq] at h
    intro q hq
    rcases List.mem_cons.mp hq with rfl | hq
    · exact h.1
    · exact lt_trans h.1 (ih h.2 q hq)

omit [DecidableEq α] in
theorem smSorted_none {m : List (Nat × α)} {b : Nat} (h : smSorted (some b) m = true) : smSorted none m = true := by
  cases m with
  | nil => rfl
  | cons p m => obtain ⟨k, v⟩ := p; simp only [smSorted, Bool.and_eq_true] at h ⊢; exact h.2

omit [DecidableEq α] in
theorem smSorted_mono {m : List (Nat × α)} {a b : Nat} (hab : a ≤ b) (h : smSorted (some b) m = true) :
    smSorted (some a) m = true := by
  cases m with
  | nil => rfl
  | cons p m =>
    obtain ⟨k, v⟩ := p
    simp only [smSorted, Bool.and_eq_true, decide_eq_true_eq] at h ⊢
    exact ⟨by omega, h.2⟩

omit [DecidableEq α] in
theorem smSorted_filter (f : Nat × α → Bool) {b : Option Nat} {m : List (Nat × α)} (h : smSorted b m = true) :
    smSorted b (m.filter f) = true := by
  induction m generalizing b with
  | nil => cases b <;> rfl
  | cons p m ih =>
    obtain ⟨k, v⟩ := p
    have hk : smSorted (some k) m = true := by cases b <;> simp [smSorted] at h; exacts [h, h.2]
    by_cases hf : f (k, v) = true
    · rw [List.filter_cons_of_pos hf]
      cases b with
      | none => simp [smSorted, ih hk]
      | some b => simp [smSorted, ih hk] at h ⊢; exact h.1
    · rw [List.filter_cons_of_neg hf]
      cases b with
      | none => exact smSorted_none (ih hk)
      | some b =>
        simp [smSorted] at h
        exact smSorted_mono (Nat.le_of_lt h.1) (ih hk)

omit [DecidableEq α] in
theorem smErase_eq_filter (m : List (Nat × α)) (a : Nat) : smErase m a = m.filter fun p => p.1 ≠ a := by
  induction m with
  | nil => rfl
  | cons p m ih => obtain ⟨k, v⟩ := p; by_cases h : k = a <;> simp [smErase, h, ih]

omit [DecidableEq α] in
theorem smSorted_smInsert {b : Option Nat} {m : List (Nat × α)} {a : Nat} {x : α}
    (hb : ∀ n ∈ b, n < a) (h : smSorted b m = true) : smSorted b (smInsert m a x) = true := by
  induction m generalizing b with
  | nil => cases b <;> simp_all [smInsert, smSorted]
  | cons p m ih =>
    obtain ⟨k, v⟩ := p
    have hk : smSorted (some k) m = true := by cases b <;> simp [smSorted] at h; exacts [h, h.2]
    by_cases hka : k = a
    · subst hka; cases b <;> simp_all [smInsert, smSorted]
    · by_cases hlt : a < k
      · cases b <;> simp_all [smInsert, smSorted]
      · have := ih (b := some k) (by simp; omega) hk
        have hlt' : ¬ a < k := hlt
        cases b <;> simp_all only [smInsert, smSorted, if_false, Bool.and_eq_true, decide_eq_true_eq, and_self]

omit [DecidableEq α] in
theorem mem_smInsert {m : List (Nat × α)} {a : Nat} {x : α} {p : Nat × α} (h : p ∈ smInsert m a x) : p = (a, x) ∨ p ∈ m := by
  induction m with
  | nil => simpa [smInsert] using h
  | cons q m ih =>
    obtain ⟨k, v⟩ := q
    simp only [smInsert] at h
    split at h
    · rcases List.mem_cons.mp h with h | h
      · exact .inl h
      · exact .inr (List.mem_cons_of_mem _ h)
    · split at h
      · rcases List.mem_cons.mp h with h | h
        · exact .inl h
        · exact .inr h
      · rcases List.mem_cons.mp h with h | h
        · exact .inr (h ▸ List.mem_cons_self)
        · exact (ih h).imp id (List.mem_cons_of_mem _)

/-- A write keeps the canonical form. -/
theorem smWf_smSet {d : α} {m : List (Nat × α)} (a : Nat) (x : α) (h : smWf d m = true) : smWf d (smSet d m a x) = true := by
  simp only [smWf, Bool.and_eq_true, List.all_eq_true, decide_eq_true_eq] at h ⊢
  unfold smSet
  split
  · rw [smErase_eq_filter]
    exact ⟨smSorted_filter _ h.1, fun p hp => h.2 p (List.mem_of_mem_filter hp)⟩
  · next hx =>
    refine ⟨smSorted_smInsert (by simp) h.1, fun p hp => ?_⟩
    rcases mem_smInsert hp with rfl | hp
    · exact hx
    · exact h.2 p hp

/-- Dropping entries keeps the canonical form. -/
theorem smWf_filter {d : α} {m : List (Nat × α)} (f : Nat × α → Bool) (h : smWf d m = true) : smWf d (m.filter f) = true := by
  simp only [smWf, Bool.and_eq_true, List.all_eq_true] at h ⊢
  exact ⟨smSorted_filter _ h.1, fun p hp => h.2 p (List.mem_of_mem_filter hp)⟩

theorem smWf_smClear {d : α} {m : List (Nat × α)} (lo hi : Nat) (h : smWf d m = true) : smWf d (smClear m lo hi) = true :=
  smWf_filter _ h

theorem smWf_smSetList {d : α} {m : List (Nat × α)} (a : Nat) (xs : List α) (h : smWf d m = true) :
    smWf d (smSetList d m a xs) = true := by
  induction xs generalizing m a with
  | nil => exact h
  | cons x xs ih => exact ih (a + 1) (smWf_smSet a x h)

end Sys2Proof.Machine
end

