-- ==== Sys2Proof/Laws/State.lean ====
section
/-! SUPPORT. What each update of the state leaves, field by field and through each accessor, and what it writes. -/

namespace Sys2Proof.Machine.State

variable (s : State)

/-! ### Fields an update leaves -/

@[simp] theorem setCore_pending (c : Nat) (k : Core) : (s.setCore c k).pending = s.pending := rfl
@[simp] theorem setCore_freeCtr (c : Nat) (k : Core) : (s.setCore c k).freeCtr = s.freeCtr := rfl
@[simp] theorem setCore_now (c : Nat) (k : Core) : (s.setCore c k).now = s.now := rfl
@[simp] theorem setCore_regs (c : Nat) (k : Core) : (s.setCore c k).regs = s.regs := rfl
@[simp] theorem setCore_halves (c : Nat) (k : Core) : (s.setCore c k).halves = s.halves := rfl
@[simp] theorem setCore_mem (c : Nat) (k : Core) : (s.setCore c k).mem = s.mem := rfl
@[simp] theorem setCore_spMark (c : Nat) (k : Core) : (s.setCore c k).spMark = s.spMark := rfl
@[simp] theorem setCore_fastSyn (c : Nat) (k : Core) : (s.setCore c k).fastSyn = s.fastSyn := rfl
@[simp] theorem setCore_slowSyn (c : Nat) (k : Core) : (s.setCore c k).slowSyn = s.slowSyn := rfl
@[simp] theorem setCore_slowA (c : Nat) (k : Core) : (s.setCore c k).slowA = s.slowA := rfl
@[simp] theorem setCore_slowB (c : Nat) (k : Core) : (s.setCore c k).slowB = s.slowB := rfl
@[simp] theorem setCore_valid (c : Nat) (k : Core) : (s.setCore c k).valid = s.valid := rfl
@[simp] theorem setCore_summary (c : Nat) (k : Core) : (s.setCore c k).summary = s.summary := rfl
@[simp] theorem setCore_segs (c : Nat) (k : Core) : (s.setCore c k).segs = s.segs := rfl
@[simp] theorem setCore_vaults (c : Nat) (k : Core) : (s.setCore c k).vaults = s.vaults := rfl
@[simp] theorem setCore_stackMap (c : Nat) (k : Core) : (s.setCore c k).stackMap = s.stackMap := rfl
@[simp] theorem setCore_net (c : Nat) (k : Core) : (s.setCore c k).net = s.net := rfl
@[simp] theorem setCore_bilo (c : Nat) (k : Core) : (s.setCore c k).bilo = s.bilo := rfl
@[simp] theorem setCore_host (c : Nat) (k : Core) : (s.setCore c k).host = s.host := rfl
@[simp] theorem setCore_warden (c : Nat) (k : Core) : (s.setCore c k).warden = s.warden := rfl

@[simp] theorem modCore_pending (c : Nat) (f : Core → Core) : (s.modCore c f).pending = s.pending := rfl
@[simp] theorem modCore_freeCtr (c : Nat) (f : Core → Core) : (s.modCore c f).freeCtr = s.freeCtr := rfl
@[simp] theorem modCore_now (c : Nat) (f : Core → Core) : (s.modCore c f).now = s.now := rfl
@[simp] theorem modCore_regs (c : Nat) (f : Core → Core) : (s.modCore c f).regs = s.regs := rfl
@[simp] theorem modCore_halves (c : Nat) (f : Core → Core) : (s.modCore c f).halves = s.halves := rfl
@[simp] theorem modCore_mem (c : Nat) (f : Core → Core) : (s.modCore c f).mem = s.mem := rfl
@[simp] theorem modCore_spMark (c : Nat) (f : Core → Core) : (s.modCore c f).spMark = s.spMark := rfl
@[simp] theorem modCore_fastSyn (c : Nat) (f : Core → Core) : (s.modCore c f).fastSyn = s.fastSyn := rfl
@[simp] theorem modCore_slowSyn (c : Nat) (f : Core → Core) : (s.modCore c f).slowSyn = s.slowSyn := rfl
@[simp] theorem modCore_slowA (c : Nat) (f : Core → Core) : (s.modCore c f).slowA = s.slowA := rfl
@[simp] theorem modCore_slowB (c : Nat) (f : Core → Core) : (s.modCore c f).slowB = s.slowB := rfl
@[simp] theorem modCore_valid (c : Nat) (f : Core → Core) : (s.modCore c f).valid = s.valid := rfl
@[simp] theorem modCore_summary (c : Nat) (f : Core → Core) : (s.modCore c f).summary = s.summary := rfl
@[simp] theorem modCore_segs (c : Nat) (f : Core → Core) : (s.modCore c f).segs = s.segs := rfl
@[simp] theorem modCore_vaults (c : Nat) (f : Core → Core) : (s.modCore c f).vaults = s.vaults := rfl
@[simp] theorem modCore_stackMap (c : Nat) (f : Core → Core) : (s.modCore c f).stackMap = s.stackMap := rfl
@[simp] theorem modCore_net (c : Nat) (f : Core → Core) : (s.modCore c f).net = s.net := rfl
@[simp] theorem modCore_bilo (c : Nat) (f : Core → Core) : (s.modCore c f).bilo = s.bilo := rfl
@[simp] theorem modCore_host (c : Nat) (f : Core → Core) : (s.modCore c f).host = s.host := rfl
@[simp] theorem modCore_warden (c : Nat) (f : Core → Core) : (s.modCore c f).warden = s.warden := rfl

@[simp] theorem setVault_pending (c : Nat) (v : Vault) : (s.setVault c v).pending = s.pending := rfl
@[simp] theorem setVault_freeCtr (c : Nat) (v : Vault) : (s.setVault c v).freeCtr = s.freeCtr := rfl
@[simp] theorem setVault_now (c : Nat) (v : Vault) : (s.setVault c v).now = s.now := rfl
@[simp] theorem setVault_regs (c : Nat) (v : Vault) : (s.setVault c v).regs = s.regs := rfl
@[simp] theorem setVault_halves (c : Nat) (v : Vault) : (s.setVault c v).halves = s.halves := rfl
@[simp] theorem setVault_mem (c : Nat) (v : Vault) : (s.setVault c v).mem = s.mem := rfl
@[simp] theorem setVault_spMark (c : Nat) (v : Vault) : (s.setVault c v).spMark = s.spMark := rfl
@[simp] theorem setVault_fastSyn (c : Nat) (v : Vault) : (s.setVault c v).fastSyn = s.fastSyn := rfl
@[simp] theorem setVault_slowSyn (c : Nat) (v : Vault) : (s.setVault c v).slowSyn = s.slowSyn := rfl
@[simp] theorem setVault_slowA (c : Nat) (v : Vault) : (s.setVault c v).slowA = s.slowA := rfl
@[simp] theorem setVault_slowB (c : Nat) (v : Vault) : (s.setVault c v).slowB = s.slowB := rfl
@[simp] theorem setVault_valid (c : Nat) (v : Vault) : (s.setVault c v).valid = s.valid := rfl
@[simp] theorem setVault_summary (c : Nat) (v : Vault) : (s.setVault c v).summary = s.summary := rfl
@[simp] theorem setVault_segs (c : Nat) (v : Vault) : (s.setVault c v).segs = s.segs := rfl
@[simp] theorem setVault_cores (c : Nat) (v : Vault) : (s.setVault c v).cores = s.cores := rfl
@[simp] theorem setVault_stackMap (c : Nat) (v : Vault) : (s.setVault c v).stackMap = s.stackMap := rfl
@[simp] theorem setVault_net (c : Nat) (v : Vault) : (s.setVault c v).net = s.net := rfl
@[simp] theorem setVault_bilo (c : Nat) (v : Vault) : (s.setVault c v).bilo = s.bilo := rfl
@[simp] theorem setVault_host (c : Nat) (v : Vault) : (s.setVault c v).host = s.host := rfl
@[simp] theorem setVault_warden (c : Nat) (v : Vault) : (s.setVault c v).warden = s.warden := rfl

@[simp] theorem modVault_pending (c : Nat) (f : Vault → Vault) : (s.modVault c f).pending = s.pending := rfl
@[simp] theorem modVault_freeCtr (c : Nat) (f : Vault → Vault) : (s.modVault c f).freeCtr = s.freeCtr := rfl
@[simp] theorem modVault_now (c : Nat) (f : Vault → Vault) : (s.modVault c f).now = s.now := rfl
@[simp] theorem modVault_regs (c : Nat) (f : Vault → Vault) : (s.modVault c f).regs = s.regs := rfl
@[simp] theorem modVault_halves (c : Nat) (f : Vault → Vault) : (s.modVault c f).halves = s.halves := rfl
@[simp] theorem modVault_mem (c : Nat) (f : Vault → Vault) : (s.modVault c f).mem = s.mem := rfl
@[simp] theorem modVault_spMark (c : Nat) (f : Vault → Vault) : (s.modVault c f).spMark = s.spMark := rfl
@[simp] theorem modVault_fastSyn (c : Nat) (f : Vault → Vault) : (s.modVault c f).fastSyn = s.fastSyn := rfl
@[simp] theorem modVault_slowSyn (c : Nat) (f : Vault → Vault) : (s.modVault c f).slowSyn = s.slowSyn := rfl
@[simp] theorem modVault_slowA (c : Nat) (f : Vault → Vault) : (s.modVault c f).slowA = s.slowA := rfl
@[simp] theorem modVault_slowB (c : Nat) (f : Vault → Vault) : (s.modVault c f).slowB = s.slowB := rfl
@[simp] theorem modVault_valid (c : Nat) (f : Vault → Vault) : (s.modVault c f).valid = s.valid := rfl
@[simp] theorem modVault_summary (c : Nat) (f : Vault → Vault) : (s.modVault c f).summary = s.summary := rfl
@[simp] theorem modVault_segs (c : Nat) (f : Vault → Vault) : (s.modVault c f).segs = s.segs := rfl
@[simp] theorem modVault_cores (c : Nat) (f : Vault → Vault) : (s.modVault c f).cores = s.cores := rfl
@[simp] theorem modVault_stackMap (c : Nat) (f : Vault → Vault) : (s.modVault c f).stackMap = s.stackMap := rfl
@[simp] theorem modVault_net (c : Nat) (f : Vault → Vault) : (s.modVault c f).net = s.net := rfl
@[simp] theorem modVault_bilo (c : Nat) (f : Vault → Vault) : (s.modVault c f).bilo = s.bilo := rfl
@[simp] theorem modVault_host (c : Nat) (f : Vault → Vault) : (s.modVault c f).host = s.host := rfl
@[simp] theorem modVault_warden (c : Nat) (f : Vault → Vault) : (s.modVault c f).warden = s.warden := rfl

@[simp] theorem setStack_pending (t : Nat) (v : Stack) : (s.setStack t v).pending = s.pending := rfl
@[simp] theorem setStack_freeCtr (t : Nat) (v : Stack) : (s.setStack t v).freeCtr = s.freeCtr := rfl
@[simp] theorem setStack_now (t : Nat) (v : Stack) : (s.setStack t v).now = s.now := rfl
@[simp] theorem setStack_regs (t : Nat) (v : Stack) : (s.setStack t v).regs = s.regs := rfl
@[simp] theorem setStack_halves (t : Nat) (v : Stack) : (s.setStack t v).halves = s.halves := rfl
@[simp] theorem setStack_mem (t : Nat) (v : Stack) : (s.setStack t v).mem = s.mem := rfl
@[simp] theorem setStack_spMark (t : Nat) (v : Stack) : (s.setStack t v).spMark = s.spMark := rfl
@[simp] theorem setStack_fastSyn (t : Nat) (v : Stack) : (s.setStack t v).fastSyn = s.fastSyn := rfl
@[simp] theorem setStack_slowSyn (t : Nat) (v : Stack) : (s.setStack t v).slowSyn = s.slowSyn := rfl
@[simp] theorem setStack_slowA (t : Nat) (v : Stack) : (s.setStack t v).slowA = s.slowA := rfl
@[simp] theorem setStack_slowB (t : Nat) (v : Stack) : (s.setStack t v).slowB = s.slowB := rfl
@[simp] theorem setStack_valid (t : Nat) (v : Stack) : (s.setStack t v).valid = s.valid := rfl
@[simp] theorem setStack_summary (t : Nat) (v : Stack) : (s.setStack t v).summary = s.summary := rfl
@[simp] theorem setStack_segs (t : Nat) (v : Stack) : (s.setStack t v).segs = s.segs := rfl
@[simp] theorem setStack_cores (t : Nat) (v : Stack) : (s.setStack t v).cores = s.cores := rfl
@[simp] theorem setStack_vaults (t : Nat) (v : Stack) : (s.setStack t v).vaults = s.vaults := rfl
@[simp] theorem setStack_net (t : Nat) (v : Stack) : (s.setStack t v).net = s.net := rfl
@[simp] theorem setStack_bilo (t : Nat) (v : Stack) : (s.setStack t v).bilo = s.bilo := rfl
@[simp] theorem setStack_host (t : Nat) (v : Stack) : (s.setStack t v).host = s.host := rfl
@[simp] theorem setStack_warden (t : Nat) (v : Stack) : (s.setStack t v).warden = s.warden := rfl

@[simp] theorem modStack_pending (t : Nat) (f : Stack → Stack) : (s.modStack t f).pending = s.pending := rfl
@[simp] theorem modStack_freeCtr (t : Nat) (f : Stack → Stack) : (s.modStack t f).freeCtr = s.freeCtr := rfl
@[simp] theorem modStack_now (t : Nat) (f : Stack → Stack) : (s.modStack t f).now = s.now := rfl
@[simp] theorem modStack_regs (t : Nat) (f : Stack → Stack) : (s.modStack t f).regs = s.regs := rfl
@[simp] theorem modStack_halves (t : Nat) (f : Stack → Stack) : (s.modStack t f).halves = s.halves := rfl
@[simp] theorem modStack_mem (t : Nat) (f : Stack → Stack) : (s.modStack t f).mem = s.mem := rfl
@[simp] theorem modStack_spMark (t : Nat) (f : Stack → Stack) : (s.modStack t f).spMark = s.spMark := rfl
@[simp] theorem modStack_fastSyn (t : Nat) (f : Stack → Stack) : (s.modStack t f).fastSyn = s.fastSyn := rfl
@[simp] theorem modStack_slowSyn (t : Nat) (f : Stack → Stack) : (s.modStack t f).slowSyn = s.slowSyn := rfl
@[simp] theorem modStack_slowA (t : Nat) (f : Stack → Stack) : (s.modStack t f).slowA = s.slowA := rfl
@[simp] theorem modStack_slowB (t : Nat) (f : Stack → Stack) : (s.modStack t f).slowB = s.slowB := rfl
@[simp] theorem modStack_valid (t : Nat) (f : Stack → Stack) : (s.modStack t f).valid = s.valid := rfl
@[simp] theorem modStack_summary (t : Nat) (f : Stack → Stack) : (s.modStack t f).summary = s.summary := rfl
@[simp] theorem modStack_segs (t : Nat) (f : Stack → Stack) : (s.modStack t f).segs = s.segs := rfl
@[simp] theorem modStack_cores (t : Nat) (f : Stack → Stack) : (s.modStack t f).cores = s.cores := rfl
@[simp] theorem modStack_vaults (t : Nat) (f : Stack → Stack) : (s.modStack t f).vaults = s.vaults := rfl
@[simp] theorem modStack_net (t : Nat) (f : Stack → Stack) : (s.modStack t f).net = s.net := rfl
@[simp] theorem modStack_bilo (t : Nat) (f : Stack → Stack) : (s.modStack t f).bilo = s.bilo := rfl
@[simp] theorem modStack_host (t : Nat) (f : Stack → Stack) : (s.modStack t f).host = s.host := rfl
@[simp] theorem modStack_warden (t : Nat) (f : Stack → Stack) : (s.modStack t f).warden = s.warden := rfl

@[simp] theorem setSeg_pending (n : Nat) (g : Seg) : (s.setSeg n g).pending = s.pending := rfl
@[simp] theorem setSeg_freeCtr (n : Nat) (g : Seg) : (s.setSeg n g).freeCtr = s.freeCtr := rfl
@[simp] theorem setSeg_now (n : Nat) (g : Seg) : (s.setSeg n g).now = s.now := rfl
@[simp] theorem setSeg_regs (n : Nat) (g : Seg) : (s.setSeg n g).regs = s.regs := rfl
@[simp] theorem setSeg_halves (n : Nat) (g : Seg) : (s.setSeg n g).halves = s.halves := rfl
@[simp] theorem setSeg_mem (n : Nat) (g : Seg) : (s.setSeg n g).mem = s.mem := rfl
@[simp] theorem setSeg_spMark (n : Nat) (g : Seg) : (s.setSeg n g).spMark = s.spMark := rfl
@[simp] theorem setSeg_fastSyn (n : Nat) (g : Seg) : (s.setSeg n g).fastSyn = s.fastSyn := rfl
@[simp] theorem setSeg_slowSyn (n : Nat) (g : Seg) : (s.setSeg n g).slowSyn = s.slowSyn := rfl
@[simp] theorem setSeg_slowA (n : Nat) (g : Seg) : (s.setSeg n g).slowA = s.slowA := rfl
@[simp] theorem setSeg_slowB (n : Nat) (g : Seg) : (s.setSeg n g).slowB = s.slowB := rfl
@[simp] theorem setSeg_valid (n : Nat) (g : Seg) : (s.setSeg n g).valid = s.valid := rfl
@[simp] theorem setSeg_summary (n : Nat) (g : Seg) : (s.setSeg n g).summary = s.summary := rfl
@[simp] theorem setSeg_cores (n : Nat) (g : Seg) : (s.setSeg n g).cores = s.cores := rfl
@[simp] theorem setSeg_vaults (n : Nat) (g : Seg) : (s.setSeg n g).vaults = s.vaults := rfl
@[simp] theorem setSeg_stackMap (n : Nat) (g : Seg) : (s.setSeg n g).stackMap = s.stackMap := rfl
@[simp] theorem setSeg_net (n : Nat) (g : Seg) : (s.setSeg n g).net = s.net := rfl
@[simp] theorem setSeg_bilo (n : Nat) (g : Seg) : (s.setSeg n g).bilo = s.bilo := rfl
@[simp] theorem setSeg_host (n : Nat) (g : Seg) : (s.setSeg n g).host = s.host := rfl
@[simp] theorem setSeg_warden (n : Nat) (g : Seg) : (s.setSeg n g).warden = s.warden := rfl

@[simp] theorem setPort_pending (p : Nat) (v : Port) : (s.setPort p v).pending = s.pending := rfl
@[simp] theorem setPort_freeCtr (p : Nat) (v : Port) : (s.setPort p v).freeCtr = s.freeCtr := rfl
@[simp] theorem setPort_now (p : Nat) (v : Port) : (s.setPort p v).now = s.now := rfl
@[simp] theorem setPort_regs (p : Nat) (v : Port) : (s.setPort p v).regs = s.regs := rfl
@[simp] theorem setPort_halves (p : Nat) (v : Port) : (s.setPort p v).halves = s.halves := rfl
@[simp] theorem setPort_mem (p : Nat) (v : Port) : (s.setPort p v).mem = s.mem := rfl
@[simp] theorem setPort_spMark (p : Nat) (v : Port) : (s.setPort p v).spMark = s.spMark := rfl
@[simp] theorem setPort_fastSyn (p : Nat) (v : Port) : (s.setPort p v).fastSyn = s.fastSyn := rfl
@[simp] theorem setPort_slowSyn (p : Nat) (v : Port) : (s.setPort p v).slowSyn = s.slowSyn := rfl
@[simp] theorem setPort_slowA (p : Nat) (v : Port) : (s.setPort p v).slowA = s.slowA := rfl
@[simp] theorem setPort_slowB (p : Nat) (v : Port) : (s.setPort p v).slowB = s.slowB := rfl
@[simp] theorem setPort_valid (p : Nat) (v : Port) : (s.setPort p v).valid = s.valid := rfl
@[simp] theorem setPort_summary (p : Nat) (v : Port) : (s.setPort p v).summary = s.summary := rfl
@[simp] theorem setPort_segs (p : Nat) (v : Port) : (s.setPort p v).segs = s.segs := rfl
@[simp] theorem setPort_cores (p : Nat) (v : Port) : (s.setPort p v).cores = s.cores := rfl
@[simp] theorem setPort_vaults (p : Nat) (v : Port) : (s.setPort p v).vaults = s.vaults := rfl
@[simp] theorem setPort_stackMap (p : Nat) (v : Port) : (s.setPort p v).stackMap = s.stackMap := rfl
@[simp] theorem setPort_net (p : Nat) (v : Port) : (s.setPort p v).net = s.net := rfl
@[simp] theorem setPort_host (p : Nat) (v : Port) : (s.setPort p v).host = s.host := rfl
@[simp] theorem setPort_warden (p : Nat) (v : Port) : (s.setPort p v).warden = s.warden := rfl

@[simp] theorem modNet_pending (f : Net → Net) : (s.modNet f).pending = s.pending := rfl
@[simp] theorem modNet_freeCtr (f : Net → Net) : (s.modNet f).freeCtr = s.freeCtr := rfl
@[simp] theorem modNet_now (f : Net → Net) : (s.modNet f).now = s.now := rfl
@[simp] theorem modNet_regs (f : Net → Net) : (s.modNet f).regs = s.regs := rfl
@[simp] theorem modNet_halves (f : Net → Net) : (s.modNet f).halves = s.halves := rfl
@[simp] theorem modNet_mem (f : Net → Net) : (s.modNet f).mem = s.mem := rfl
@[simp] theorem modNet_spMark (f : Net → Net) : (s.modNet f).spMark = s.spMark := rfl
@[simp] theorem modNet_fastSyn (f : Net → Net) : (s.modNet f).fastSyn = s.fastSyn := rfl
@[simp] theorem modNet_slowSyn (f : Net → Net) : (s.modNet f).slowSyn = s.slowSyn := rfl
@[simp] theorem modNet_slowA (f : Net → Net) : (s.modNet f).slowA = s.slowA := rfl
@[simp] theorem modNet_slowB (f : Net → Net) : (s.modNet f).slowB = s.slowB := rfl
@[simp] theorem modNet_valid (f : Net → Net) : (s.modNet f).valid = s.valid := rfl
@[simp] theorem modNet_summary (f : Net → Net) : (s.modNet f).summary = s.summary := rfl
@[simp] theorem modNet_segs (f : Net → Net) : (s.modNet f).segs = s.segs := rfl
@[simp] theorem modNet_cores (f : Net → Net) : (s.modNet f).cores = s.cores := rfl
@[simp] theorem modNet_vaults (f : Net → Net) : (s.modNet f).vaults = s.vaults := rfl
@[simp] theorem modNet_stackMap (f : Net → Net) : (s.modNet f).stackMap = s.stackMap := rfl
@[simp] theorem modNet_bilo (f : Net → Net) : (s.modNet f).bilo = s.bilo := rfl
@[simp] theorem modNet_host (f : Net → Net) : (s.modNet f).host = s.host := rfl
@[simp] theorem modNet_warden (f : Net → Net) : (s.modNet f).warden = s.warden := rfl

@[simp] theorem modBilo_pending (f : Bilo → Bilo) : (s.modBilo f).pending = s.pending := rfl
@[simp] theorem modBilo_freeCtr (f : Bilo → Bilo) : (s.modBilo f).freeCtr = s.freeCtr := rfl
@[simp] theorem modBilo_now (f : Bilo → Bilo) : (s.modBilo f).now = s.now := rfl
@[simp] theorem modBilo_regs (f : Bilo → Bilo) : (s.modBilo f).regs = s.regs := rfl
@[simp] theorem modBilo_halves (f : Bilo → Bilo) : (s.modBilo f).halves = s.halves := rfl
@[simp] theorem modBilo_mem (f : Bilo → Bilo) : (s.modBilo f).mem = s.mem := rfl
@[simp] theorem modBilo_spMark (f : Bilo → Bilo) : (s.modBilo f).spMark = s.spMark := rfl
@[simp] theorem modBilo_fastSyn (f : Bilo → Bilo) : (s.modBilo f).fastSyn = s.fastSyn := rfl
@[simp] theorem modBilo_slowSyn (f : Bilo → Bilo) : (s.modBilo f).slowSyn = s.slowSyn := rfl
@[simp] theorem modBilo_slowA (f : Bilo → Bilo) : (s.modBilo f).slowA = s.slowA := rfl
@[simp] theorem modBilo_slowB (f : Bilo → Bilo) : (s.modBilo f).slowB = s.slowB := rfl
@[simp] theorem modBilo_valid (f : Bilo → Bilo) : (s.modBilo f).valid = s.valid := rfl
@[simp] theorem modBilo_summary (f : Bilo → Bilo) : (s.modBilo f).summary = s.summary := rfl
@[simp] theorem modBilo_segs (f : Bilo → Bilo) : (s.modBilo f).segs = s.segs := rfl
@[simp] theorem modBilo_cores (f : Bilo → Bilo) : (s.modBilo f).cores = s.cores := rfl
@[simp] theorem modBilo_vaults (f : Bilo → Bilo) : (s.modBilo f).vaults = s.vaults := rfl
@[simp] theorem modBilo_stackMap (f : Bilo → Bilo) : (s.modBilo f).stackMap = s.stackMap := rfl
@[simp] theorem modBilo_net (f : Bilo → Bilo) : (s.modBilo f).net = s.net := rfl
@[simp] theorem modBilo_host (f : Bilo → Bilo) : (s.modBilo f).host = s.host := rfl
@[simp] theorem modBilo_warden (f : Bilo → Bilo) : (s.modBilo f).warden = s.warden := rfl

@[simp] theorem modHost_pending (f : HostSide → HostSide) : (s.modHost f).pending = s.pending := rfl
@[simp] theorem modHost_freeCtr (f : HostSide → HostSide) : (s.modHost f).freeCtr = s.freeCtr := rfl
@[simp] theorem modHost_now (f : HostSide → HostSide) : (s.modHost f).now = s.now := rfl
@[simp] theorem modHost_regs (f : HostSide → HostSide) : (s.modHost f).regs = s.regs := rfl
@[simp] theorem modHost_halves (f : HostSide → HostSide) : (s.modHost f).halves = s.halves := rfl
@[simp] theorem modHost_mem (f : HostSide → HostSide) : (s.modHost f).mem = s.mem := rfl
@[simp] theorem modHost_spMark (f : HostSide → HostSide) : (s.modHost f).spMark = s.spMark := rfl
@[simp] theorem modHost_fastSyn (f : HostSide → HostSide) : (s.modHost f).fastSyn = s.fastSyn := rfl
@[simp] theorem modHost_slowSyn (f : HostSide → HostSide) : (s.modHost f).slowSyn = s.slowSyn := rfl
@[simp] theorem modHost_slowA (f : HostSide → HostSide) : (s.modHost f).slowA = s.slowA := rfl
@[simp] theorem modHost_slowB (f : HostSide → HostSide) : (s.modHost f).slowB = s.slowB := rfl
@[simp] theorem modHost_valid (f : HostSide → HostSide) : (s.modHost f).valid = s.valid := rfl
@[simp] theorem modHost_summary (f : HostSide → HostSide) : (s.modHost f).summary = s.summary := rfl
@[simp] theorem modHost_segs (f : HostSide → HostSide) : (s.modHost f).segs = s.segs := rfl
@[simp] theorem modHost_cores (f : HostSide → HostSide) : (s.modHost f).cores = s.cores := rfl
@[simp] theorem modHost_vaults (f : HostSide → HostSide) : (s.modHost f).vaults = s.vaults := rfl
@[simp] theorem modHost_stackMap (f : HostSide → HostSide) : (s.modHost f).stackMap = s.stackMap := rfl
@[simp] theorem modHost_net (f : HostSide → HostSide) : (s.modHost f).net = s.net := rfl
@[simp] theorem modHost_bilo (f : HostSide → HostSide) : (s.modHost f).bilo = s.bilo := rfl
@[simp] theorem modHost_warden (f : HostSide → HostSide) : (s.modHost f).warden = s.warden := rfl

@[simp] theorem modWarden_pending (f : Warden → Warden) : (s.modWarden f).pending = s.pending := rfl
@[simp] theorem modWarden_freeCtr (f : Warden → Warden) : (s.modWarden f).freeCtr = s.freeCtr := rfl
@[simp] theorem modWarden_now (f : Warden → Warden) : (s.modWarden f).now = s.now := rfl
@[simp] theorem modWarden_regs (f : Warden → Warden) : (s.modWarden f).regs = s.regs := rfl
@[simp] theorem modWarden_halves (f : Warden → Warden) : (s.modWarden f).halves = s.halves := rfl
@[simp] theorem modWarden_mem (f : Warden → Warden) : (s.modWarden f).mem = s.mem := rfl
@[simp] theorem modWarden_spMark (f : Warden → Warden) : (s.modWarden f).spMark = s.spMark := rfl
@[simp] theorem modWarden_fastSyn (f : Warden → Warden) : (s.modWarden f).fastSyn = s.fastSyn := rfl
@[simp] theorem modWarden_slowSyn (f : Warden → Warden) : (s.modWarden f).slowSyn = s.slowSyn := rfl
@[simp] theorem modWarden_slowA (f : Warden → Warden) : (s.modWarden f).slowA = s.slowA := rfl
@[simp] theorem modWarden_slowB (f : Warden → Warden) : (s.modWarden f).slowB = s.slowB := rfl
@[simp] theorem modWarden_valid (f : Warden → Warden) : (s.modWarden f).valid = s.valid := rfl
@[simp] theorem modWarden_summary (f : Warden → Warden) : (s.modWarden f).summary = s.summary := rfl
@[simp] theorem modWarden_segs (f : Warden → Warden) : (s.modWarden f).segs = s.segs := rfl
@[simp] theorem modWarden_cores (f : Warden → Warden) : (s.modWarden f).cores = s.cores := rfl
@[simp] theorem modWarden_vaults (f : Warden → Warden) : (s.modWarden f).vaults = s.vaults := rfl
@[simp] theorem modWarden_stackMap (f : Warden → Warden) : (s.modWarden f).stackMap = s.stackMap := rfl
@[simp] theorem modWarden_net (f : Warden → Warden) : (s.modWarden f).net = s.net := rfl
@[simp] theorem modWarden_bilo (f : Warden → Warden) : (s.modWarden f).bilo = s.bilo := rfl
@[simp] theorem modWarden_host (f : Warden → Warden) : (s.modWarden f).host = s.host := rfl

@[simp] theorem modFlash_pending (f : Flash → Flash) : (s.modFlash f).pending = s.pending := rfl
@[simp] theorem modFlash_freeCtr (f : Flash → Flash) : (s.modFlash f).freeCtr = s.freeCtr := rfl
@[simp] theorem modFlash_now (f : Flash → Flash) : (s.modFlash f).now = s.now := rfl
@[simp] theorem modFlash_regs (f : Flash → Flash) : (s.modFlash f).regs = s.regs := rfl
@[simp] theorem modFlash_halves (f : Flash → Flash) : (s.modFlash f).halves = s.halves := rfl
@[simp] theorem modFlash_mem (f : Flash → Flash) : (s.modFlash f).mem = s.mem := rfl
@[simp] theorem modFlash_spMark (f : Flash → Flash) : (s.modFlash f).spMark = s.spMark := rfl
@[simp] theorem modFlash_fastSyn (f : Flash → Flash) : (s.modFlash f).fastSyn = s.fastSyn := rfl
@[simp] theorem modFlash_slowSyn (f : Flash → Flash) : (s.modFlash f).slowSyn = s.slowSyn := rfl
@[simp] theorem modFlash_slowA (f : Flash → Flash) : (s.modFlash f).slowA = s.slowA := rfl
@[simp] theorem modFlash_slowB (f : Flash → Flash) : (s.modFlash f).slowB = s.slowB := rfl
@[simp] theorem modFlash_valid (f : Flash → Flash) : (s.modFlash f).valid = s.valid := rfl
@[simp] theorem modFlash_summary (f : Flash → Flash) : (s.modFlash f).summary = s.summary := rfl
@[simp] theorem modFlash_segs (f : Flash → Flash) : (s.modFlash f).segs = s.segs := rfl
@[simp] theorem modFlash_cores (f : Flash → Flash) : (s.modFlash f).cores = s.cores := rfl
@[simp] theorem modFlash_vaults (f : Flash → Flash) : (s.modFlash f).vaults = s.vaults := rfl
@[simp] theorem modFlash_stackMap (f : Flash → Flash) : (s.modFlash f).stackMap = s.stackMap := rfl
@[simp] theorem modFlash_net (f : Flash → Flash) : (s.modFlash f).net = s.net := rfl
@[simp] theorem modFlash_bilo (f : Flash → Flash) : (s.modFlash f).bilo = s.bilo := rfl
@[simp] theorem modFlash_host (f : Flash → Flash) : (s.modFlash f).host = s.host := rfl

@[simp] theorem setBytes_pending (a : Nat) (bs : List Byte) : (s.setBytes a bs).pending = s.pending := rfl
@[simp] theorem setBytes_freeCtr (a : Nat) (bs : List Byte) : (s.setBytes a bs).freeCtr = s.freeCtr := rfl
@[simp] theorem setBytes_now (a : Nat) (bs : List Byte) : (s.setBytes a bs).now = s.now := rfl
@[simp] theorem setBytes_regs (a : Nat) (bs : List Byte) : (s.setBytes a bs).regs = s.regs := rfl
@[simp] theorem setBytes_halves (a : Nat) (bs : List Byte) : (s.setBytes a bs).halves = s.halves := rfl
@[simp] theorem setBytes_spMark (a : Nat) (bs : List Byte) : (s.setBytes a bs).spMark = s.spMark := rfl
@[simp] theorem setBytes_fastSyn (a : Nat) (bs : List Byte) : (s.setBytes a bs).fastSyn = s.fastSyn := rfl
@[simp] theorem setBytes_slowSyn (a : Nat) (bs : List Byte) : (s.setBytes a bs).slowSyn = s.slowSyn := rfl
@[simp] theorem setBytes_slowA (a : Nat) (bs : List Byte) : (s.setBytes a bs).slowA = s.slowA := rfl
@[simp] theorem setBytes_slowB (a : Nat) (bs : List Byte) : (s.setBytes a bs).slowB = s.slowB := rfl
@[simp] theorem setBytes_valid (a : Nat) (bs : List Byte) : (s.setBytes a bs).valid = s.valid := rfl
@[simp] theorem setBytes_summary (a : Nat) (bs : List Byte) : (s.setBytes a bs).summary = s.summary := rfl
@[simp] theorem setBytes_segs (a : Nat) (bs : List Byte) : (s.setBytes a bs).segs = s.segs := rfl
@[simp] theorem setBytes_cores (a : Nat) (bs : List Byte) : (s.setBytes a bs).cores = s.cores := rfl
@[simp] theorem setBytes_vaults (a : Nat) (bs : List Byte) : (s.setBytes a bs).vaults = s.vaults := rfl
@[simp] theorem setBytes_stackMap (a : Nat) (bs : List Byte) : (s.setBytes a bs).stackMap = s.stackMap := rfl
@[simp] theorem setBytes_net (a : Nat) (bs : List Byte) : (s.setBytes a bs).net = s.net := rfl
@[simp] theorem setBytes_bilo (a : Nat) (bs : List Byte) : (s.setBytes a bs).bilo = s.bilo := rfl
@[simp] theorem setBytes_host (a : Nat) (bs : List Byte) : (s.setBytes a bs).host = s.host := rfl
@[simp] theorem setBytes_warden (a : Nat) (bs : List Byte) : (s.setBytes a bs).warden = s.warden := rfl

@[simp] theorem zeroBytes_pending (lo hi : Nat) : (s.zeroBytes lo hi).pending = s.pending := rfl
@[simp] theorem zeroBytes_freeCtr (lo hi : Nat) : (s.zeroBytes lo hi).freeCtr = s.freeCtr := rfl
@[simp] theorem zeroBytes_now (lo hi : Nat) : (s.zeroBytes lo hi).now = s.now := rfl
@[simp] theorem zeroBytes_regs (lo hi : Nat) : (s.zeroBytes lo hi).regs = s.regs := rfl
@[simp] theorem zeroBytes_halves (lo hi : Nat) : (s.zeroBytes lo hi).halves = s.halves := rfl
@[simp] theorem zeroBytes_spMark (lo hi : Nat) : (s.zeroBytes lo hi).spMark = s.spMark := rfl
@[simp] theorem zeroBytes_fastSyn (lo hi : Nat) : (s.zeroBytes lo hi).fastSyn = s.fastSyn := rfl
@[simp] theorem zeroBytes_slowSyn (lo hi : Nat) : (s.zeroBytes lo hi).slowSyn = s.slowSyn := rfl
@[simp] theorem zeroBytes_slowA (lo hi : Nat) : (s.zeroBytes lo hi).slowA = s.slowA := rfl
@[simp] theorem zeroBytes_slowB (lo hi : Nat) : (s.zeroBytes lo hi).slowB = s.slowB := rfl
@[simp] theorem zeroBytes_valid (lo hi : Nat) : (s.zeroBytes lo hi).valid = s.valid := rfl
@[simp] theorem zeroBytes_summary (lo hi : Nat) : (s.zeroBytes lo hi).summary = s.summary := rfl
@[simp] theorem zeroBytes_segs (lo hi : Nat) : (s.zeroBytes lo hi).segs = s.segs := rfl
@[simp] theorem zeroBytes_cores (lo hi : Nat) : (s.zeroBytes lo hi).cores = s.cores := rfl
@[simp] theorem zeroBytes_vaults (lo hi : Nat) : (s.zeroBytes lo hi).vaults = s.vaults := rfl
@[simp] theorem zeroBytes_stackMap (lo hi : Nat) : (s.zeroBytes lo hi).stackMap = s.stackMap := rfl
@[simp] theorem zeroBytes_net (lo hi : Nat) : (s.zeroBytes lo hi).net = s.net := rfl
@[simp] theorem zeroBytes_bilo (lo hi : Nat) : (s.zeroBytes lo hi).bilo = s.bilo := rfl
@[simp] theorem zeroBytes_host (lo hi : Nat) : (s.zeroBytes lo hi).host = s.host := rfl
@[simp] theorem zeroBytes_warden (lo hi : Nat) : (s.zeroBytes lo hi).warden = s.warden := rfl

@[simp] theorem setReg_pending (a : Nat) (v : W64) : (s.setReg a v).pending = s.pending := rfl
@[simp] theorem setReg_freeCtr (a : Nat) (v : W64) : (s.setReg a v).freeCtr = s.freeCtr := rfl
@[simp] theorem setReg_now (a : Nat) (v : W64) : (s.setReg a v).now = s.now := rfl
@[simp] theorem setReg_halves (a : Nat) (v : W64) : (s.setReg a v).halves = s.halves := rfl
@[simp] theorem setReg_mem (a : Nat) (v : W64) : (s.setReg a v).mem = s.mem := rfl
@[simp] theorem setReg_spMark (a : Nat) (v : W64) : (s.setReg a v).spMark = s.spMark := rfl
@[simp] theorem setReg_fastSyn (a : Nat) (v : W64) : (s.setReg a v).fastSyn = s.fastSyn := rfl
@[simp] theorem setReg_slowSyn (a : Nat) (v : W64) : (s.setReg a v).slowSyn = s.slowSyn := rfl
@[simp] theorem setReg_slowA (a : Nat) (v : W64) : (s.setReg a v).slowA = s.slowA := rfl
@[simp] theorem setReg_slowB (a : Nat) (v : W64) : (s.setReg a v).slowB = s.slowB := rfl
@[simp] theorem setReg_valid (a : Nat) (v : W64) : (s.setReg a v).valid = s.valid := rfl
@[simp] theorem setReg_summary (a : Nat) (v : W64) : (s.setReg a v).summary = s.summary := rfl
@[simp] theorem setReg_segs (a : Nat) (v : W64) : (s.setReg a v).segs = s.segs := rfl
@[simp] theorem setReg_cores (a : Nat) (v : W64) : (s.setReg a v).cores = s.cores := rfl
@[simp] theorem setReg_vaults (a : Nat) (v : W64) : (s.setReg a v).vaults = s.vaults := rfl
@[simp] theorem setReg_stackMap (a : Nat) (v : W64) : (s.setReg a v).stackMap = s.stackMap := rfl
@[simp] theorem setReg_net (a : Nat) (v : W64) : (s.setReg a v).net = s.net := rfl
@[simp] theorem setReg_bilo (a : Nat) (v : W64) : (s.setReg a v).bilo = s.bilo := rfl
@[simp] theorem setReg_host (a : Nat) (v : W64) : (s.setReg a v).host = s.host := rfl
@[simp] theorem setReg_warden (a : Nat) (v : W64) : (s.setReg a v).warden = s.warden := rfl

@[simp] theorem setFld_pending (a hi lo n : Nat) : (s.setFld a hi lo n).pending = s.pending := rfl
@[simp] theorem setFld_freeCtr (a hi lo n : Nat) : (s.setFld a hi lo n).freeCtr = s.freeCtr := rfl
@[simp] theorem setFld_now (a hi lo n : Nat) : (s.setFld a hi lo n).now = s.now := rfl
@[simp] theorem setFld_halves (a hi lo n : Nat) : (s.setFld a hi lo n).halves = s.halves := rfl
@[simp] theorem setFld_mem (a hi lo n : Nat) : (s.setFld a hi lo n).mem = s.mem := rfl
@[simp] theorem setFld_spMark (a hi lo n : Nat) : (s.setFld a hi lo n).spMark = s.spMark := rfl
@[simp] theorem setFld_fastSyn (a hi lo n : Nat) : (s.setFld a hi lo n).fastSyn = s.fastSyn := rfl
@[simp] theorem setFld_slowSyn (a hi lo n : Nat) : (s.setFld a hi lo n).slowSyn = s.slowSyn := rfl
@[simp] theorem setFld_slowA (a hi lo n : Nat) : (s.setFld a hi lo n).slowA = s.slowA := rfl
@[simp] theorem setFld_slowB (a hi lo n : Nat) : (s.setFld a hi lo n).slowB = s.slowB := rfl
@[simp] theorem setFld_valid (a hi lo n : Nat) : (s.setFld a hi lo n).valid = s.valid := rfl
@[simp] theorem setFld_summary (a hi lo n : Nat) : (s.setFld a hi lo n).summary = s.summary := rfl
@[simp] theorem setFld_segs (a hi lo n : Nat) : (s.setFld a hi lo n).segs = s.segs := rfl
@[simp] theorem setFld_cores (a hi lo n : Nat) : (s.setFld a hi lo n).cores = s.cores := rfl
@[simp] theorem setFld_vaults (a hi lo n : Nat) : (s.setFld a hi lo n).vaults = s.vaults := rfl
@[simp] theorem setFld_stackMap (a hi lo n : Nat) : (s.setFld a hi lo n).stackMap = s.stackMap := rfl
@[simp] theorem setFld_net (a hi lo n : Nat) : (s.setFld a hi lo n).net = s.net := rfl
@[simp] theorem setFld_bilo (a hi lo n : Nat) : (s.setFld a hi lo n).bilo = s.bilo := rfl
@[simp] theorem setFld_host (a hi lo n : Nat) : (s.setFld a hi lo n).host = s.host := rfl
@[simp] theorem setFld_warden (a hi lo n : Nat) : (s.setFld a hi lo n).warden = s.warden := rfl

@[simp] theorem setBit_pending (a b : Nat) (v : Bool) : (s.setBit a b v).pending = s.pending := rfl
@[simp] theorem setBit_freeCtr (a b : Nat) (v : Bool) : (s.setBit a b v).freeCtr = s.freeCtr := rfl
@[simp] theorem setBit_now (a b : Nat) (v : Bool) : (s.setBit a b v).now = s.now := rfl
@[simp] theorem setBit_halves (a b : Nat) (v : Bool) : (s.setBit a b v).halves = s.halves := rfl
@[simp] theorem setBit_mem (a b : Nat) (v : Bool) : (s.setBit a b v).mem = s.mem := rfl
@[simp] theorem setBit_spMark (a b : Nat) (v : Bool) : (s.setBit a b v).spMark = s.spMark := rfl
@[simp] theorem setBit_fastSyn (a b : Nat) (v : Bool) : (s.setBit a b v).fastSyn = s.fastSyn := rfl
@[simp] theorem setBit_slowSyn (a b : Nat) (v : Bool) : (s.setBit a b v).slowSyn = s.slowSyn := rfl
@[simp] theorem setBit_slowA (a b : Nat) (v : Bool) : (s.setBit a b v).slowA = s.slowA := rfl
@[simp] theorem setBit_slowB (a b : Nat) (v : Bool) : (s.setBit a b v).slowB = s.slowB := rfl
@[simp] theorem setBit_valid (a b : Nat) (v : Bool) : (s.setBit a b v).valid = s.valid := rfl
@[simp] theorem setBit_summary (a b : Nat) (v : Bool) : (s.setBit a b v).summary = s.summary := rfl
@[simp] theorem setBit_segs (a b : Nat) (v : Bool) : (s.setBit a b v).segs = s.segs := rfl
@[simp] theorem setBit_cores (a b : Nat) (v : Bool) : (s.setBit a b v).cores = s.cores := rfl
@[simp] theorem setBit_vaults (a b : Nat) (v : Bool) : (s.setBit a b v).vaults = s.vaults := rfl
@[simp] theorem setBit_stackMap (a b : Nat) (v : Bool) : (s.setBit a b v).stackMap = s.stackMap := rfl
@[simp] theorem setBit_net (a b : Nat) (v : Bool) : (s.setBit a b v).net = s.net := rfl
@[simp] theorem setBit_bilo (a b : Nat) (v : Bool) : (s.setBit a b v).bilo = s.bilo := rfl
@[simp] theorem setBit_host (a b : Nat) (v : Bool) : (s.setBit a b v).host = s.host := rfl
@[simp] theorem setBit_warden (a b : Nat) (v : Bool) : (s.setBit a b v).warden = s.warden := rfl

@[simp] theorem addSat_pending (a hi lo n : Nat) : (s.addSat a hi lo n).pending = s.pending := rfl
@[simp] theorem addSat_freeCtr (a hi lo n : Nat) : (s.addSat a hi lo n).freeCtr = s.freeCtr := rfl
@[simp] theorem addSat_now (a hi lo n : Nat) : (s.addSat a hi lo n).now = s.now := rfl
@[simp] theorem addSat_halves (a hi lo n : Nat) : (s.addSat a hi lo n).halves = s.halves := rfl
@[simp] theorem addSat_mem (a hi lo n : Nat) : (s.addSat a hi lo n).mem = s.mem := rfl
@[simp] theorem addSat_spMark (a hi lo n : Nat) : (s.addSat a hi lo n).spMark = s.spMark := rfl
@[simp] theorem addSat_fastSyn (a hi lo n : Nat) : (s.addSat a hi lo n).fastSyn = s.fastSyn := rfl
@[simp] theorem addSat_slowSyn (a hi lo n : Nat) : (s.addSat a hi lo n).slowSyn = s.slowSyn := rfl
@[simp] theorem addSat_slowA (a hi lo n : Nat) : (s.addSat a hi lo n).slowA = s.slowA := rfl
@[simp] theorem addSat_slowB (a hi lo n : Nat) : (s.addSat a hi lo n).slowB = s.slowB := rfl
@[simp] theorem addSat_valid (a hi lo n : Nat) : (s.addSat a hi lo n).valid = s.valid := rfl
@[simp] theorem addSat_summary (a hi lo n : Nat) : (s.addSat a hi lo n).summary = s.summary := rfl
@[simp] theorem addSat_segs (a hi lo n : Nat) : (s.addSat a hi lo n).segs = s.segs := rfl
@[simp] theorem addSat_cores (a hi lo n : Nat) : (s.addSat a hi lo n).cores = s.cores := rfl
@[simp] theorem addSat_vaults (a hi lo n : Nat) : (s.addSat a hi lo n).vaults = s.vaults := rfl
@[simp] theorem addSat_stackMap (a hi lo n : Nat) : (s.addSat a hi lo n).stackMap = s.stackMap := rfl
@[simp] theorem addSat_net (a hi lo n : Nat) : (s.addSat a hi lo n).net = s.net := rfl
@[simp] theorem addSat_bilo (a hi lo n : Nat) : (s.addSat a hi lo n).bilo = s.bilo := rfl
@[simp] theorem addSat_host (a hi lo n : Nat) : (s.addSat a hi lo n).host = s.host := rfl
@[simp] theorem addSat_warden (a hi lo n : Nat) : (s.addSat a hi lo n).warden = s.warden := rfl

@[simp] theorem count_pending (a n : Nat) : (s.count a n).pending = s.pending := rfl
@[simp] theorem count_freeCtr (a n : Nat) : (s.count a n).freeCtr = s.freeCtr := rfl
@[simp] theorem count_now (a n : Nat) : (s.count a n).now = s.now := rfl
@[simp] theorem count_halves (a n : Nat) : (s.count a n).halves = s.halves := rfl
@[simp] theorem count_mem (a n : Nat) : (s.count a n).mem = s.mem := rfl
@[simp] theorem count_spMark (a n : Nat) : (s.count a n).spMark = s.spMark := rfl
@[simp] theorem count_fastSyn (a n : Nat) : (s.count a n).fastSyn = s.fastSyn := rfl
@[simp] theorem count_slowSyn (a n : Nat) : (s.count a n).slowSyn = s.slowSyn := rfl
@[simp] theorem count_slowA (a n : Nat) : (s.count a n).slowA = s.slowA := rfl
@[simp] theorem count_slowB (a n : Nat) : (s.count a n).slowB = s.slowB := rfl
@[simp] theorem count_valid (a n : Nat) : (s.count a n).valid = s.valid := rfl
@[simp] theorem count_summary (a n : Nat) : (s.count a n).summary = s.summary := rfl
@[simp] theorem count_segs (a n : Nat) : (s.count a n).segs = s.segs := rfl
@[simp] theorem count_cores (a n : Nat) : (s.count a n).cores = s.cores := rfl
@[simp] theorem count_vaults (a n : Nat) : (s.count a n).vaults = s.vaults := rfl
@[simp] theorem count_stackMap (a n : Nat) : (s.count a n).stackMap = s.stackMap := rfl
@[simp] theorem count_net (a n : Nat) : (s.count a n).net = s.net := rfl
@[simp] theorem count_bilo (a n : Nat) : (s.count a n).bilo = s.bilo := rfl
@[simp] theorem count_host (a n : Nat) : (s.count a n).host = s.host := rfl
@[simp] theorem count_warden (a n : Nat) : (s.count a n).warden = s.warden := rfl

@[simp] theorem orReg_pending (a : Nat) (v : W64) : (s.orReg a v).pending = s.pending := rfl
@[simp] theorem orReg_freeCtr (a : Nat) (v : W64) : (s.orReg a v).freeCtr = s.freeCtr := rfl
@[simp] theorem orReg_now (a : Nat) (v : W64) : (s.orReg a v).now = s.now := rfl
@[simp] theorem orReg_halves (a : Nat) (v : W64) : (s.orReg a v).halves = s.halves := rfl
@[simp] theorem orReg_mem (a : Nat) (v : W64) : (s.orReg a v).mem = s.mem := rfl
@[simp] theorem orReg_spMark (a : Nat) (v : W64) : (s.orReg a v).spMark = s.spMark := rfl
@[simp] theorem orReg_fastSyn (a : Nat) (v : W64) : (s.orReg a v).fastSyn = s.fastSyn := rfl
@[simp] theorem orReg_slowSyn (a : Nat) (v : W64) : (s.orReg a v).slowSyn = s.slowSyn := rfl
@[simp] theorem orReg_slowA (a : Nat) (v : W64) : (s.orReg a v).slowA = s.slowA := rfl
@[simp] theorem orReg_slowB (a : Nat) (v : W64) : (s.orReg a v).slowB = s.slowB := rfl
@[simp] theorem orReg_valid (a : Nat) (v : W64) : (s.orReg a v).valid = s.valid := rfl
@[simp] theorem orReg_summary (a : Nat) (v : W64) : (s.orReg a v).summary = s.summary := rfl
@[simp] theorem orReg_segs (a : Nat) (v : W64) : (s.orReg a v).segs = s.segs := rfl
@[simp] theorem orReg_cores (a : Nat) (v : W64) : (s.orReg a v).cores = s.cores := rfl
@[simp] theorem orReg_vaults (a : Nat) (v : W64) : (s.orReg a v).vaults = s.vaults := rfl
@[simp] theorem orReg_stackMap (a : Nat) (v : W64) : (s.orReg a v).stackMap = s.stackMap := rfl
@[simp] theorem orReg_net (a : Nat) (v : W64) : (s.orReg a v).net = s.net := rfl
@[simp] theorem orReg_bilo (a : Nat) (v : W64) : (s.orReg a v).bilo = s.bilo := rfl
@[simp] theorem orReg_host (a : Nat) (v : W64) : (s.orReg a v).host = s.host := rfl
@[simp] theorem orReg_warden (a : Nat) (v : W64) : (s.orReg a v).warden = s.warden := rfl

@[simp] theorem crier_pending (m : Crier) : (s.crier m).pending = s.pending := rfl
@[simp] theorem crier_freeCtr (m : Crier) : (s.crier m).freeCtr = s.freeCtr := rfl
@[simp] theorem crier_now (m : Crier) : (s.crier m).now = s.now := rfl
@[simp] theorem crier_regs (m : Crier) : (s.crier m).regs = s.regs := rfl
@[simp] theorem crier_halves (m : Crier) : (s.crier m).halves = s.halves := rfl
@[simp] theorem crier_mem (m : Crier) : (s.crier m).mem = s.mem := rfl
@[simp] theorem crier_spMark (m : Crier) : (s.crier m).spMark = s.spMark := rfl
@[simp] theorem crier_fastSyn (m : Crier) : (s.crier m).fastSyn = s.fastSyn := rfl
@[simp] theorem crier_slowSyn (m : Crier) : (s.crier m).slowSyn = s.slowSyn := rfl
@[simp] theorem crier_slowA (m : Crier) : (s.crier m).slowA = s.slowA := rfl
@[simp] theorem crier_slowB (m : Crier) : (s.crier m).slowB = s.slowB := rfl
@[simp] theorem crier_valid (m : Crier) : (s.crier m).valid = s.valid := rfl
@[simp] theorem crier_summary (m : Crier) : (s.crier m).summary = s.summary := rfl
@[simp] theorem crier_segs (m : Crier) : (s.crier m).segs = s.segs := rfl
@[simp] theorem crier_cores (m : Crier) : (s.crier m).cores = s.cores := rfl
@[simp] theorem crier_vaults (m : Crier) : (s.crier m).vaults = s.vaults := rfl
@[simp] theorem crier_stackMap (m : Crier) : (s.crier m).stackMap = s.stackMap := rfl
@[simp] theorem crier_bilo (m : Crier) : (s.crier m).bilo = s.bilo := rfl
@[simp] theorem crier_host (m : Crier) : (s.crier m).host = s.host := rfl
@[simp] theorem crier_warden (m : Crier) : (s.crier m).warden = s.warden := rfl

/-! ### Accessors an update leaves -/

@[simp] theorem setCore_vault (c : Nat) (k : Core) (d : Nat) : (s.setCore c k).vault d = s.vault d := rfl
@[simp] theorem setCore_stack (c : Nat) (k : Core) (d : Nat) : (s.setCore c k).stack d = s.stack d := rfl
@[simp] theorem setCore_seg (c : Nat) (k : Core) (d : Nat) : (s.setCore c k).seg d = s.seg d := rfl
@[simp] theorem setCore_port (c : Nat) (k : Core) (d : Nat) : (s.setCore c k).port d = s.port d := rfl
@[simp] theorem setCore_byte (c : Nat) (k : Core) (d : Nat) : (s.setCore c k).byte d = s.byte d := rfl
@[simp] theorem setCore_reg (c : Nat) (k : Core) (d : Nat) : (s.setCore c k).reg d = s.reg d := rfl
@[simp] theorem setCore_fld (c : Nat) (k : Core) (d x y : Nat) : (s.setCore c k).fld d x y = s.fld d x y := rfl
@[simp] theorem setCore_bit (c : Nat) (k : Core) (d x : Nat) : (s.setCore c k).bit d x = s.bit d x := rfl

@[simp] theorem modCore_vault (c : Nat) (f : Core → Core) (d : Nat) : (s.modCore c f).vault d = s.vault d := rfl
@[simp] theorem modCore_stack (c : Nat) (f : Core → Core) (d : Nat) : (s.modCore c f).stack d = s.stack d := rfl
@[simp] theorem modCore_seg (c : Nat) (f : Core → Core) (d : Nat) : (s.modCore c f).seg d = s.seg d := rfl
@[simp] theorem modCore_port (c : Nat) (f : Core → Core) (d : Nat) : (s.modCore c f).port d = s.port d := rfl
@[simp] theorem modCore_byte (c : Nat) (f : Core → Core) (d : Nat) : (s.modCore c f).byte d = s.byte d := rfl
@[simp] theorem modCore_reg (c : Nat) (f : Core → Core) (d : Nat) : (s.modCore c f).reg d = s.reg d := rfl
@[simp] theorem modCore_fld (c : Nat) (f : Core → Core) (d x y : Nat) : (s.modCore c f).fld d x y = s.fld d x y := rfl
@[simp] theorem modCore_bit (c : Nat) (f : Core → Core) (d x : Nat) : (s.modCore c f).bit d x = s.bit d x := rfl

@[simp] theorem setVault_core (c : Nat) (v : Vault) (d : Nat) : (s.setVault c v).core d = s.core d := rfl
@[simp] theorem setVault_stack (c : Nat) (v : Vault) (d : Nat) : (s.setVault c v).stack d = s.stack d := rfl
@[simp] theorem setVault_seg (c : Nat) (v : Vault) (d : Nat) : (s.setVault c v).seg d = s.seg d := rfl
@[simp] theorem setVault_port (c : Nat) (v : Vault) (d : Nat) : (s.setVault c v).port d = s.port d := rfl
@[simp] theorem setVault_byte (c : Nat) (v : Vault) (d : Nat) : (s.setVault c v).byte d = s.byte d := rfl
@[simp] theorem setVault_reg (c : Nat) (v : Vault) (d : Nat) : (s.setVault c v).reg d = s.reg d := rfl
@[simp] theorem setVault_fld (c : Nat) (v : Vault) (d x y : Nat) : (s.setVault c v).fld d x y = s.fld d x y := rfl
@[simp] theorem setVault_bit (c : Nat) (v : Vault) (d x : Nat) : (s.setVault c v).bit d x = s.bit d x := rfl

@[simp] theorem modVault_core (c : Nat) (f : Vault → Vault) (d : Nat) : (s.modVault c f).core d = s.core d := rfl
@[simp] theorem modVault_stack (c : Nat) (f : Vault → Vault) (d : Nat) : (s.modVault c f).stack d = s.stack d := rfl
@[simp] theorem modVault_seg (c : Nat) (f : Vault → Vault) (d : Nat) : (s.modVault c f).seg d = s.seg d := rfl
@[simp] theorem modVault_port (c : Nat) (f : Vault → Vault) (d : Nat) : (s.modVault c f).port d = s.port d := rfl
@[simp] theorem modVault_byte (c : Nat) (f : Vault → Vault) (d : Nat) : (s.modVault c f).byte d = s.byte d := rfl
@[simp] theorem modVault_reg (c : Nat) (f : Vault → Vault) (d : Nat) : (s.modVault c f).reg d = s.reg d := rfl
@[simp] theorem modVault_fld (c : Nat) (f : Vault → Vault) (d x y : Nat) : (s.modVault c f).fld d x y = s.fld d x y := rfl
@[simp] theorem modVault_bit (c : Nat) (f : Vault → Vault) (d x : Nat) : (s.modVault c f).bit d x = s.bit d x := rfl

@[simp] theorem setStack_core (t : Nat) (v : Stack) (d : Nat) : (s.setStack t v).core d = s.core d := rfl
@[simp] theorem setStack_vault (t : Nat) (v : Stack) (d : Nat) : (s.setStack t v).vault d = s.vault d := rfl
@[simp] theorem setStack_seg (t : Nat) (v : Stack) (d : Nat) : (s.setStack t v).seg d = s.seg d := rfl
@[simp] theorem setStack_port (t : Nat) (v : Stack) (d : Nat) : (s.setStack t v).port d = s.port d := rfl
@[simp] theorem setStack_byte (t : Nat) (v : Stack) (d : Nat) : (s.setStack t v).byte d = s.byte d := rfl
@[simp] theorem setStack_reg (t : Nat) (v : Stack) (d : Nat) : (s.setStack t v).reg d = s.reg d := rfl
@[simp] theorem setStack_fld (t : Nat) (v : Stack) (d x y : Nat) : (s.setStack t v).fld d x y = s.fld d x y := rfl
@[simp] theorem setStack_bit (t : Nat) (v : Stack) (d x : Nat) : (s.setStack t v).bit d x = s.bit d x := rfl

@[simp] theorem modStack_core (t : Nat) (f : Stack → Stack) (d : Nat) : (s.modStack t f).core d = s.core d := rfl
@[simp] theorem modStack_vault (t : Nat) (f : Stack → Stack) (d : Nat) : (s.modStack t f).vault d = s.vault d := rfl
@[simp] theorem modStack_seg (t : Nat) (f : Stack → Stack) (d : Nat) : (s.modStack t f).seg d = s.seg d := rfl
@[simp] theorem modStack_port (t : Nat) (f : Stack → Stack) (d : Nat) : (s.modStack t f).port d = s.port d := rfl
@[simp] theorem modStack_byte (t : Nat) (f : Stack → Stack) (d : Nat) : (s.modStack t f).byte d = s.byte d := rfl
@[simp] theorem modStack_reg (t : Nat) (f : Stack → Stack) (d : Nat) : (s.modStack t f).reg d = s.reg d := rfl
@[simp] theorem modStack_fld (t : Nat) (f : Stack → Stack) (d x y : Nat) : (s.modStack t f).fld d x y = s.fld d x y := rfl
@[simp] theorem modStack_bit (t : Nat) (f : Stack → Stack) (d x : Nat) : (s.modStack t f).bit d x = s.bit d x := rfl

@[simp] theorem setSeg_core (n : Nat) (g : Seg) (d : Nat) : (s.setSeg n g).core d = s.core d := rfl
@[simp] theorem setSeg_vault (n : Nat) (g : Seg) (d : Nat) : (s.setSeg n g).vault d = s.vault d := rfl
@[simp] theorem setSeg_stack (n : Nat) (g : Seg) (d : Nat) : (s.setSeg n g).stack d = s.stack d := rfl
@[simp] theorem setSeg_port (n : Nat) (g : Seg) (d : Nat) : (s.setSeg n g).port d = s.port d := rfl
@[simp] theorem setSeg_byte (n : Nat) (g : Seg) (d : Nat) : (s.setSeg n g).byte d = s.byte d := rfl
@[simp] theorem setSeg_reg (n : Nat) (g : Seg) (d : Nat) : (s.setSeg n g).reg d = s.reg d := rfl
@[simp] theorem setSeg_fld (n : Nat) (g : Seg) (d x y : Nat) : (s.setSeg n g).fld d x y = s.fld d x y := rfl
@[simp] theorem setSeg_bit (n : Nat) (g : Seg) (d x : Nat) : (s.setSeg n g).bit d x = s.bit d x := rfl

@[simp] theorem setPort_core (p : Nat) (v : Port) (d : Nat) : (s.setPort p v).core d = s.core d := rfl
@[simp] theorem setPort_vault (p : Nat) (v : Port) (d : Nat) : (s.setPort p v).vault d = s.vault d := rfl
@[simp] theorem setPort_stack (p : Nat) (v : Port) (d : Nat) : (s.setPort p v).stack d = s.stack d := rfl
@[simp] theorem setPort_seg (p : Nat) (v : Port) (d : Nat) : (s.setPort p v).seg d = s.seg d := rfl
@[simp] theorem setPort_byte (p : Nat) (v : Port) (d : Nat) : (s.setPort p v).byte d = s.byte d := rfl
@[simp] theorem setPort_reg (p : Nat) (v : Port) (d : Nat) : (s.setPort p v).reg d = s.reg d := rfl
@[simp] theorem setPort_fld (p : Nat) (v : Port) (d x y : Nat) : (s.setPort p v).fld d x y = s.fld d x y := rfl
@[simp] theorem setPort_bit (p : Nat) (v : Port) (d x : Nat) : (s.setPort p v).bit d x = s.bit d x := rfl

@[simp] theorem modNet_core (f : Net → Net) (d : Nat) : (s.modNet f).core d = s.core d := rfl
@[simp] theorem modNet_vault (f : Net → Net) (d : Nat) : (s.modNet f).vault d = s.vault d := rfl
@[simp] theorem modNet_stack (f : Net → Net) (d : Nat) : (s.modNet f).stack d = s.stack d := rfl
@[simp] theorem modNet_seg (f : Net → Net) (d : Nat) : (s.modNet f).seg d = s.seg d := rfl
@[simp] theorem modNet_port (f : Net → Net) (d : Nat) : (s.modNet f).port d = s.port d := rfl
@[simp] theorem modNet_byte (f : Net → Net) (d : Nat) : (s.modNet f).byte d = s.byte d := rfl
@[simp] theorem modNet_reg (f : Net → Net) (d : Nat) : (s.modNet f).reg d = s.reg d := rfl
@[simp] theorem modNet_fld (f : Net → Net) (d x y : Nat) : (s.modNet f).fld d x y = s.fld d x y := rfl
@[simp] theorem modNet_bit (f : Net → Net) (d x : Nat) : (s.modNet f).bit d x = s.bit d x := rfl

@[simp] theorem modBilo_core (f : Bilo → Bilo) (d : Nat) : (s.modBilo f).core d = s.core d := rfl
@[simp] theorem modBilo_vault (f : Bilo → Bilo) (d : Nat) : (s.modBilo f).vault d = s.vault d := rfl
@[simp] theorem modBilo_stack (f : Bilo → Bilo) (d : Nat) : (s.modBilo f).stack d = s.stack d := rfl
@[simp] theorem modBilo_seg (f : Bilo → Bilo) (d : Nat) : (s.modBilo f).seg d = s.seg d := rfl
@[simp] theorem modBilo_byte (f : Bilo → Bilo) (d : Nat) : (s.modBilo f).byte d = s.byte d := rfl
@[simp] theorem modBilo_reg (f : Bilo → Bilo) (d : Nat) : (s.modBilo f).reg d = s.reg d := rfl
@[simp] theorem modBilo_fld (f : Bilo → Bilo) (d x y : Nat) : (s.modBilo f).fld d x y = s.fld d x y := rfl
@[simp] theorem modBilo_bit (f : Bilo → Bilo) (d x : Nat) : (s.modBilo f).bit d x = s.bit d x := rfl

@[simp] theorem modHost_core (f : HostSide → HostSide) (d : Nat) : (s.modHost f).core d = s.core d := rfl
@[simp] theorem modHost_vault (f : HostSide → HostSide) (d : Nat) : (s.modHost f).vault d = s.vault d := rfl
@[simp] theorem modHost_stack (f : HostSide → HostSide) (d : Nat) : (s.modHost f).stack d = s.stack d := rfl
@[simp] theorem modHost_seg (f : HostSide → HostSide) (d : Nat) : (s.modHost f).seg d = s.seg d := rfl
@[simp] theorem modHost_port (f : HostSide → HostSide) (d : Nat) : (s.modHost f).port d = s.port d := rfl
@[simp] theorem modHost_byte (f : HostSide → HostSide) (d : Nat) : (s.modHost f).byte d = s.byte d := rfl
@[simp] theorem modHost_reg (f : HostSide → HostSide) (d : Nat) : (s.modHost f).reg d = s.reg d := rfl
@[simp] theorem modHost_fld (f : HostSide → HostSide) (d x y : Nat) : (s.modHost f).fld d x y = s.fld d x y := rfl
@[simp] theorem modHost_bit (f : HostSide → HostSide) (d x : Nat) : (s.modHost f).bit d x = s.bit d x := rfl

@[simp] theorem modWarden_core (f : Warden → Warden) (d : Nat) : (s.modWarden f).core d = s.core d := rfl
@[simp] theorem modWarden_vault (f : Warden → Warden) (d : Nat) : (s.modWarden f).vault d = s.vault d := rfl
@[simp] theorem modWarden_stack (f : Warden → Warden) (d : Nat) : (s.modWarden f).stack d = s.stack d := rfl
@[simp] theorem modWarden_seg (f : Warden → Warden) (d : Nat) : (s.modWarden f).seg d = s.seg d := rfl
@[simp] theorem modWarden_port (f : Warden → Warden) (d : Nat) : (s.modWarden f).port d = s.port d := rfl
@[simp] theorem modWarden_byte (f : Warden → Warden) (d : Nat) : (s.modWarden f).byte d = s.byte d := rfl
@[simp] theorem modWarden_reg (f : Warden → Warden) (d : Nat) : (s.modWarden f).reg d = s.reg d := rfl
@[simp] theorem modWarden_fld (f : Warden → Warden) (d x y : Nat) : (s.modWarden f).fld d x y = s.fld d x y := rfl
@[simp] theorem modWarden_bit (f : Warden → Warden) (d x : Nat) : (s.modWarden f).bit d x = s.bit d x := rfl

@[simp] theorem modFlash_core (f : Flash → Flash) (d : Nat) : (s.modFlash f).core d = s.core d := rfl
@[simp] theorem modFlash_vault (f : Flash → Flash) (d : Nat) : (s.modFlash f).vault d = s.vault d := rfl
@[simp] theorem modFlash_stack (f : Flash → Flash) (d : Nat) : (s.modFlash f).stack d = s.stack d := rfl
@[simp] theorem modFlash_seg (f : Flash → Flash) (d : Nat) : (s.modFlash f).seg d = s.seg d := rfl
@[simp] theorem modFlash_port (f : Flash → Flash) (d : Nat) : (s.modFlash f).port d = s.port d := rfl
@[simp] theorem modFlash_byte (f : Flash → Flash) (d : Nat) : (s.modFlash f).byte d = s.byte d := rfl
@[simp] theorem modFlash_reg (f : Flash → Flash) (d : Nat) : (s.modFlash f).reg d = s.reg d := rfl
@[simp] theorem modFlash_fld (f : Flash → Flash) (d x y : Nat) : (s.modFlash f).fld d x y = s.fld d x y := rfl
@[simp] theorem modFlash_bit (f : Flash → Flash) (d x : Nat) : (s.modFlash f).bit d x = s.bit d x := rfl

@[simp] theorem setBytes_core (a : Nat) (bs : List Byte) (d : Nat) : (s.setBytes a bs).core d = s.core d := rfl
@[simp] theorem setBytes_vault (a : Nat) (bs : List Byte) (d : Nat) : (s.setBytes a bs).vault d = s.vault d := rfl
@[simp] theorem setBytes_stack (a : Nat) (bs : List Byte) (d : Nat) : (s.setBytes a bs).stack d = s.stack d := rfl
@[simp] theorem setBytes_seg (a : Nat) (bs : List Byte) (d : Nat) : (s.setBytes a bs).seg d = s.seg d := rfl
@[simp] theorem setBytes_port (a : Nat) (bs : List Byte) (d : Nat) : (s.setBytes a bs).port d = s.port d := rfl
@[simp] theorem setBytes_reg (a : Nat) (bs : List Byte) (d : Nat) : (s.setBytes a bs).reg d = s.reg d := rfl
@[simp] theorem setBytes_fld (a : Nat) (bs : List Byte) (d x y : Nat) : (s.setBytes a bs).fld d x y = s.fld d x y := rfl
@[simp] theorem setBytes_bit (a : Nat) (bs : List Byte) (d x : Nat) : (s.setBytes a bs).bit d x = s.bit d x := rfl

@[simp] theorem zeroBytes_core (lo hi : Nat) (d : Nat) : (s.zeroBytes lo hi).core d = s.core d := rfl
@[simp] theorem zeroBytes_vault (lo hi : Nat) (d : Nat) : (s.zeroBytes lo hi).vault d = s.vault d := rfl
@[simp] theorem zeroBytes_stack (lo hi : Nat) (d : Nat) : (s.zeroBytes lo hi).stack d = s.stack d := rfl
@[simp] theorem zeroBytes_seg (lo hi : Nat) (d : Nat) : (s.zeroBytes lo hi).seg d = s.seg d := rfl
@[simp] theorem zeroBytes_port (lo hi : Nat) (d : Nat) : (s.zeroBytes lo hi).port d = s.port d := rfl
@[simp] theorem zeroBytes_reg (lo hi : Nat) (d : Nat) : (s.zeroBytes lo hi).reg d = s.reg d := rfl
@[simp] theorem zeroBytes_fld (lo hi : Nat) (d x y : Nat) : (s.zeroBytes lo hi).fld d x y = s.fld d x y := rfl
@[simp] theorem zeroBytes_bit (lo hi : Nat) (d x : Nat) : (s.zeroBytes lo hi).bit d x = s.bit d x := rfl

@[simp] theorem setReg_core (a : Nat) (v : W64) (d : Nat) : (s.setReg a v).core d = s.core d := rfl
@[simp] theorem setReg_vault (a : Nat) (v : W64) (d : Nat) : (s.setReg a v).vault d = s.vault d := rfl
@[simp] theorem setReg_stack (a : Nat) (v : W64) (d : Nat) : (s.setReg a v).stack d = s.stack d := rfl
@[simp] theorem setReg_seg (a : Nat) (v : W64) (d : Nat) : (s.setReg a v).seg d = s.seg d := rfl
@[simp] theorem setReg_port (a : Nat) (v : W64) (d : Nat) : (s.setReg a v).port d = s.port d := rfl
@[simp] theorem setReg_byte (a : Nat) (v : W64) (d : Nat) : (s.setReg a v).byte d = s.byte d := rfl

@[simp] theorem setFld_core (a hi lo n : Nat) (d : Nat) : (s.setFld a hi lo n).core d = s.core d := rfl
@[simp] theorem setFld_vault (a hi lo n : Nat) (d : Nat) : (s.setFld a hi lo n).vault d = s.vault d := rfl
@[simp] theorem setFld_stack (a hi lo n : Nat) (d : Nat) : (s.setFld a hi lo n).stack d = s.stack d := rfl
@[simp] theorem setFld_seg (a hi lo n : Nat) (d : Nat) : (s.setFld a hi lo n).seg d = s.seg d := rfl
@[simp] theorem setFld_port (a hi lo n : Nat) (d : Nat) : (s.setFld a hi lo n).port d = s.port d := rfl
@[simp] theorem setFld_byte (a hi lo n : Nat) (d : Nat) : (s.setFld a hi lo n).byte d = s.byte d := rfl

@[simp] theorem setBit_core (a b : Nat) (v : Bool) (d : Nat) : (s.setBit a b v).core d = s.core d := rfl
@[simp] theorem setBit_vault (a b : Nat) (v : Bool) (d : Nat) : (s.setBit a b v).vault d = s.vault d := rfl
@[simp] theorem setBit_stack (a b : Nat) (v : Bool) (d : Nat) : (s.setBit a b v).stack d = s.stack d := rfl
@[simp] theorem setBit_seg (a b : Nat) (v : Bool) (d : Nat) : (s.setBit a b v).seg d = s.seg d := rfl
@[simp] theorem setBit_port (a b : Nat) (v : Bool) (d : Nat) : (s.setBit a b v).port d = s.port d := rfl
@[simp] theorem setBit_byte (a b : Nat) (v : Bool) (d : Nat) : (s.setBit a b v).byte d = s.byte d := rfl

@[simp] theorem addSat_core (a hi lo n : Nat) (d : Nat) : (s.addSat a hi lo n).core d = s.core d := rfl
@[simp] theorem addSat_vault (a hi lo n : Nat) (d : Nat) : (s.addSat a hi lo n).vault d = s.vault d := rfl
@[simp] theorem addSat_stack (a hi lo n : Nat) (d : Nat) : (s.addSat a hi lo n).stack d = s.stack d := rfl
@[simp] theorem addSat_seg (a hi lo n : Nat) (d : Nat) : (s.addSat a hi lo n).seg d = s.seg d := rfl
@[simp] theorem addSat_port (a hi lo n : Nat) (d : Nat) : (s.addSat a hi lo n).port d = s.port d := rfl
@[simp] theorem addSat_byte (a hi lo n : Nat) (d : Nat) : (s.addSat a hi lo n).byte d = s.byte d := rfl

@[simp] theorem count_core (a n : Nat) (d : Nat) : (s.count a n).core d = s.core d := rfl
@[simp] theorem count_vault (a n : Nat) (d : Nat) : (s.count a n).vault d = s.vault d := rfl
@[simp] theorem count_stack (a n : Nat) (d : Nat) : (s.count a n).stack d = s.stack d := rfl
@[simp] theorem count_seg (a n : Nat) (d : Nat) : (s.count a n).seg d = s.seg d := rfl
@[simp] theorem count_port (a n : Nat) (d : Nat) : (s.count a n).port d = s.port d := rfl
@[simp] theorem count_byte (a n : Nat) (d : Nat) : (s.count a n).byte d = s.byte d := rfl

@[simp] theorem orReg_core (a : Nat) (v : W64) (d : Nat) : (s.orReg a v).core d = s.core d := rfl
@[simp] theorem orReg_vault (a : Nat) (v : W64) (d : Nat) : (s.orReg a v).vault d = s.vault d := rfl
@[simp] theorem orReg_stack (a : Nat) (v : W64) (d : Nat) : (s.orReg a v).stack d = s.stack d := rfl
@[simp] theorem orReg_seg (a : Nat) (v : W64) (d : Nat) : (s.orReg a v).seg d = s.seg d := rfl
@[simp] theorem orReg_port (a : Nat) (v : W64) (d : Nat) : (s.orReg a v).port d = s.port d := rfl
@[simp] theorem orReg_byte (a : Nat) (v : W64) (d : Nat) : (s.orReg a v).byte d = s.byte d := rfl

@[simp] theorem crier_core (m : Crier) (d : Nat) : (s.crier m).core d = s.core d := rfl
@[simp] theorem crier_vault (m : Crier) (d : Nat) : (s.crier m).vault d = s.vault d := rfl
@[simp] theorem crier_stack (m : Crier) (d : Nat) : (s.crier m).stack d = s.stack d := rfl
@[simp] theorem crier_seg (m : Crier) (d : Nat) : (s.crier m).seg d = s.seg d := rfl
@[simp] theorem crier_port (m : Crier) (d : Nat) : (s.crier m).port d = s.port d := rfl
@[simp] theorem crier_byte (m : Crier) (d : Nat) : (s.crier m).byte d = s.byte d := rfl
@[simp] theorem crier_reg (m : Crier) (d : Nat) : (s.crier m).reg d = s.reg d := rfl
@[simp] theorem crier_fld (m : Crier) (d x y : Nat) : (s.crier m).fld d x y = s.fld d x y := rfl
@[simp] theorem crier_bit (m : Crier) (d x : Nat) : (s.crier m).bit d x = s.bit d x := rfl

/-! ### What an update writes -/

@[simp] theorem core_setCore (c d : Nat) (k : Core) : (s.setCore c k).core d = if d = c then k else s.core d := by
  simp [core, setCore]
@[simp] theorem core_modCore (c d : Nat) (f : Core → Core) :
    (s.modCore c f).core d = if d = c then f (s.core c) else s.core d := by simp [modCore]
@[simp] theorem vault_setVault (c d : Nat) (v : Vault) : (s.setVault c v).vault d = if d = c then v else s.vault d := by
  simp [vault, setVault]
@[simp] theorem vault_modVault (c d : Nat) (f : Vault → Vault) :
    (s.modVault c f).vault d = if d = c then f (s.vault c) else s.vault d := by simp [modVault]
@[simp] theorem stack_setStack (t d : Nat) (v : Stack) : (s.setStack t v).stack d = if d = t then v else s.stack d := by
  simp [stack, setStack]
@[simp] theorem stack_modStack (t d : Nat) (f : Stack → Stack) :
    (s.modStack t f).stack d = if d = t then f (s.stack t) else s.stack d := by simp [modStack]
@[simp] theorem seg_setSeg (n d : Nat) (g : Seg) : (s.setSeg n g).seg d = if d = n then g else s.seg d := by
  simp [seg, setSeg]
@[simp] theorem port_setPort (p d : Nat) (v : Port) : (s.setPort p v).port d = if d = p then v else s.port d := by
  simp [port, setPort]
@[simp] theorem reg_setReg (a d : Nat) (v : W64) : (s.setReg a v).reg d = if d = a then v else s.reg d := by
  unfold reg setReg
  by_cases h : d = a
  · subst h; simp
  · simp only [h, if_false]
    have := smGet_smSet_ne (regDefault a) (regDefault d) s.regs v h
    exact this
@[simp] theorem net_modNet (f : Net → Net) : (s.modNet f).net = f s.net := rfl
@[simp] theorem net_crier (m : Crier) : (s.crier m).net = { s.net with msgs := s.net.msgs ++ [m] } := rfl
@[simp] theorem bilo_modBilo (f : Bilo → Bilo) : (s.modBilo f).bilo = f s.bilo := rfl
@[simp] theorem host_modHost (f : HostSide → HostSide) : (s.modHost f).host = f s.host := rfl
@[simp] theorem warden_modWarden (f : Warden → Warden) : (s.modWarden f).warden = f s.warden := rfl
@[simp] theorem warden_modFlash (f : Flash → Flash) :
    (s.modFlash f).warden = { s.warden with flash := f s.warden.flash } := rfl
@[simp] theorem reg_setFld (a d hi lo n : Nat) :
    (s.setFld a hi lo n).reg d = if d = a then putBits (s.reg a) hi lo n else s.reg d := by simp [setFld]
@[simp] theorem reg_setBit (a d b : Nat) (v : Bool) :
    (s.setBit a b v).reg d = if d = a then putBits (s.reg a) b b (if v then 1 else 0) else s.reg d := by simp [setBit]
@[simp] theorem reg_addSat (a d hi lo n : Nat) : (s.addSat a hi lo n).reg d =
    if d = a then putBits (s.reg a) hi lo (min (s.fld a hi lo + n) (2 ^ (hi - lo + 1) - 1)) else s.reg d := by simp [addSat]
@[simp] theorem reg_count (a d n : Nat) :
    (s.count a n).reg d = if d = a then s.reg a + BitVec.ofNat 64 n else s.reg d := by simp [count]
@[simp] theorem reg_orReg (a d : Nat) (v : W64) :
    (s.orReg a v).reg d = if d = a then s.reg a ||| v else s.reg d := by simp [orReg]
/-- Bytes written read back; every other byte is as before. -/
theorem byte_setBytes (a d : Nat) (bs : List Byte) :
    (s.setBytes a bs).byte d = if a ≤ d ∧ d < a + bs.length then bs.getD (d - a) 0 else s.byte d := by
  simp [byte, setBytes, smGet_smSetList]
theorem byte_zeroBytes (lo hi d : Nat) : (s.zeroBytes lo hi).byte d = if lo ≤ d ∧ d < hi then 0 else s.byte d := by
  simp [byte, zeroBytes, smGet_smClear]

/-! ### The memory's canonical form -/

theorem mem_wf_setBytes (a : Nat) (bs : List Byte) (h : smWf 0 s.mem = true) : smWf 0 (s.setBytes a bs).mem = true :=
  smWf_smSetList a bs h
theorem mem_wf_zeroBytes (lo hi : Nat) (h : smWf 0 s.mem = true) : smWf 0 (s.zeroBytes lo hi).mem = true :=
  smWf_smClear lo hi h
theorem mem_wf_reset : smWf 0 State.reset.mem = true := rfl

end Sys2Proof.Machine.State
end

