-- ==== Sys2Proof/Laws/Bits.lean ====
section
/-! SUPPORT. Fields of registers: what reading a field of a written word gives. -/

namespace Sys2Proof.Machine

/-- A field, bit by bit. -/
theorem testBit_bits (v : W64) (hi lo i : Nat) : (bits v hi lo).testBit i = (decide (i < hi - lo + 1) && v.getLsbD (lo + i)) := by
  simp [bits, Nat.testBit_mod_two_pow, Nat.testBit_div_two_pow, BitVec.getLsbD, Nat.add_comm]

/-- What replacing a field does to the number: the part above, the field, the part below. -/
theorem putBits_parts (x lo w n : Nat) :
    x - (x / 2 ^ lo % 2 ^ w) * 2 ^ lo + (n % 2 ^ w) * 2 ^ lo
      = 2 ^ lo * (2 ^ w * (x / 2 ^ (lo + w)) + n % 2 ^ w) + x % 2 ^ lo := by
  have h1 : 2 ^ lo * (x / 2 ^ lo) + x % 2 ^ lo = x := Nat.div_add_mod x (2 ^ lo)
  have h2 : 2 ^ w * (x / 2 ^ lo / 2 ^ w) + x / 2 ^ lo % 2 ^ w = x / 2 ^ lo := Nat.div_add_mod (x / 2 ^ lo) (2 ^ w)
  rw [Nat.div_div_eq_div_mul, ← Nat.pow_add] at h2
  have h3 : x - (x / 2 ^ lo % 2 ^ w) * 2 ^ lo = 2 ^ lo * (2 ^ w * (x / 2 ^ (lo + w))) + x % 2 ^ lo := by
    have e : 2 ^ lo * (x / 2 ^ lo) = 2 ^ lo * (2 ^ w * (x / 2 ^ (lo + w))) + (x / 2 ^ lo % 2 ^ w) * 2 ^ lo := by
      conv_lhs => rw [← h2]
      ring
    omega
  rw [h3]; ring

/-- The number after a field is replaced, bit by bit. -/
theorem testBit_putParts (x lo w n i : Nat) :
    (x - (x / 2 ^ lo % 2 ^ w) * 2 ^ lo + (n % 2 ^ w) * 2 ^ lo).testBit i
      = if i < lo then x.testBit i else if i < lo + w then n.testBit (i - lo) else x.testBit i := by
  rw [putBits_parts]
  have hx : x % 2 ^ lo < 2 ^ lo := Nat.mod_lt _ (by positivity)
  have hn : n % 2 ^ w < 2 ^ w := Nat.mod_lt _ (by positivity)
  rw [Nat.testBit_two_pow_mul_add _ hx]
  split
  · next h => simp [Nat.testBit_mod_two_pow, h]
  · next h =>
    rw [Nat.testBit_two_pow_mul_add _ hn]
    by_cases h2 : i < lo + w
    · have : i - lo < w := by omega
      simp [this, h2, Nat.testBit_mod_two_pow]
    · have : ¬ i - lo < w := by omega
      simp only [this, h2, if_false, Nat.testBit_div_two_pow]
      congr 1
      omega

/-- A word with a field replaced, bit by bit. -/
theorem getLsbD_putBits (v : W64) (hi lo n i : Nat) (hlo : lo ≤ hi) :
    (putBits v hi lo n).getLsbD i
      = if lo ≤ i ∧ i ≤ hi then (decide (i < 64) && n.testBit (i - lo)) else v.getLsbD i := by
  unfold putBits
  rw [BitVec.getLsbD_ofNat, testBit_putParts]
  by_cases h64 : i < 64
  · by_cases h1 : i < lo
    · have : ¬ (lo ≤ i ∧ i ≤ hi) := by omega
      simp [h64, h1, this, BitVec.getLsbD]
    · by_cases h2 : i ≤ hi
      · have a : i < lo + (hi - lo + 1) := by omega
        have b : lo ≤ i ∧ i ≤ hi := by omega
        simp [h64, h1, a, b]
      · have a : ¬ i < lo + (hi - lo + 1) := by omega
        have b : ¬ (lo ≤ i ∧ i ≤ hi) := by omega
        simp [h64, h1, a, b, BitVec.getLsbD]
  · have : v.getLsbD i = false := BitVec.getLsbD_of_ge _ _ (by omega)
    simp [h64, this]

/-- A field written reads back. -/
theorem bits_putBits (v : W64) {hi lo n : Nat} (hlo : lo ≤ hi) (hhi : hi < 64) :
    bits (putBits v hi lo n) hi lo = n % 2 ^ (hi - lo + 1) := by
  apply Nat.eq_of_testBit_eq
  intro i
  rw [testBit_bits, getLsbD_putBits _ _ _ _ _ hlo, Nat.testBit_mod_two_pow]
  by_cases h : i < hi - lo + 1
  · have a : lo ≤ lo + i ∧ lo + i ≤ hi := by omega
    have b : lo + i < 64 := by omega
    simp [h, a, b]
  · simp [h]

/-- A field apart from the one written reads as before. -/
theorem bits_putBits_apart (v : W64) {hi lo n h2 l2 : Nat} (hlo : lo ≤ hi) (hl2 : l2 ≤ h2) (apart : hi < l2 ∨ h2 < lo) :
    bits (putBits v hi lo n) h2 l2 = bits v h2 l2 := by
  apply Nat.eq_of_testBit_eq
  intro i
  rw [testBit_bits, testBit_bits, getLsbD_putBits _ _ _ _ _ hlo]
  by_cases h : i < h2 - l2 + 1
  · have a : ¬ (lo ≤ l2 + i ∧ l2 + i ≤ hi) := by omega
    simp [a]
  · simp [h]

theorem bits_lt (v : W64) (hi lo : Nat) : bits v hi lo < 2 ^ (hi - lo + 1) := Nat.mod_lt _ (by positivity)

/-- A single bit as a field. -/
theorem bits_single (v : W64) (b : Nat) : bits v b b = if v.getLsbD b then 1 else 0 := by
  have := testBit_bits v b b 0
  have hlt := bits_lt v b b
  simp only [Nat.sub_self, Nat.zero_add, Nat.lt_one_iff, decide_true, Bool.true_and, Nat.add_zero, pow_one] at this hlt
  have h2 : (bits v b b).testBit 0 = decide (bits v b b % 2 = 1) := by simp [Nat.testBit_zero]
  rw [h2] at this
  cases hv : v.getLsbD b <;> rw [hv] at this <;> simp at this ⊢ <;> omega

namespace State

variable (s : State)

theorem bit_eq (a b : Nat) : s.bit a b = (s.reg a).getLsbD b := by
  simp only [bit, fld, bits_single]
  cases (s.reg a).getLsbD b <;> rfl

/-- A bit written reads back, and no other bit of a register changes. -/
theorem bit_setBit (a d b i : Nat) (v : Bool) (hb : b < 64) :
    (s.setBit a b v).bit d i = if d = a ∧ i = b then v else s.bit d i := by
  rw [bit_eq, bit_eq, reg_setBit]
  by_cases h : d = a
  · subst h
    by_cases hi : i = b
    · subst hi; rw [if_pos rfl, getLsbD_putBits _ _ _ _ _ (le_refl _)]; cases v <;> simp [hb]
    · rw [if_pos rfl, getLsbD_putBits _ _ _ _ _ (le_refl _)]
      have : ¬ (b ≤ i ∧ i ≤ b) := by omega
      simp [this, hi]
  · simp [h]

theorem fld_setFld {a hi lo n : Nat} (hlo : lo ≤ hi) (hhi : hi < 64) :
    (s.setFld a hi lo n).fld a hi lo = n % 2 ^ (hi - lo + 1) := by
  simp only [fld, reg_setFld, if_true]; exact bits_putBits _ hlo hhi

theorem fld_setFld_apart {a hi lo n d h2 l2 : Nat} (hlo : lo ≤ hi) (hl2 : l2 ≤ h2) (apart : d ≠ a ∨ hi < l2 ∨ h2 < lo) :
    (s.setFld a hi lo n).fld d h2 l2 = s.fld d h2 l2 := by
  simp only [fld, reg_setFld]
  by_cases h : d = a
  · subst h; rw [if_pos rfl]; exact bits_putBits_apart _ hlo hl2 (by omega)
  · rw [if_neg h]

end State

end Sys2Proof.Machine
end

