-- ==== Sys2Proof/Laws/Core.lean ====
section
/-! SUPPORT. What the control core's shared operations do: registers read and written, an instruction completed, a trap
taken. -/

namespace Sys2Proof.Machine

variable (s : State)

/-! ### Frames -/

theorem onlyCore_refl (c : Nat) : OnlyCore c s s := ⟨fun _ _ => rfl, rfl⟩

theorem OnlyCore.trans {c : Nat} {s t u : State} (h : OnlyCore c s t) (k : OnlyCore c t u) : OnlyCore c s u := by
  refine ⟨fun d hd => (k.1 d hd).trans (h.1 d hd), ?_⟩
  have := congrArg (fun x : State => { x with cores := s.cores }) k.2
  exact this.trans h.2

theorem onlyCore_modCore (c : Nat) (f : Core → Core) : OnlyCore c s (s.modCore c f) :=
  ⟨fun d hd => by simp [hd], rfl⟩

/-! ### Registers -/

theorem gpr_zero (c : Nat) : s.gpr c 0 = 0 := rfl

theorem onlyCore_setGpr (c : Nat) (rd : BitVec 5) (v : W64) : OnlyCore c s (s.setGpr c rd v) := by
  unfold State.setGpr; split
  · exact onlyCore_refl s c
  · exact onlyCore_modCore s c _

/-- Register g0 reads 0 whatever is written to it; any other register reads as written (R104). -/
theorem gpr_setGpr (c : Nat) (rd r : BitVec 5) (v : W64) :
    (s.setGpr c rd v).gpr c r = if r = rd then (if rd = 0 then 0 else v) else s.gpr c r := by
  unfold State.setGpr
  by_cases h0 : rd = 0
  · subst h0
    rw [if_pos rfl, if_pos rfl]
    split
    · next h => rw [h, gpr_zero]
    · rfl
  · simp only [h0, if_false, State.gpr, State.core_modCore, if_true]
    by_cases hr0 : r = 0
    · have h : ¬ r = rd := fun h => h0 (h.symm.trans hr0)
      rw [if_pos hr0, if_neg h, if_pos hr0]
    · simp only [hr0, if_false, smGet_smSet]
      have : (r.toNat = rd.toNat) = (r = rd) := propext ⟨fun h => BitVec.eq_of_toNat_eq h, fun h => h ▸ rfl⟩
      simp [this]

/-- A register write touches only the general registers. -/
theorem core_setGpr (c : Nat) (rd : BitVec 5) (v : W64) :
    (s.setGpr c rd v).core c = { s.core c with g := ((s.setGpr c rd v).core c).g } := by
  unfold State.setGpr; split
  · rfl
  · simp

theorem gpr_modCore (c : Nat) (f : Core → Core) (r : BitVec 5) (h : (f (s.core c)).g = (s.core c).g) :
    (s.modCore c f).gpr c r = s.gpr c r := by simp [State.gpr, h]

/-! ### Completion -/

/-- An instruction that goes on at `pc` with a result written. -/
theorem completed_setGpr_retireTo (c : Nat) (rd : BitVec 5) (v : W64) (pc : Addr) :
    Completed c rd v pc s ((s.setGpr c rd v).retireTo c pc) := by
  refine ⟨?_, ?_, ?_, (onlyCore_setGpr s c rd v).trans (onlyCore_modCore _ c _)⟩
  · rw [State.retireTo, gpr_modCore _ _ _ _ rfl, gpr_setGpr, if_pos rfl]
  · intro r hr
    rw [State.retireTo, gpr_modCore _ _ _ _ rfl, gpr_setGpr, if_neg hr]
  · simp only [State.retireTo, State.core_modCore, if_true]
    rw [core_setGpr]

theorem retire_eq (c : Nat) (n : Nat) : s.retire c n = s.retireTo c ((s.core c).pc + BitVec.ofNat 46 n) := rfl

theorem completed_result (c : Nat) (rd : BitVec 5) (v : W64) : Completed c rd v (s.nextPc c) s (s.result c rd v) := by
  rw [State.result, retire_eq, show ((s.setGpr c rd v).core c).pc = (s.core c).pc by rw [core_setGpr]]
  exact completed_setGpr_retireTo s c rd v _

/-- An instruction that goes on with no result. -/
theorem completed_retireTo (c : Nat) (pc : Addr) : Completed c 0 0 pc s (s.retireTo c pc) := by
  have := completed_setGpr_retireTo s c 0 0 pc
  simpa [State.setGpr] using this

theorem completed_retire (c : Nat) : Completed c 0 0 (s.nextPc c) s (s.retire c) := completed_retireTo s c _

/-! ### Traps -/

theorem trapStatus_entered (st : W64) : TrapEntered st (trapStatus st) := by
  have small (x : W64) (hx : x.toNat < 2 ^ 5) (i : Nat) (hi : 5 ≤ i) : x.getLsbD i = false :=
    Nat.testBit_lt_two_pow (lt_of_lt_of_le hx (Nat.pow_le_pow_right (by decide) hi))
  unfold trapStatus TrapEntered
  generalize st.getLsbD 1 = a
  generalize st.getLsbD 0 = b
  cases a <;> cases b <;> exact ⟨rfl, rfl, rfl, rfl, rfl, small _ (by decide)⟩

theorem entered_enterTrap (c : Nat) (cause value : W64) : Entered c cause value s (s.enterTrap c cause value) := by
  refine ⟨?_, ?_, onlyCore_modCore s c _⟩
  · simp only [State.enterTrap, State.core_modCore, if_true]; exact trapStatus_entered _
  · simp [State.enterTrap]

theorem trapped_trap (c cause : Nat) (value : W64) : Trapped c cause value s (s.trap c cause value) := by
  unfold Trapped State.trap
  split
  · rfl
  · exact entered_enterTrap s c _ value

/-! ### Forms -/

theorem instr_ready {c : Nat} (h : Ready s c) (f : State → State) : s.instr c f = f s := by
  unfold State.instr
  rw [h.1]
  obtain ⟨a, ha⟩ := Option.isSome_iff_exists.mp h.2
  simp [ha]

theorem form_ready {c : Nat} (h : Ready s c) (legal : Bool) (w : W32) (f : State → State) :
    s.form c legal w f = if legal then f s else s.trap c 1 (w.setWidth 64) := by
  rw [State.form, instr_ready s h]

end Sys2Proof.Machine
end

