-- ==== Sys2Proof/Laws/Sp.lean ====
section
/-! SUPPORT. Accesses of a scratchpad that stay within one unit of 8 bytes (R85, R111): what they read, write and leave. -/

namespace Sys2Proof.Machine

variable (s : State)

theorem unitsOf_one {a n : Nat} (hn : 0 < n) (h : a % 8 + n ≤ 8) : unitsOf 8 a n = [a / 8 * 8] := by
  have h1 : (a + n - 1) / 8 - a / 8 = 0 := by omega
  have h2 : n ≠ 0 := by omega
  rw [unitsOf, if_neg h2, h1]
  simp

theorem smGetList_drop_take {α : Type} (d : α) (m : List (Nat × α)) (a n i k : Nat) (h : i + k ≤ n) :
    ((smGetList d m a n).drop i).take k = smGetList d m (a + i) k := by
  apply List.ext_getElem
  · simp; omega
  · intro j h1 h2
    simp [smGetList, Nat.add_assoc]

theorem bytes_drop_take (a n i k : Nat) (h : i + k ≤ n) : ((s.bytes a n).drop i).take k = s.bytes (a + i) k :=
  smGetList_drop_take 0 s.mem a n i k h

/-- A read within one unit: the state its check leaves, the unit's bytes, poisoned where the check says so. -/
theorem readUnits_unit (c a n : Nat) (hn : 0 < n) (h : a % 8 + n ≤ 8) :
    s.readUnits c a n = ((s.checkUnit c (a / 8 * 8)).1,
      ((s.checkUnit c (a / 8 * 8)).1.bytes a n).map (·, (s.checkUnit c (a / 8 * 8)).2)) := by
  unfold State.readUnits
  simp only [unitsOf_one hn h, List.foldl_cons, List.foldl_nil, List.nil_append]
  rw [← List.map_drop, ← List.map_take, bytes_drop_take _ _ _ _ _ (by omega), Nat.div_add_mod' a 8]

theorem checkUnit_clean (c u : Nat) (h : s.spMarkAt u = 0) : s.checkUnit c u = (s, false) := by
  simp [State.checkUnit, h]
theorem checkUnit_poisoned (c u : Nat) (h : s.spMarkAt u = 1) : s.checkUnit c u = (s, true) := by
  simp [State.checkUnit, h]

theorem partOf_unit {α : Type} {a : Nat} {ps : List α} (h : a % 8 + ps.length ≤ 8) :
    partOf 8 a ps (a / 8 * 8) = (a % 8, ps) := by
  unfold partOf
  split
  · next h0 =>
    have h1 : a % 8 = 0 := by omega
    rw [h1, show a / 8 * 8 - a = 0 by omega, List.drop_zero, List.take_of_length_le (by omega)]
  · rw [List.take_of_length_le (by omega), show a - a / 8 * 8 = a % 8 by omega]

theorem plain_length (bs : List Byte) : (plain bs).length = bs.length := by simp [plain]
theorem dataOf_plain (bs : List Byte) : dataOf (plain bs) = bs := by simp [dataOf, plain, Function.comp_def]
theorem anyPoison_plain (bs : List Byte) : anyPoison (plain bs) = false := by simp [anyPoison, plain]

/-- A write within one unit: a whole unit is stored anew; into part of one only where its check finds no poison. -/
theorem writeUnits_unit (c a : Nat) (bs : List Byte) (hn : 0 < bs.length) (h : a % 8 + bs.length ≤ 8) :
    s.writeUnits c a (plain bs) =
      if bs.length = 8 then ((s.setBytes a bs).setSpMark a 0, false)
      else if (s.checkUnit c (a / 8 * 8)).2 then ((s.checkUnit c (a / 8 * 8)).1, true)
      else ((s.checkUnit c (a / 8 * 8)).1.setBytes a bs, false) := by
  unfold State.writeUnits
  have hp : partOf 8 a (plain bs) (a / 8 * 8) = (a % 8, plain bs) := partOf_unit (by rwa [plain_length])
  have e : a / 8 * 8 + a % 8 = a := Nat.div_add_mod' a 8
  simp only [plain_length, unitsOf_one hn h, List.foldl_cons, List.foldl_nil, hp, anyPoison_plain, dataOf_plain, e]
  by_cases h8 : bs.length = 8
  · have : a / 8 * 8 = a := by omega
    simp [h8, this]
  · simp [h8]

/-! ### Accesses of any length that meet no error -/

/-- No unit that n bytes from a touch is marked: a check of any of them finds nothing. -/
def Clean (a n : Nat) : Prop := ∀ x, a ≤ x → x < a + n → s.spMarkAt (x / 8 * 8) = 0

theorem foldl_checkUnit_clean (c : Nat) (us : List Nat) (acc : List PByte) (h : ∀ u ∈ us, s.spMarkAt u = 0) :
    us.foldl (fun (acc : State × List PByte) u =>
      let got := acc.1.checkUnit c u
      let s := got.1
      let bad := got.2
      (s, acc.2 ++ (s.bytes u 8).map (·, bad))) (s, acc)
      = (s, acc ++ us.flatMap fun u => plain (s.bytes u 8)) := by
  induction us generalizing acc with
  | nil => simp
  | cons u us ih =>
    have h1 := h u List.mem_cons_self
    rw [List.foldl_cons, checkUnit_clean s c u h1]
    dsimp only
    rw [ih _ fun v hv => h v (List.mem_cons_of_mem _ hv)]
    simp [plain]

theorem bytes_append (a m n : Nat) : s.bytes a m ++ s.bytes (a + m) n = s.bytes a (m + n) := by
  unfold State.bytes
  apply List.ext_getElem
  · simp
  · intro i h1 h2
    simp only [smGetList, List.getElem_append, List.length_map, List.length_range, List.getElem_map, List.getElem_range]
    split
    · rfl
    · next h => congr 1; omega

theorem flatMap_units (b k : Nat) :
    (List.range k).flatMap (fun i => plain (s.bytes ((b + i) * 8) 8)) = plain (s.bytes (b * 8) (8 * k)) := by
  induction k with
  | zero => rfl
  | succ k ih =>
    rw [List.range_succ, List.flatMap_append, ih]
    simp only [List.flatMap_cons, List.flatMap_nil, List.append_nil]
    rw [show (b + k) * 8 = b * 8 + 8 * k by omega, show 8 * (k + 1) = 8 * k + 8 by omega, ← bytes_append]
    simp [plain]

/-- A read that meets no marked unit changes nothing and gives the bytes as they are. -/
theorem readUnits_clean (c a n : Nat) (h : Clean s a n) : s.readUnits c a n = (s, plain (s.bytes a n)) := by
  unfold State.readUnits
  by_cases hn : n = 0
  · subst hn; simp [unitsOf, plain, State.bytes, smGetList]
  · have hu : ∀ u ∈ unitsOf 8 a n, s.spMarkAt u = 0 := by
      intro u hu
      simp only [unitsOf, hn, if_false, List.mem_map, List.mem_range] at hu
      obtain ⟨i, hi, rfl⟩ := hu
      have := h (max a ((a / 8 + i) * 8)) (by omega) (by omega)
      rwa [show max a ((a / 8 + i) * 8) / 8 * 8 = (a / 8 + i) * 8 by omega] at this
    rw [foldl_checkUnit_clean s c _ _ hu]
    simp only [List.nil_append]
    rw [unitsOf, if_neg hn, List.flatMap_map, flatMap_units]
    congr 1
    rw [plain, plain, ← List.map_drop, ← List.map_take, bytes_drop_take _ _ _ _ _ (by omega), Nat.div_add_mod' a 8]

/-- What a write of plain bytes over clean units does: the bytes, and nothing else. -/
structure Stored (a : Nat) (bs : List Byte) (s t : State) : Prop where
  byte : ∀ x, t.byte x = if a ≤ x ∧ x < a + bs.length then bs.getD (x - a) 0 else s.byte x
  mark : ∀ x, t.spMarkAt x = s.spMarkAt x
  rest : { t with mem := s.mem, spMark := s.spMark } = s

theorem writeUnits_step (a : Nat) (bs : List Byte) (k : Nat) (h : Clean s a bs.length) :
    ∀ t : State, (∀ x, t.byte x = if a ≤ x ∧ x < min (a + bs.length) ((a / 8 + k) * 8) then bs.getD (x - a) 0 else s.byte x) →
      (∀ x, t.spMarkAt x = s.spMarkAt x) → { t with mem := s.mem, spMark := s.spMark } = s →
      k < (a + bs.length - 1) / 8 - a / 8 + 1 → 0 < bs.length →
      let got := partOf 8 a (plain bs) ((a / 8 + k) * 8)
      let part := got.2
      let t' := if part.length = 8 then ((t.setBytes ((a / 8 + k) * 8) (dataOf part)).setSpMark ((a / 8 + k) * 8) 0)
        else t.setBytes ((a / 8 + k) * 8 + got.1) (dataOf part)
      anyPoison part = false ∧ t.spMarkAt ((a / 8 + k) * 8) = 0 ∧
      (∀ x, t'.byte x = if a ≤ x ∧ x < min (a + bs.length) ((a / 8 + (k + 1)) * 8) then bs.getD (x - a) 0 else s.byte x) ∧
      (∀ x, t'.spMarkAt x = s.spMarkAt x) ∧ { t' with mem := s.mem, spMark := s.spMark } = s := by
  intro t hb hm hr hk hn
  have hm0 : t.spMarkAt ((a / 8 + k) * 8) = 0 := by
    rw [hm]
    have := h (max a ((a / 8 + k) * 8)) (by omega) (by omega)
    rwa [show max a ((a / 8 + k) * 8) / 8 * 8 = (a / 8 + k) * 8 by omega] at this
  -- the bytes the part holds, and where
  obtain ⟨o, d, l, hp, hlen, hd⟩ : ∃ o d l, partOf 8 a (plain bs) ((a / 8 + k) * 8) = (o, plain ((bs.drop d).take l)) ∧
      (a / 8 + k) * 8 + o = a + d ∧ a + d + l = min (a + bs.length) ((a / 8 + (k + 1)) * 8) ∧ (l = 8 → o = 0) ∧
      max a ((a / 8 + k) * 8) = a + d := by
    unfold partOf
    split
    · next h0 =>
      refine ⟨0, (a / 8 + k) * 8 - a, min 8 (bs.length - ((a / 8 + k) * 8 - a)), ?_, by omega, by omega, by omega, by omega⟩
      simp only [plain, ← List.map_drop, ← List.map_take]
      congr 2
      rw [List.take_eq_take_iff, List.length_drop]; omega
    · next h0 =>
      refine ⟨a - (a / 8 + k) * 8, 0, min (8 - (a - (a / 8 + k) * 8)) bs.length, ?_, by omega, by omega, by omega, by omega⟩
      simp only [plain, ← List.map_take, List.drop_zero]
      congr 2
      rw [List.take_eq_take_iff]; omega
  obtain ⟨hl, h8, hmax⟩ := hd
  rw [hp]
  dsimp only
  have hpl : (plain ((bs.drop d).take l)).length = l := by rw [plain_length]; simp; omega
  rw [hpl, anyPoison_plain, dataOf_plain]
  refine ⟨rfl, hm0, ?_⟩
  have key : ∀ x, (t.setBytes (a + d) ((bs.drop d).take l)).byte x
      = if a ≤ x ∧ x < min (a + bs.length) ((a / 8 + (k + 1)) * 8) then bs.getD (x - a) 0 else s.byte x := by
    intro x
    have hl' : ((bs.drop d).take l).length = l := by simp; omega
    rw [State.byte_setBytes, hl']
    by_cases hx : a + d ≤ x ∧ x < a + d + l
    · rw [if_pos hx, if_pos (by omega)]
      simp only [List.getD_eq_getElem?_getD, List.getElem?_take, List.getElem?_drop]
      rw [if_pos (by omega), show d + (x - (a + d)) = x - a by omega]
    · rw [if_neg hx, hb]
      by_cases hy : a ≤ x ∧ x < min (a + bs.length) ((a / 8 + k) * 8)
      · rw [if_pos hy, if_pos (by omega)]
      · rw [if_neg hy, if_neg (by omega)]
  by_cases e8 : l = 8
  · rw [if_pos e8]
    have : (a / 8 + k) * 8 = a + d := by have := h8 e8; omega
    refine ⟨?_, ?_, ?_⟩
    · intro x; rw [← key x, this]; rfl
    · intro x
      simp only [State.setSpMark, State.spMarkAt, State.setBytes, smGet_smSet]
      split
      · next hx => subst hx; exact hm0.symm.trans (hm _)
      · exact hm x
    · exact hr
  · rw [if_neg e8, hlen]
    exact ⟨key, hm, hr⟩

/-- A write of plain bytes that meets no marked unit stores them and does nothing else. -/
theorem writeUnits_clean (c a : Nat) (bs : List Byte) (h : Clean s a bs.length) :
    ∃ t, s.writeUnits c a (plain bs) = (t, false) ∧ Stored a bs s t := by
  by_cases hn : bs.length = 0
  · have : bs = [] := List.eq_nil_of_length_eq_zero hn
    subst this
    exact ⟨s, by simp [State.writeUnits, unitsOf, plain], fun x => by rw [if_neg]; simp, fun _ => rfl, rfl⟩
  · unfold State.writeUnits
    rw [plain_length, unitsOf, if_neg hn, List.foldl_map]
    suffices H : ∀ k, k ≤ (a + bs.length - 1) / 8 - a / 8 + 1 → ∃ t : State,
        (List.range k).foldl (fun (acc : State × Bool) i =>
          let got := acc
          let s := got.1
          let met := got.2
          let got := partOf 8 a (plain bs) ((a / 8 + i) * 8)
          let o := got.1
          let part := got.2
          if part.length = 8 then
            if anyPoison part then (s.poisonUnit ((a / 8 + i) * 8), met)
            else ((s.setBytes ((a / 8 + i) * 8) (dataOf part)).setSpMark ((a / 8 + i) * 8) 0, met)
          else
            let got := s.checkUnit c ((a / 8 + i) * 8)
            let s := got.1
            let bad := got.2
            if bad then (s, true)
            else if anyPoison part then (s.poisonUnit ((a / 8 + i) * 8), met)
            else (s.setBytes ((a / 8 + i) * 8 + o) (dataOf part), met)) (s, false) = (t, false) ∧
        (∀ x, t.byte x = if a ≤ x ∧ x < min (a + bs.length) ((a / 8 + k) * 8) then bs.getD (x - a) 0 else s.byte x) ∧
        (∀ x, t.spMarkAt x = s.spMarkAt x) ∧ { t with mem := s.mem, spMark := s.spMark } = s by
      obtain ⟨t, h1, h2, h3, h4⟩ := H _ (le_refl _)
      refine ⟨t, h1, fun x => ?_, h3, h4⟩
      rw [h2]
      rw [Nat.min_eq_left (by omega)]
    intro k hk
    induction k with
    | zero => exact ⟨s, rfl, fun x => by rw [if_neg (by omega)], fun _ => rfl, rfl⟩
    | succ k ih =>
      obtain ⟨t, h1, h2, h3, h4⟩ := ih (by omega)
      obtain ⟨p1, p2, p3⟩ := writeUnits_step s a bs k h t h2 h3 h4 (by omega) (by omega)
      rw [List.range_succ, List.foldl_append, h1]
      simp only [List.foldl_cons, List.foldl_nil]
      refine ⟨_, ?_, p3⟩
      rw [p1, checkUnit_clean t c _ p2]
      simp only [Bool.false_eq_true, if_false]
      split <;> rfl

end Sys2Proof.Machine
end

