-- ==== Sys2Proof/Laws/Access.lean ====
section
/-! SUPPORT. Loads and stores of the own scratchpad: what they do where nothing stops them. -/

namespace Sys2Proof.Machine

/-- A sign-extended immediate as an integer. -/
theorem sext_eq (imm : W16) : sext imm = BitVec.ofInt 64 imm.toInt := eq_ofInt_of_toInt (BitVec.toInt_signExtend_of_le (by decide))

/-- The address a load or store computes. -/
theorem dataAddr_eq (s : State) (c ra imm) : Claims.dataAddr s c ra imm = s.gpr c.toNat ra + sext imm := by
  rw [sext_eq, Claims.dataAddr, BitVec.ofInt_add, BitVec.ofInt_toInt]

/-- An address in the own scratchpad reaches it at its offset. -/
theorem reach_sp {c : CoreId} {a : W64} {off : Nat} (h : Claims.ownScratchpad c a off) : reach c.toNat a = .sp off := by
  obtain ⟨h1, h2⟩ := h
  have hc := c.isLt
  unfold reach spBase
  dsimp only
  rcases h2 with h2 | h2
  · rw [if_pos (by omega), show a.toNat % 0x200000 = off by omega]
  · rw [if_neg (by omega), if_pos (by omega), show a.toNat % 0x200000 = off by omega]

/-- The model's pitch check of master 0 is the rule's. -/
theorem pitchOk_iff (s : State) (c : CoreId) (off n : Nat) (w : Bool) (hn : n ≠ 0) :
   s.pitchOk c.toNat 0 off n w = true ↔ Claims.Granted s c off n w := by
  unfold State.pitchOk Claims.Granted State.pitchCovers
  simp only [hn, decide_false, Bool.false_or, List.any_eq_true, List.mem_range, Nat.zero_mul, Nat.add_zero]
  constructor
  · rintro ⟨p, hp, h⟩
    refine ⟨p, hp, ?_⟩
    rw [State.bit_eq, State.fld, State.fld]
    rw [show cA c.toNat (PITCH + 4 * p) = cA c.toNat PITCH + p * 4 by unfold cA; omega]
    cases w <;> simp_all
  · rintro ⟨p, hp, h1, h2, h3⟩
    refine ⟨p, hp, ?_⟩
    rw [State.bit_eq] at h1; rw [State.fld] at h2 h3
    rw [show cA c.toNat (PITCH + 4 * p) = cA c.toNat PITCH + p * 4 by unfold cA; omega] at h1 h2 h3
    cases w <;> simp_all

/-- Bytes as a number. -/
theorem number_eq (bs) : Claims.number bs = ofLeBytes bs := by
  induction bs with
  | nil => rfl
  | cons b bs ih => simp [Claims.number, ofLeBytes, ih]

/-- n bytes are below 256 ^ n. -/
theorem number_lt (bs : List Byte) : ofLeBytes bs < 256 ^ bs.length := by
  induction bs with
  | nil => simp [ofLeBytes]
  | cons b bs ih => simp only [ofLeBytes, List.length_cons, pow_succ]; have := b.isLt; omega

/-- What a load puts in rd, as an integer. -/
theorem loaded_eq (n v : Nat) (sg : Bool) (hn : n = 1 ∨ n = 2 ∨ n = 4 ∨ n = 8) (hv : v < 256 ^ n) (h8: n = 8 → sg = false): loaded n sg v =
   BitVec.ofInt 64 (if sg then Claims.signedNumber n v else (v : Int)) := by
  unfold loaded
  cases sg
  · simp
  · simp only [if_true]
    unfold Claims.signedNumber
    rcases hn with rfl | rfl | rfl | rfl
    case inr.inr.inr => simp at h8
    all_goals
      apply BitVec.eq_of_toInt_eq
      rw [BitVec.toInt_signExtend_of_le (by decide), toInt_ofInt_small]
      · rw [BitVec.toInt_eq_toNat_cond, BitVec.toNat_ofNat]
        norm_num at hv ⊢
        rw [Nat.mod_eq_of_lt hv]
        (repeat' split) <;> omega
      · split <;> norm_num at hv ⊢ <;> omega
      · split <;> norm_num at hv ⊢ <;> omega

/-- Without a collision an access is what it is (R90). -/
theorem amid_nil (s : State) (p : PortUse) (f : State → State) : s.amid p [] f = f s := rfl

/-! What a store changes of the operations whose bytes it covers (R214): cores only, and of a core neither its program counter. -/

/-- A change of the cores alone, which the scratchpad's data do not enter. -/
structure CoresOnly (f : State → State) : Prop where
  data (s : State) (m : List Host.Cell) (p : List (Nat × Nat)) :
    f { s with mem := m, spMark := p } = { f s with mem := m, spMark := p }
  mem (s : State) : (f s).mem = s.mem
  spMark (s : State) : (f s).spMark = s.spMark
  pc (s : State) (d : Nat) : (f s).nextPc d = s.nextPc d

theorem CoresOnly.id : CoresOnly fun s => s := ⟨fun _ _ _ => rfl, fun _ => rfl, fun _ => rfl, fun _ _ => rfl⟩

theorem CoresOnly.comp {f g : State → State} (hf : CoresOnly f) (hg : CoresOnly g) : CoresOnly fun s => g (f s) :=
  ⟨fun s m p => (congrArg g (hf.data s m p)).trans (hg.data _ m p), fun s => (hg.mem _).trans (hf.mem s),
    fun s => (hg.spMark _).trans (hf.spMark s),
   fun s d => (hg.pc _ d).trans (hf.pc s d)⟩

/-- A change of one core that keeps its program counter. -/
theorem CoresOnly.core (c : Nat) {f : Core → Core} (h : ∀ k, (f k).pc = k.pc) : CoresOnly fun s => s.modCore c f := by
  refine ⟨fun _ _ _ => rfl, fun _ => rfl, fun _ => rfl, fun s d => ?_⟩
  by_cases hd : d = c
  · subst hd; simp [State.nextPc, h]
  · simp [State.nextPc, State.modCore, hd]

/-- One of two such changes, chosen by the cores. -/
theorem CoresOnly.ite {f g : State → State} (b : (Nat → Core) → Bool) (hf : CoresOnly f) (hg : CoresOnly g) :
    CoresOnly fun s => if b s.core then f s else g s := by
  refine ⟨fun s m p => ?_, fun s => ?_, fun s => ?_, fun s d => ?_⟩
  · dsimp only
    rw [show ({ s with mem := m, spMark := p } : State).core = s.core from rfl]
    split
    · exact hf.data s m p
    · exact hg.data s m p
  · split
    · exact hf.mem s
    · exact hg.mem s
  · split
    · exact hf.spMark s
    · exact hg.spMark s
  · split
    · exact hf.pc s d
    · exact hg.pc s d

theorem overwrite_cores (a n : Nat) : CoresOnly fun s => s.overwrite a n := by
  unfold State.overwrite
  cases classify a with
  | sp c _ => exact .ite (fun k => (k c).tally.isEmpty) .id (.core c fun _ => rfl)
  | _ => exact .id

theorem dropSources_cores (c : Nat) (o : List Rng) : CoresOnly fun s => s.dropSources c o := by
  unfold State.dropSources
  exact .ite (fun k => (k c).srcLog.isEmpty) .id (.core c fun _ => rfl)

theorem storedOver_cores (c a n : Nat) : CoresOnly fun s => s.storedOver c a n :=
  ((overwrite_cores a n).comp (dropSources_cores c [.mem none a (a + n)])).comp
    (g := fun s => if (s.core c).tally.isEmpty then s
      else s.modCore c fun k => { k with tally := k.tally.map fun e =>
        if e.state == .completed && (overlapAny [.mem none a (a + n)] e.ins || overlapAny [.mem none a (a + n)] e.outs)
        then { e with changed := true } else e })
    (.ite (fun k => (k c).tally.isEmpty) .id (.core c fun _ => rfl))

/-- A load within one scratchpad unit that nothing stops. -/
theorem load_unit {s : State} {c : CoreId} {rd ra imm ups off n sg op} (h : Ready s c.toNat) (hn : n = 1 ∨ n = 2 ∨ n = 4 ∨ n = 8)
  (h8 : n = 8 → sg = false)
  (hs : Claims.ownScratchpad c (Claims.dataAddr (s.upsets ups) c ra imm) off) (ha : off % n = 0)
  (hg : Claims.Granted (s.upsets ups) c off n false) (hx : collisionsOf ups = []) (hm : (s.upsets ups).spMarkAt (Claims.spAddr c off / 8 * 8) = 0) :
  Completed c.toNat rd (BitVec.ofInt 64 (if sg then Claims.signedNumber n (Claims.number ((s.upsets ups).bytes (Claims.spAddr c off) n)) else ((Claims.number ((s.upsets ups).bytes (Claims.spAddr c off) n) : Nat) : Int)))
     ((s.upsets ups).nextPc c.toNat) (s.upsets ups) (s.load c.toNat rd ra imm ups op n sg) := by
  unfold State.load
  rw [instr_ready s h]
  generalize s.upsets ups = u at *
  dsimp only
  rw [← dataAddr_eq, reach_sp hs]
  dsimp only
  have hal : (Claims.dataAddr u c ra imm).toNat % n = 0 := by
    obtain ⟨_, h2⟩ := hs
    rcases hn with rfl | rfl | rfl | rfl <;> omega
  have hunit : (spBase c.toNat + off) % 8 + n ≤ 8 := by
    unfold spBase
    rcases hn with rfl | rfl | rfl | rfl <;> omega
  have hsp : spBase c.toNat + off = Claims.spAddr c off := by unfold spBase Claims.spAddr; omega
  rw [if_neg (show ¬ (Claims.dataAddr u c ra imm).toNat % n ≠ 0 from fun h => h hal), (pitchOk_iff u c off n false (by omega)).mpr hg]
  simp only [Bool.not_true, Bool.false_eq_true, if_false]
  rw [hx, amid_nil, State.readSp, readUnits_unit _ _ _ _ (by omega) hunit, hsp, checkUnit_clean _ _ _ hm]
  have : anyPoison ((u.bytes (Claims.spAddr c off) n).map (·, false)) = false := anyPoison_plain _
  dsimp only
  rw [this]
  simp only [Bool.false_eq_true, if_false]
  have e : dataOf ((u.bytes (Claims.spAddr c off) n).map (·, false)) = u.bytes (Claims.spAddr c off) n := dataOf_plain _
  rw [e, loaded_eq n _ sg hn _ h8, number_eq]
  · exact completed_result u _ _ _
  · have := number_lt (u.bytes (Claims.spAddr c off) n)
    simpa [State.bytes] using this

/-- n bytes of a number are n. -/
theorem leBytes_length (n v : Nat) : (leBytes n v).length = n := by
  induction n generalizing v with
  | zero => rfl
  | succ n ih => simp [leBytes, ih]

/-- Byte i of a number. -/
theorem leBytes_getD (n v i : Nat) (h : i < n) : (leBytes n v).getD i 0 = BitVec.ofNat 8 (v / 256 ^ i) := by
  induction n generalizing v i with
  | zero => omega
  | succ n ih =>
    cases i with
    | zero => simp [leBytes]
    | succ i =>
      have := ih (v/256) i (by omega)
      simp only [leBytes, List.getD_cons_succ]
      rw [this, Nat.div_div_eq_div_mul, pow_succ, Nat.mul_comm]

/-- A store within one scratchpad unit that nothing stops. -/
theorem storeSp_unit {u : State} {c : CoreId} {a v off n ups} (hx : collisionsOf ups = []) (hn : n = 1 ∨ n = 2 ∨ n = 4 ∨ n = 8)
  (hal : a.toNat % n = 0) (ha : off % n = 0)
  (hg : Claims.Granted u c off n true) (hm : n = 8 ∨ u.spMarkAt (Claims.spAddr c off / 8 * 8) = 0) :
   (fun t : State =>
        (∀ x, t.byte x = if Claims.spAddr c off ≤ x ∧ x < Claims.spAddr c off + n then
          BitVec.ofNat 8 (v.toNat / 256 ^ (x - Claims.spAddr c off)) else u.byte x) ∧
        (∀ x, t.spMarkAt x = if n = 8 ∧ x = Claims.spAddr c off then 0 else u.spMarkAt x) ∧
        Completed c.toNat 0 0 (u.nextPc c.toNat)
          { u.storedOver c.toNat (Claims.spAddr c off) n with mem := t.mem, spMark := t.spMark } t)
      (u.storeSp c.toNat off n a v ups) := by
  unfold State.storeSp
  have hsp : spBase c.toNat + off = Claims.spAddr c off := by unfold spBase Claims.spAddr; omega
  have hunit : Claims.spAddr c off % 8 + n ≤ 8 := by
    unfold Claims.spAddr
    rcases hn with rfl | rfl | rfl | rfl <;> omega
  have hl : (leBytes n v.toNat).length = n := leBytes_length _ _
  rw [if_neg (fun h => h hal), (pitchOk_iff u c off n true (by omega)).mpr hg]
  simp only [Bool.not_true, Bool.false_eq_true, if_false]
  rw [hx, amid_nil, State.writeSp, writeUnits_unit _ _ _ _ (by omega) (by omega), hsp, hl]
  have data (w : State) (m p) (hw : w = { u with mem := m, spMark := p }) :
      Completed c.toNat 0 0 (u.nextPc c.toNat)
        { u.storedOver c.toNat (Claims.spAddr c off) n with mem := m, spMark := p }
        ((w.storedOver c.toNat (Claims.spAddr c off) n).retire c.toNat) := by
    have := completed_retire (w.storedOver c.toNat (Claims.spAddr c off) n) c.toNat
    have pc : w.nextPc c.toNat = u.nextPc c.toNat := by rw [hw]; rfl
    have e := (storedOver_cores c.toNat (Claims.spAddr c off) n).data u m p
    rw [(storedOver_cores _ _ _).pc, pc, hw, e] at this
    rw [hw, e]
    exact this
  by_cases h8 : n = 8
  · simp only [h8, if_true, Bool.false_eq_true, if_false, true_and]
    subst h8
    refine ⟨?_, ?_, ?_⟩
    · intro x
      rw [show ∀ t : State, (t.retire c.toNat).byte x = smGet 0 t.mem x from fun _ => rfl, (storedOver_cores _ _ _).mem]
      show (u.setBytes (Claims.spAddr c off) (leBytes 8 v.toNat)).byte x = _
      rw [State.byte_setBytes, hl]
      split
      · rw [leBytes_getD _ _ _ (by omega)]
      · rfl
    · intro x
      rw [show ∀ t : State, (t.retire c.toNat).spMarkAt x = smGet 0 t.spMark x from fun _ => rfl, (storedOver_cores _ _ _).spMark]
      show smGet 0 (smSet 0 u.spMark (Claims.spAddr c off) 0) x = _
      simp [State.spMarkAt]
    · rw [show ∀ t : State, (t.retire c.toNat).mem = t.mem from fun _ => rfl,
        show ∀ t : State, (t.retire c.toNat).spMark = t.spMark from fun _ => rfl, (storedOver_cores _ _ _).mem,
          (storedOver_cores _ _ _).spMark]
      exact data _ _ _ rfl
  · simp only [h8, if_false, false_or, false_and] at hm ⊢
    rw [checkUnit_clean _ _ _ hm]
    simp only [Bool.false_eq_true, if_false]
    refine ⟨?_, ?_, ?_⟩
    · intro x
      rw [show ∀ t : State, (t.retire c.toNat).byte x = smGet 0 t.mem x from fun _ => rfl, (storedOver_cores _ _ _).mem]
      show (u.setBytes _ _).byte x = _
      rw [State.byte_setBytes, hl]
      split
      · rw [leBytes_getD _ _ _ (by omega)]
      · rfl
    · intro x
      rw [show ∀ t : State, (t.retire c.toNat).spMarkAt x = smGet 0 t.spMark x from fun _ => rfl, (storedOver_cores _ _ _).spMark]
      rfl
    · rw [show ∀ t : State, (t.retire c.toNat).mem = t.mem from fun _ => rfl,
        show ∀ t : State, (t.retire c.toNat).spMark = t.spMark from fun _ => rfl, (storedOver_cores _ _ _).mem,
          (storedOver_cores _ _ _).spMark]
      exact data _ _ _ rfl

/-- The same, from the instruction's address. -/
theorem store_unit {s : State} {c : CoreId} {rd ra imm ups off n op} (h : Ready s c.toNat) (hn : n = 1 ∨ n = 2 ∨ n = 4 ∨ n = 8)
  (hs : Claims.ownScratchpad c (Claims.dataAddr s c ra imm) off) (ha : off % n = 0)
  (hg : Claims.Granted (s.upsets ups) c off n true) (hx : collisionsOf ups = []) (hm : n = 8 ∨
    (s.upsets ups).spMarkAt (Claims.spAddr c off / 8 * 8) = 0) :
  ∃ t, s.store c.toNat rd ra imm ups op n = some t ∧
        (∀ x, t.byte x = if Claims.spAddr c off ≤ x ∧ x < Claims.spAddr c off + n then
          BitVec.ofNat 8 ((s.gpr c.toNat rd).toNat / 256 ^ (x - Claims.spAddr c off)) else (s.upsets ups).byte x) ∧
        (∀ x, t.spMarkAt x = if n = 8 ∧ x = Claims.spAddr c off then 0 else (s.upsets ups).spMarkAt x) ∧
        Completed c.toNat 0 0 ((s.upsets ups).nextPc c.toNat)
          { (s.upsets ups).storedOver c.toNat (Claims.spAddr c off) n with mem := t.mem, spMark := t.spMark } t := by
  unfold State.store
  dsimp only
  rw [← dataAddr_eq, reach_sp hs]
  refine ⟨_, rfl, ?_⟩
  rw [instr_ready s h]
  refine storeSp_unit hx hn ?_ ha hg hm
  obtain ⟨_, h2⟩ := hs
  rcases hn with rfl | rfl | rfl | rfl <;> omega

end Sys2Proof.Machine
end

