-- ==== Sys2Proof/Laws/Memory.lean ====
section
/-! SUPPORT. Every operation that writes the module's memory keeps its canonical form, and the memory after reset has it. The
memory changes nowhere else: every operation of the model writes bytes through these. -/

namespace Sys2Proof.Machine

theorem memory_wf_reset : Memory.wf State.reset.mem := rfl

/-- What each step of a fold keeps, the fold keeps. -/
theorem foldl_keeps {α β : Type} {P : β → Prop} {f : β → α → β} (xs : List α) {b : β} (hb : P b)
    (hf : ∀ b x, P b → P (f b x)) : P (xs.foldl f b) := by
  induction xs generalizing b with
  | nil => exact hb
  | cons x xs ih => exact ih (hf b x hb)

namespace State

variable {s : State}

/-! ### Updates that leave the memory -/

@[simp] theorem setSpMark_mem (u m : Nat) : (s.setSpMark u m).mem = s.mem := rfl
@[simp] theorem setValid_mem (a : Nat) (v : Bool) : (s.setValid a v).mem = s.mem := rfl
@[simp] theorem setSummary_mem (a : Nat) (v : Bool) : (s.setSummary a v).mem = s.mem := rfl
@[simp] theorem setFastSyn_mem (w syn : Nat) : (s.setFastSyn w syn).mem = s.mem := rfl
@[simp] theorem setSlowSyn_mem (l syn : Nat) : (s.setSlowSyn l syn).mem = s.mem := rfl
@[simp] theorem setSlowBits_mem (l : Nat) (a b : Bool) : (s.setSlowBits l a b).mem = s.mem := rfl
@[simp] theorem trigger_mem : s.trigger.mem = s.mem := rfl
@[simp] theorem sendMsix_mem (v : Nat) : (s.sendMsix v).mem = s.mem := by
  unfold sendMsix
  dsimp only
  repeat' split
  all_goals rfl
@[simp] theorem raisePkg_mem (n : Nat) : (s.raisePkg n).mem = s.mem := by
  unfold raisePkg
  dsimp only
  repeat' split
  all_goals first | rfl | simp only [sendMsix_mem, trigger_mem, modHost_mem, setBit_mem]
@[simp] theorem offer_mem (e : Event) : (s.offer e).mem = s.mem := by
  unfold offer
  dsimp only
  rw [crier_mem]
  split
  · exact raisePkg_mem _
  · rfl
@[simp] theorem evCore_mem (c cls code payload : Nat) : (s.evCore c cls code payload).mem = s.mem := offer_mem _
@[simp] theorem evVault_mem (c cls code payload : Nat) : (s.evVault c cls code payload).mem = s.mem := offer_mem _
@[simp] theorem evStack_mem (t cls code payload : Nat) : (s.evStack t cls code payload).mem = s.mem := offer_mem _
@[simp] theorem recordFix_mem (t a place : Nat) (u : Bool) : (s.recordFix t a place u).mem = s.mem := by
  unfold recordFix
  rw [setReg_mem]
@[simp] theorem reservedLookup_mem (a : Nat) (b : Bool) : (s.reservedLookup a b).mem = s.mem := by
  unfold reservedLookup
  dsimp only
  generalize bankOf a * 16 + rowOf a / 4096 + (if b = true then 8 else 0) = r
  split <;> simp only [count_mem, modVault_mem]
@[simp] theorem markSummary_mem (a : Nat) : (s.markSummary a).mem = s.mem := by
  unfold markSummary
  rw [setSummary_mem, reservedLookup_mem]
@[simp] theorem dropBack_mem (w : Nat) : (s.dropBack w).mem = s.mem := by
  unfold dropBack
  dsimp only
  split <;> simp only [modVault_mem]
@[simp] theorem checkLookup_mem (l : Nat) : (s.checkLookup l).mem = s.mem := by
  delta checkLookup
  generalize channelOf l = t
  generalize checkBlock l = b
  generalize SLOW_CHECK_MISS = q
  extract_lets v w x y
  split
  · exact modStack_mem s t _
  · exact (count_mem _ _ _).trans (modStack_mem s t _)
@[simp] theorem keepBack_mem (w : Nat) (b : Option (List Byte)) : (s.keepBack w b).mem = s.mem := modVault_mem s _ _
@[simp] theorem keepLine_mem (l : Nat) (b : Option (List Byte)) : (s.keepLine l b).mem = s.mem := modStack_mem s _ _
@[simp] theorem rebuildRow_mem (r : Nat) : (s.rebuildRow r).mem = s.mem := by
  simp only [rebuildRow, count_mem, modVault_mem]
@[simp] theorem checkRow_mem (a : Nat) : (s.checkRow a).mem = s.mem := by
  unfold checkRow
  split
  · exact rebuildRow_mem _
  · rfl

/-! ### Bytes and ranges -/

theorem memory_wf_setBytes (a : Nat) (bs : List Byte) (h : Memory.wf s.mem) : Memory.wf (s.setBytes a bs).mem :=
  mem_wf_setBytes s a bs h
theorem memory_wf_zeroBytes (lo hi : Nat) (h : Memory.wf s.mem) : Memory.wf (s.zeroBytes lo hi).mem :=
  mem_wf_zeroBytes s lo hi h
theorem memory_wf_invalidate (lo hi : Nat) (h : Memory.wf s.mem) : Memory.wf (s.invalidate lo hi).mem := smWf_smClear lo hi h
theorem memory_wf_clearScratchpad (c : Nat) (h : Memory.wf s.mem) : Memory.wf (s.clearScratchpad c).mem :=
  smWf_smClear _ _ h
theorem memory_wf_zeroChannel (t : Nat) (h : Memory.wf s.mem) : Memory.wf (s.zeroChannel t).mem := smWf_filter _ h
theorem memory_wf_clearTiers (h : Memory.wf s.mem) : Memory.wf s.clearTiers.mem := smWf_smClear _ _ (smWf_smClear _ _ h)

/-! ### Scratchpads -/

theorem memory_wf_poisonUnit (u : Nat) (h : Memory.wf s.mem) : Memory.wf (s.poisonUnit u).mem := memory_wf_zeroBytes _ _ h

theorem memory_wf_checkUnit (c u : Nat) (h : Memory.wf s.mem) : Memory.wf (s.checkUnit c u).1.mem := by
  unfold checkUnit
  dsimp only
  split
  · exact h
  split
  · exact h
  split
  · exact h
  split
  · exact memory_wf_poisonUnit u h
  · exact memory_wf_poisonUnit u h

theorem memory_wf_readUnits (c a n : Nat) (h : Memory.wf s.mem) : Memory.wf (s.readUnits c a n).1.mem := by
  unfold readUnits
  exact foldl_keeps (P := fun x : State × List PByte => Memory.wf x.1.mem) _ h
    fun x u hx => memory_wf_checkUnit c u hx

theorem memory_wf_writeUnits (c a : Nat) (ps : List PByte) (h : Memory.wf s.mem) :
    Memory.wf (s.writeUnits c a ps).1.mem := by
  unfold writeUnits
  refine foldl_keeps (P := fun x : State × Bool => Memory.wf x.1.mem) _ h fun x u hx => ?_
  dsimp only
  have hc := memory_wf_checkUnit c u hx
  split
  · split
    · exact memory_wf_poisonUnit u hx
    · exact memory_wf_setBytes _ _ hx
  · split
    · exact hc
    · split
      · exact memory_wf_poisonUnit u hc
      · exact memory_wf_setBytes _ _ hc

/-! ### The fast tier -/

theorem memory_wf_storeWord (w : Nat) (ps : List PByte) (h : Memory.wf s.mem) : Memory.wf (s.storeWord w ps).mem := by
  have h : Memory.wf (s.dropBack w).mem := by rwa [dropBack_mem]
  unfold storeWord
  dsimp only
  split
  · rw [markSummary_mem]; exact memory_wf_zeroBytes _ _ h
  · exact memory_wf_setBytes _ _ h

theorem memory_wf_readWord (w : Nat) (kind : ReadKind) (again : Bool) (h : Memory.wf s.mem) :
    Memory.wf (s.readWord w kind again).1.mem := by
  unfold readWord
  generalize vaultOf w = c
  dsimp only
  repeat' split
  all_goals dsimp only
  all_goals first
    | with_reducible exact h
    | with_reducible exact memory_wf_storeWord _ _ h
    | (with_reducible refine memory_wf_storeWord _ _ ?_; simpa only [recordFix_mem, evVault_mem, count_mem] using h)
    | simpa only [keepBack_mem, recordFix_mem, evVault_mem, count_mem] using h

theorem memory_wf_readFastRows (ps : List (Nat × Nat)) (kind : ReadKind) (h : Memory.wf s.mem) :
    Memory.wf (s.readFastRows ps kind).1.mem := by
  unfold readFastRows
  dsimp only
  refine foldl_keeps (P := fun x : State × List (Nat × List PByte) => Memory.wf x.1.mem) _ ?_ fun x w hx => ?_
  · refine foldl_keeps (P := fun x : State => Memory.wf x.mem) _ h fun x r hx => ?_
    split <;> simpa using hx
  · split
    · exact memory_wf_readWord w kind false hx
    · exact hx

theorem memory_wf_readFast (a n : Nat) (kind : ReadKind) (h : Memory.wf s.mem) :
    Memory.wf (s.readFast a n kind).1.mem := memory_wf_readFastRows _ _ h

theorem memory_wf_writeWord (w : Nat) (valid : Bool) (new : List (Option PByte)) (h : Memory.wf s.mem) :
    Memory.wf (s.writeWord w valid new).1.mem := by
  have hr : Memory.wf ((s.count (vA (vaultOf w) VC_RMW)).readWord w .access).1.mem :=
    memory_wf_readWord w .access false (by rwa [count_mem])
  unfold writeWord
  dsimp only
  split
  · exact memory_wf_storeWord _ _ h
  split
  · split
    · exact memory_wf_storeWord _ _ h
    · exact memory_wf_setBytes _ _ h
  split
  · exact hr
  · exact memory_wf_storeWord _ _ hr

theorem memory_wf_writeRow (r : Nat) (parts : List (Nat × List PByte)) (h : Memory.wf s.mem) :
    Memory.wf (s.writeRow r parts).1.mem := by
  unfold writeRow
  dsimp only
  have key : ∀ z : State × Bool, Memory.wf z.1.mem → ∀ p : Prop, [Decidable p] →
      Memory.wf (if p then (z.1.setSummary r false, z.2) else z).1.mem := by
    intro z hz p _
    split <;> exact hz
  refine key _ ?_ _
  refine foldl_keeps (P := fun x : State × Bool => Memory.wf x.1.mem) _ ?_ fun x w hx => memory_wf_writeWord _ _ _ hx
  split <;> simpa using h

theorem memory_wf_writeFastRows (parts : List (Nat × List PByte)) (h : Memory.wf s.mem) :
    Memory.wf (s.writeFastRows parts).1.mem := by
  unfold writeFastRows
  exact foldl_keeps (P := fun x : State × Bool => Memory.wf x.1.mem) _ h fun x r hx => memory_wf_writeRow _ _ hx

theorem memory_wf_writeFast (a : Nat) (ps : List PByte) (h : Memory.wf s.mem) : Memory.wf (s.writeFast a ps).1.mem :=
  memory_wf_writeFastRows _ h

/-! ### The slow tier -/

theorem memory_wf_storeLine (l : Nat) (ps : List PByte) (h : Memory.wf s.mem) : Memory.wf (s.storeLine l ps).mem := by
  unfold storeLine
  dsimp only
  split
  · exact memory_wf_zeroBytes _ _ h
  · exact memory_wf_setBytes _ _ h

theorem memory_wf_writeLine (l : Nat) (ps : List PByte) (h : Memory.wf s.mem) : Memory.wf (s.writeLine l ps).mem :=
  memory_wf_storeLine _ _ (by rwa [count_mem, checkLookup_mem])

/-- What leaves the memory keeps its form. -/
theorem memory_wf_of_mem {u : State} (e : u.mem = s.mem) (h : Memory.wf s.mem) : Memory.wf u.mem := by rwa [e]

theorem memory_wf_readLine (l : Nat) (kind : ReadKind) (h : Memory.wf s.mem) : Memory.wf (s.readLine l kind).1.mem := by
  have h : Memory.wf (s.checkLookup l).mem := by rwa [checkLookup_mem]
  unfold readLine
  generalize s.checkLookup l = u at h
  generalize channelOf l = t
  dsimp only
  repeat' split
  all_goals dsimp only
  · exact memory_wf_of_mem (((evStack_mem _ _ _ _).trans (count_mem _ _ _)).trans (setSlowBits_mem _ _ _)) h
  · exact h
  · exact h
  · exact h
  · exact memory_wf_writeLine _ _
      (memory_wf_of_mem (((recordFix_mem _ _ _ _).trans (evStack_mem _ _ _ _)).trans (count_mem _ _ _)) h)
  · exact memory_wf_of_mem (((keepLine_mem _ _).trans (evStack_mem _ _ _ _)).trans (count_mem _ _ _)) h
  · exact memory_wf_writeLine _ _
      (memory_wf_of_mem (((recordFix_mem _ _ _ _).trans (evStack_mem _ _ _ _)).trans (count_mem _ _ _)) h)
  · exact memory_wf_of_mem (((keepLine_mem _ _).trans (evStack_mem _ _ _ _)).trans (count_mem _ _ _)) h

theorem memory_wf_readLines (ps : List (Nat × Nat)) (kind : ReadKind) (h : Memory.wf s.mem) :
    Memory.wf (s.readLines ps kind).1.mem := by
  unfold readLines
  exact foldl_keeps (P := fun x : State × List (Nat × List PByte) => Memory.wf x.1.mem) _ h
    fun x l hx => memory_wf_readLine l kind (by rwa [count_mem])

theorem memory_wf_readSlow (a n : Nat) (kind : ReadKind) (h : Memory.wf s.mem) :
    Memory.wf (s.readSlow a n kind).1.mem := memory_wf_readLines _ _ h

theorem memory_wf_writeLines (parts : List (Nat × List PByte)) (h : Memory.wf s.mem) :
    Memory.wf (s.writeLines parts).1.mem := by
  unfold writeLines
  refine foldl_keeps (P := fun x : State × Bool => Memory.wf x.1.mem) _ h fun x l hx => ?_
  dsimp only
  have hr : Memory.wf ((x.1.count (sA (channelOf l) SLOW_READS)).readLine l .access).1.mem :=
    memory_wf_readLine l .access (by rwa [count_mem])
  split
  · exact memory_wf_writeLine _ _ hx
  split
  · exact hr
  · exact memory_wf_writeLine _ _ hr

theorem memory_wf_writeSlow (a : Nat) (ps : List PByte) (h : Memory.wf s.mem) : Memory.wf (s.writeSlow a ps).1.mem :=
  memory_wf_writeLines _ h

/-! ### Any memory -/

theorem memory_wf_readDev (a n : Nat) (kind : ReadKind) (h : Memory.wf s.mem) : Memory.wf (s.readDev a n kind).1.mem := by
  unfold readDev
  split
  · exact memory_wf_readFast _ _ _ h
  · exact memory_wf_readSlow _ _ _ h
  · exact memory_wf_readUnits _ _ _ h
  · exact h

theorem memory_wf_writeDev (a : Nat) (ps : List PByte) (h : Memory.wf s.mem) : Memory.wf (s.writeDev a ps).1.mem := by
  unfold writeDev
  split
  · exact memory_wf_writeFast _ _ h
  · exact memory_wf_writeSlow _ _ h
  · exact memory_wf_writeUnits _ _ _ h
  · exact h

theorem memory_wf_poisonRange (lo hi : Nat) (h : Memory.wf s.mem) : Memory.wf (s.poisonRange lo hi).mem := by
  unfold poisonRange
  split
  · refine foldl_keeps (P := fun x : State => Memory.wf x.mem) _ h fun x r hx => ?_
    refine foldl_keeps (P := fun x : State => Memory.wf x.mem) _ ?_ fun x w hx => memory_wf_storeWord _ _ hx
    split <;> simpa using hx
  · exact foldl_keeps (P := fun x : State => Memory.wf x.mem) _ h fun x l hx => memory_wf_writeLine _ _ hx
  · exact foldl_keeps (P := fun x : State => Memory.wf x.mem) _ h fun x u hx => memory_wf_poisonUnit u hx
  · exact h

theorem memory_wf_upset (u : Upset) (h : Memory.wf s.mem) : Memory.wf (s.upset u).mem := by
  cases u
  case slowRetry t => unfold upset; rw [addSat_mem]; exact h
  case slowRate t code => unfold upset; rw [setFld_mem]; exact h
  all_goals unfold upset; dsimp only; repeat' split
  all_goals first
    | exact h
    | exact memory_wf_setBytes _ _ h

theorem memory_wf_upsets (us : List Upset) (h : Memory.wf s.mem) : Memory.wf (s.upsets us).mem :=
  foldl_keeps (P := fun x : State => Memory.wf x.mem) us h fun _ u hx => memory_wf_upset u hx

end State

end Sys2Proof.Machine
end

