-- ==== Sys2Proof/Laws/Regs.lean ====
section
/-! SUPPORT. The register map: which register an offset of a block is, that registers of different blocks differ, and what a write
that is admitted comes to. -/

namespace Sys2Proof.Machine

/-! ### Lookup -/

/-- The row and copy that hold an offset of a block. -/
def lookup (rg : Region) (off : Nat) : Option (RegRow × Nat) :=
  regRows.findSome? fun r => if r.region = rg then (r.covers off).map fun i => (r, i) else none

theorem findReg_of_region {a o off : Nat} {rg : Region} (h : regionOf a = some (rg, o, off)) :
    findReg a = (lookup rg off).map fun p => ⟨p.1, o, p.2, rg.base o + p.1.off + p.2 * p.1.stride⟩ := by
  unfold findReg lookup
  rw [h]
  dsimp only
  generalize regRows = l
  induction l with
  | nil => rfl
  | cons r l ih =>
    simp only [List.findSome?_cons]
    by_cases hr : r.region = rg
    · simp only [hr, if_true]
      cases r.covers off with
      | none => exact ih
      | some i => simp
    · simp only [hr, if_false]; exact ih

theorem regionOf_core {c off : Nat} (hc : c < 1024) (ho : off < 0x10000) : regionOf (cA c off) = some (.core, c, off) := by
  unfold regionOf cA coreBase
  rw [if_pos (by omega), show (0x3F0000000000 + 0x10000 * c + off - 0x3F0000000000) / 0x10000 = c by omega,
    show (0x3F0000000000 + 0x10000 * c + off - 0x3F0000000000) % 0x10000 = off by omega]

theorem regionOf_stack {t off : Nat} (ht : t < 16) (ho : off < 0x100000) : regionOf (sA t off) = some (.stack, t, off) := by
  unfold regionOf sA stackBase
  rw [if_neg (by omega), if_pos (by omega), show (0x3F0100000000 + 0x100000 * t + off - 0x3F0100000000) / 0x100000 = t by omega,
    show (0x3F0100000000 + 0x100000 * t + off - 0x3F0100000000) % 0x100000 = off by omega]

theorem regionOf_vault {c off : Nat} (hc : c < 1024) (ho : off < 0x20000) :
    regionOf (vA c off) = some (.stack, c / 64, off + 0x400 * (c % 64)) := by
  unfold regionOf vA stackBase
  rw [if_neg (by omega), if_pos (by omega),
    show (0x3F0100000000 + 0x100000 * (c / 64) + off + 0x400 * (c % 64) - 0x3F0100000000) / 0x100000 = c / 64 by omega,
    show (0x3F0100000000 + 0x100000 * (c / 64) + off + 0x400 * (c % 64) - 0x3F0100000000) % 0x100000
      = off + 0x400 * (c % 64) by omega]

theorem regionOf_package {off : Nat} (ho : off < 0x1000000) : regionOf (pA off) = some (.package, 0, off) := by
  unfold regionOf pA pkgBase
  rw [if_neg (by omega), if_neg (by omega), if_pos (by omega), show 0x3F0200000000 + off - 0x3F0200000000 = off by omega]

/-! ### Writes -/

/-- A write of a whole register that is admitted and sets no reserved field does what the register does with it, the
requester's halves discarded (R9, R11, R12). -/
theorem command_whole {s : State} {req : Requester} {a size o off : Nat} {rg : Region} {h : RegHit} {value : W64} {e : Env}
    (hacc : s.accessible req a = true) (hr : regionOf a = some (rg, o, off)) (hf : findReg a = some h)
    (hk : State.accessKind h a size = 1) (hm : s.mayWrite req rg o (h.base - rg.base o) = true)
    (hres : h.row.reservedSet (if size = 4 then value &&& 0xFFFFFFFF else value) (if h.row.wide then ~~~0 else 0xFFFFFFFF) = false) :
    s.command req a size value e = .next ((s.dropHalves req none).act h (if size = 4 then value &&& 0xFFFFFFFF else value)
      (if h.row.wide then ~~~0 else 0xFFFFFFFF) e) := by
  unfold State.command State.writeReg
  rw [if_pos hacc, hr]
  dsimp only
  rw [hf]
  dsimp only
  rw [hk]
  have hm' : (s.dropHalves req none).mayWrite req rg o (h.base - rg.base o) = true := hm
  cases hw : h.row.wide <;> rw [hw] at hres <;> simp_all [State.written]

end Sys2Proof.Machine
end

