-- ==== Sys2Proof/Laws/Words.lean ====
section
/-! SUPPORT. The fields of the control core's instruction words: each layout gives its fields back, and a word is the layout
of its fields. -/

namespace Sys2Proof

/-- The A form's fields. -/
theorem wordA_fields (op : Nat) (rd ra rb : BitVec 5) (fn : Nat) :
    (wordA op rd ra rb fn).extractLsb' 26 6 = BitVec.ofNat 6 op ∧ (wordA op rd ra rb fn).extractLsb' 21 5 = rd ∧
      (wordA op rd ra rb fn).extractLsb' 16 5 = ra ∧ (wordA op rd ra rb fn).extractLsb' 11 5 = rb ∧
      (wordA op rd ra rb fn).extractLsb' 0 11 = BitVec.ofNat 11 fn := by
  unfold wordA
  refine ⟨?_, ?_, ?_, ?_, ?_⟩ <;>
    (ext i hi; simp only [BitVec.getElem_extractLsb', BitVec.getLsbD_append]; rw [← BitVec.getLsbD_eq_getElem]
     repeat' split
     all_goals first | omega | (congr 1; omega))

/-- The I form's fields. -/
theorem wordI_fields (op : Nat) (rd ra : BitVec 5) (imm : W16) :
    (wordI op rd ra imm).extractLsb' 26 6 = BitVec.ofNat 6 op ∧ (wordI op rd ra imm).extractLsb' 21 5 = rd ∧
      (wordI op rd ra imm).extractLsb' 16 5 = ra ∧ (wordI op rd ra imm).extractLsb' 0 16 = imm := by
  unfold wordI
  refine ⟨?_, ?_, ?_, ?_⟩ <;>
    (ext i hi; simp only [BitVec.getElem_extractLsb', BitVec.getLsbD_append]; rw [← BitVec.getLsbD_eq_getElem]
     repeat' split
     all_goals first | omega | (congr 1; omega))

/-- The fields of a token operation. -/
theorem wordT_fields (sub : Nat) (rd ra : BitVec 5) (mid : Byte) (t : BitVec 4) :
    (wordT sub rd ra mid t).extractLsb' 26 6 = 0x30#6 ∧ (wordT sub rd ra mid t).extractLsb' 21 5 = rd ∧
      (wordT sub rd ra mid t).extractLsb' 16 5 = ra ∧ (wordT sub rd ra mid t).extractLsb' 12 4 = BitVec.ofNat 4 sub ∧
      (wordT sub rd ra mid t).extractLsb' 4 8 = mid ∧ (wordT sub rd ra mid t).extractLsb' 0 4 = t := by
  unfold wordT
  refine ⟨?_, ?_, ?_, ?_, ?_, ?_⟩ <;>
    (ext i hi; simp only [BitVec.getElem_extractLsb', BitVec.getLsbD_append]; rw [← BitVec.getLsbD_eq_getElem]
     repeat' split
     all_goals first | omega | (congr 1; omega))

/-- The fields of a bulk instruction's word 0. -/
theorem wordB0_fields (op : Nat) (mode : Byte) (w : BulkWord) :
    (wordB0 op mode w).extractLsb' 26 6 = 0x3E#6 ∧ (wordB0 op mode w).extractLsb' 20 6 = BitVec.ofNat 6 op ∧
      (wordB0 op mode w).extractLsb' 16 4 = w.wait ∧ (wordB0 op mode w).extractLsb' 12 4 = w.signal ∧
      (wordB0 op mode w).extractLsb' 8 4 = w.flags ∧ (wordB0 op mode w).extractLsb' 0 8 = mode := by
  unfold wordB0
  refine ⟨?_, ?_, ?_, ?_, ?_, ?_⟩ <;>
    (ext i hi; simp only [BitVec.getElem_extractLsb', BitVec.getLsbD_append]; rw [← BitVec.getLsbD_eq_getElem]
     repeat' split
     all_goals first | omega | (congr 1; omega))

/-- The fields of a bulk instruction's word 1. -/
theorem wordB1_fields (w : BulkWord) :
    (wordB1 w).extractLsb' 28 4 = w.a ∧ (wordB1 w).extractLsb' 24 4 = w.b ∧ (wordB1 w).extractLsb' 20 4 = w.d ∧
      (wordB1 w).extractLsb' 0 20 = w.op := by
  unfold wordB1
  refine ⟨?_, ?_, ?_, ?_⟩ <;>
    (ext i hi; simp only [BitVec.getElem_extractLsb', BitVec.getLsbD_append]; rw [← BitVec.getLsbD_eq_getElem]
     repeat' split
     all_goals first | omega | (congr 1; omega))

theorem bulkWordOf_words (op : Nat) (mode : Byte) (w : BulkWord) : bulkWordOf (wordB0 op mode w) (wordB1 w) = w := by
  obtain ⟨_, _, h2, h3, h4, _⟩ := wordB0_fields op mode w
  obtain ⟨k1, k2, k3, k4⟩ := wordB1_fields w
  simp only [bulkWordOf, h2, h3, h4, k1, k2, k3, k4]

/-- A word is the A form of its fields. -/
theorem wordA_of_fields (w : W32) :
    wordA (w.extractLsb' 26 6).toNat (w.extractLsb' 21 5) (w.extractLsb' 16 5) (w.extractLsb' 11 5)
      (w.extractLsb' 0 11).toNat = w := by
  unfold wordA
  rw [BitVec.ofNat_toNat, BitVec.ofNat_toNat, BitVec.setWidth_eq, BitVec.setWidth_eq]
  refine BitVec.eq_of_getLsbD_eq fun i hi => ?_
  simp only [BitVec.getLsbD_append, BitVec.getLsbD_extractLsb']
  repeat' split
  all_goals (rw [decide_eq_true (by omega), Bool.true_and]; congr 1; omega)

/-- A word is the I form of its fields. -/
theorem wordI_of_fields (w : W32) :
    wordI (w.extractLsb' 26 6).toNat (w.extractLsb' 21 5) (w.extractLsb' 16 5) (w.extractLsb' 0 16) = w := by
  unfold wordI
  rw [BitVec.ofNat_toNat, BitVec.setWidth_eq]
  refine BitVec.eq_of_getLsbD_eq fun i hi => ?_
  simp only [BitVec.getLsbD_append, BitVec.getLsbD_extractLsb']
  repeat' split
  all_goals (rw [decide_eq_true (by omega), Bool.true_and]; congr 1; omega)

/-- A word of opcode 0x30 is the token form of its fields. -/
theorem wordT_of_fields (w : W32) (h : w.extractLsb' 26 6 = 0x30#6) :
    wordT (w.extractLsb' 12 4).toNat (w.extractLsb' 21 5) (w.extractLsb' 16 5) (w.extractLsb' 4 8) (w.extractLsb' 0 4) = w := by
  unfold wordT
  rw [BitVec.ofNat_toNat, BitVec.setWidth_eq, show BitVec.ofNat 6 0x30 = w.extractLsb' 26 6 from h.symm]
  refine BitVec.eq_of_getLsbD_eq fun i hi => ?_
  simp only [BitVec.getLsbD_append, BitVec.getLsbD_extractLsb']
  repeat' split
  all_goals (rw [decide_eq_true (by omega), Bool.true_and]; congr 1; omega)

/-- A bulk instruction's word 0 is the layout of its fields. -/
theorem wordB0_of_fields (w0 w1 : W32) (h : w0.extractLsb' 26 6 = 0x3E#6) :
    wordB0 (w0.extractLsb' 20 6).toNat (w0.extractLsb' 0 8) (bulkWordOf w0 w1) = w0 := by
  unfold wordB0 bulkWordOf
  rw [BitVec.ofNat_toNat, BitVec.setWidth_eq, show BitVec.ofNat 6 0x3E = w0.extractLsb' 26 6 from h.symm]
  refine BitVec.eq_of_getLsbD_eq fun i hi => ?_
  simp only [BitVec.getLsbD_append, BitVec.getLsbD_extractLsb']
  repeat' split
  all_goals (rw [decide_eq_true (by omega), Bool.true_and]; congr 1; omega)

/-- A bulk instruction's word 1 is the layout of its fields. -/
theorem wordB1_of_fields (w0 w1 : W32) : wordB1 (bulkWordOf w0 w1) = w1 := by
  unfold wordB1 bulkWordOf
  refine BitVec.eq_of_getLsbD_eq fun i hi => ?_
  simp only [BitVec.getLsbD_append, BitVec.getLsbD_extractLsb']
  repeat' split
  all_goals (rw [decide_eq_true (by omega), Bool.true_and]; congr 1; omega)

end Sys2Proof
end

