-- ==== Sys2Proof/Tests/Slice0.lean ====
section
/-! SUPPORT. Tests: ill-formed commands that WellFormed refuses, words of the spec's encoding tables, single steps on small states
with results worked out from the spec, and for each statement states and operands that meet its hypotheses, clause by clause. -/

namespace Sys2Proof.Tests

set_option Elab.async false

open Sys2Proof Sys2Proof.Machine

/-! ### Small states -/

/-- A module booted and brought up: READY, DONE 5, PERST# deasserted. -/
def up : State :=
  { State.reset with
    regs := [(pA BRG_STATUS, 0x8A000000)],
    warden := { State.reset.warden with
      booted := true, stewardOk := true, identity := some 1, pins := { State.reset.warden.pins with perst := false } } }

/-- Core 0 of it On and running at the start of its scratchpad, with g1, g2 and g3, the tally `es`. -/
def on (g1 g2 g3 : W64) (es : List Entry := []) : State :=
  up.setCore 0 { Core.reset with
    power := 2, run := .running, pc := 0x3E8000000000, g := [(1, g1), (2, g2), (3, g3)], tally := es }

/-- An entry of the tally, queued, all zero. -/
def entry (slot opcode queue : Nat) : Entry :=
  { slot := slot, gen := 1, opcode := opcode, mode := 0, word := ⟨0, 0, 0, 0, 0, 0, 0⟩, queue := queue, a := ⟨0, 0, 0, 0⟩,
    b := ⟨0, 0, 0, 0⟩, d := ⟨0, 0, 0, 0⟩, c := ⟨0, 0, 0, 0⟩, e := ⟨0, 0, 0, 0⟩, seed := 0, stepNo := 0, idxBase := 0, vscalar := 0,
    target := 0, fwd := 0, unit := false, state := .queued, ins := [], outs := [], producers := [], heldR := false, heldW := false,
    short := false, tokenTaken := false, tile := none, fault := 0, detail := 0, resume := (0, 0), again := false,
      waitFor := none, poisonAt := 0,
    repairDone := false, status := 0, done := false, propagated := false, sent := [], inbox := [], far := none,
    written := [], changed := false }

/-- A packet of a type to core `dest` from core 1, all else zero. -/
def packet (typ dest : Nat) (place : Place) : Packet :=
  { typ := typ, dest := dest, src := 1, depoch := 0, sepoch := 0, tag := 0, channel := 0, red := 0, count := 1, arrive := 0,
    detour := false, addr := 0, first := true, contrib := 0, gen := 0, fmt := 0, shape := 0, final := true, status := 0, len := 0,
    pieces := [], unit := 0, data := [], poison := [], senders := [], phys := 0, checked := false, plan := none, held := 0,
      port := none, place := place }

/-- A crier message. -/
def msg (typ kind dest src : Nat) (arg : BitVec 6) (payload : W32) : Crier :=
  { typ := typ, kind := kind, dest := dest, src := src, arg := arg, payload := payload, event := none }

def withMsg (s : State) (m : Crier) : State := s.modNet fun n => { n with msgs := [m] }
def withPacket (s : State) (p : Packet) : State := s.modNet fun n => { n with packets := [p] }

/-- A packet of another module. -/
def bilo (typ : Nat) : BiloPacket :=
  { typ := typ, cls := 2, dst := 0, src := 2, srcCore := 0, tag := 0, addr := 0, gen := 0, contrib := 0, sat := false, fmt := 0,
    status := 0, barrow := 0, segment := 0, scale := 0, max := 0, subtype := 0, data := [], poison := [], len := 0, pieces := [],
      unit := 0, final := true,
    crcOk := true }

/-- Nothing upset, nothing found. -/
def quiet : RunFaults := { upsets := [], step := none, vuRow := none, collide := [] }

/-- Tests of bring-up that find nothing wrong. -/
def clean : TestResults :=
  { coolantFlow := 200, baseDies := [], edgeLinks := [], channels := [], rows := [], ports := [], partners := [], cores := [],
    groups := [], memories := [], retention := [] }

/-! ### Premises that recur -/

/-- A register write that is made, as a computation. -/
def admits (s : State) (req : Requester) (a : Nat) : Bool :=
  s.accessible req a && (match regionOf a with
    | some x => s.mayWrite req x.1 x.2.1 x.2.2
    | none => false)

theorem admitted {s : State} {req : Requester} {a : Nat} (h : admits s req a = true) : Claims.Admitted s req a := by
  simp only [admits, Bool.and_eq_true] at h
  refine ⟨h.1, ?_⟩
  cases e : regionOf a with
  | none => simp [e] at h
  | some x => exact ⟨x.1, x.2.1, x.2.2, rfl, by simpa [e] using h.2⟩

theorem clear {s : State} (h : s.spMark = []) (a n : Nat) : Claims.NoError s a n := by
  intro x _ _
  simp [State.spMarkAt, h, smGet]

theorem clean_range {s : State} {a n : Nat} (h : ∀ i, i < n → s.spMarkAt ((a + i) / 8 * 8) = 0) : Claims.NoError s a n := by
  intro x h1 h2
  obtain ⟨i, rfl⟩ := Nat.exists_eq_add_of_le h1
  exact h i (by omega)

theorem ready0 (g1 g2 g3 : W64) (es : List Entry) : Ready (on g1 g2 g3 es) 0 :=
  ⟨rfl, by change (fetchAddr 0 0x3E8000000000).isSome = true; decide +kernel⟩

/-! ### The control core -/

theorem witness_StepRunsTheFrontCommand :
    ({ State.reset with pending := [.ecall 0 0 0 0] }).pending = .ecall 0 0 0 0 :: [] ∧ State.reset.pending = [] := ⟨rfl, rfl⟩

theorem witness_ControlCoreWordsDecodeAndEncodeAgree :
    encodeScalar (.addi 7 5 3 0xFFF8) = some 0x20A3FFF8 ∧ Claims.upsetsOf (.addi 7 5 3 0xFFF8) = [] ∧
    encodeBulk (.mma 7 0x10 ⟨3, 4, 0, 5, 0, 0, 1⟩) = some (0xF8234010, 0x50000001) ∧
    decodeScalar 7 0xC0001004 = some (.twait 7 0 0 0 4) ∧
    (isBulkWord 0xF8834006 = true ∧ decodeBulk 7 0xF8834006 0x12350000 = some (.vopFma 7 ⟨3, 4, 0, 1, 2, 3, 0x50000⟩)) := by
  decide

/-- With rb 0 and not, shi's last kind that exists and the first that does not, lui's ra 0 and not. -/
theorem witness_ArithmeticWritesItsResults :
    Ready (on 0 0 0) 0 ∧ (0 : BitVec 5) = 0 ∧ (31 : BitVec 5) ≠ 0 ∧ (191 : W16).toNat / 64 < 3 ∧ 3 ≤ (192 : W16).toNat / 64 :=
  ⟨ready0 .., by and_intros <;> decide +kernel⟩

/-- jal with ra 0 and not; jalr to an aligned target and to one off by 2. -/
theorem witness_BranchesAndJumpsTakeTheirTargets :
    Ready (on 0x3E8000000004 0x3E8000000006 0) 0 ∧ (1 : BitVec 5) ≠ 0 ∧
    (BitVec.ofInt 64 (((on 0x3E8000000004 0 0).gpr 0 1).toInt + (-4 : W16).toInt)).toNat % 4 = 0 ∧
    (BitVec.ofInt 64 (((on 0x3E8000000006 0 0).gpr 0 1).toInt + (-4 : W16).toInt)).toNat % 4 ≠ 0 :=
  ⟨ready0 .., by and_intros <;> decide +kernel⟩

/-- A pc one past the scratchpad, one off its alignment, and a field not zero for each illegal form. -/
theorem witness_IllegalAndUnfetchableInstructionsTrap :
    ((on 0 0 0).modCore 0 fun k => { k with pc := 0x3E8000200000 }).fetching 0 = true ∧ fetchAddr 0 0x3E8000200000 = none ∧
    ((on 0 0 0).modCore 0 fun k => { k with pc := 0x3E8000000002 }).fetching 0 = true ∧ fetchAddr 0 0x3E8000000002 = none ∧
    Ready (on 0 0 0) 0 ∧ (31 : BitVec 5) ≠ 0 ∧ (255 : Byte) ≠ 0 :=
  ⟨by decide +kernel, by decide +kernel, by decide +kernel, by decide +kernel, ready0 .., by decide, by decide⟩

/-- A load and a store of the scratchpad's last 8 bytes, the second over a poisoned unit; the own registers, with a value that
leaves the reserved bit 0 zero and one that does not. -/
theorem witness_LoadsAndStoresReachTheirMemory :
    (let s := on 0x3E00001FFFF8 0 0
     Ready s 0 ∧ Claims.ownScratchpad 0 (Claims.dataAddr s 0 1 0) 0x1FFFF8 ∧ 0x1FFFF8 % 8 = 0 ∧ Claims.Granted s 0 0x1FFFF8 8 false ∧
     Claims.Granted s 0 0x1FFFF8 8 true ∧ s.spMarkAt (Claims.spAddr 0 0x1FFFF8 / 8 * 8) = 0) ∧
    (let s := (on 0x3E80001FFFF8 0 0).setSpMark 0x3E00001FFFF8 1
     Ready s 0 ∧ Claims.ownScratchpad 0 (Claims.dataAddr s 0 1 0) 0x1FFFF8 ∧ Claims.Granted s 0 0x1FFFF8 8 true) ∧
    (let s := on (BitVec.ofNat 64 (0x3F8000000000 + ICC_ENABLE)) 2 3
     Ready s 0 ∧ s.privileged 0 = true ∧ Claims.dataAddr s 0 1 0 = BitVec.ofNat 64 (0x3F8000000000 + ICC_ENABLE) ∧
     (s.gpr 0 2).getLsbD 0 = false ∧ (s.gpr 0 3).getLsbD 0 = true) :=
  ⟨⟨ready0 .., ⟨by decide, .inl (by decide +kernel)⟩, by decide, ⟨0, by decide +kernel⟩, ⟨0, by decide +kernel⟩, by decide +kernel⟩,
    ⟨⟨rfl, by decide +kernel⟩, ⟨by decide, .inr (by decide +kernel)⟩, ⟨0, by decide +kernel⟩⟩,
    ready0 .., by and_intros <;> decide +kernel⟩

/-- No address of the own scratchpad. -/
theorem outside {a : W64} (h : a.toNat < 0x3E0000000000 ∨ 0x3E8000200000 ≤ a.toNat) (off : Nat) :
    ¬ Claims.ownScratchpad 0 a off := by
  rintro ⟨h1, h2⟩
  have : (0 : CoreId).toNat = 0 := rfl
  rw [this] at h2
  omega

/-- The scratchpad reset has made: with every pitch of master 0 taken away, none grants. -/
def shut : State := (List.range 8).foldl (fun s p => s.setReg (cA 0 (PITCH + 4 * p)) 0) (on 0x3E8000000000 0 0)

/-- Each trap: no range; a register in user mode, and off its alignment; the scratchpad off its alignment, not granted, poisoned. -/
theorem witness_LoadsAndStoresTrapInOrder :
    (let s := on 0x3F8000010000 0 0
     Ready s 0 ∧ (∀ off, ¬ Claims.ownScratchpad 0 (Claims.dataAddr s 0 1 0) off) ∧ ¬ Claims.ownRegisters 0 (Claims.dataAddr s 0 1 0)) ∧
    (let s := (on 0x3F800000FFF8 0 0).modCore 0 fun k => { k with status := 0 }
     Ready s 0 ∧ (∀ off, ¬ Claims.ownScratchpad 0 (Claims.dataAddr s 0 1 0) off) ∧ Claims.ownRegisters 0 (Claims.dataAddr s 0 1 0) ∧
     s.privileged 0 = false) ∧
    (let s := on 0x3F8000000001 0 0
     Ready s 0 ∧ (∀ off, ¬ Claims.ownScratchpad 0 (Claims.dataAddr s 0 1 0) off) ∧ Claims.ownRegisters 0 (Claims.dataAddr s 0 1 0) ∧
     s.privileged 0 = true ∧ (Claims.dataAddr s 0 1 0).toNat % 8 ≠ 0) ∧
    (let s := on 0x3E8000000007 0 0
     Ready s 0 ∧ Claims.ownScratchpad 0 (Claims.dataAddr s 0 1 0) 7 ∧ 7 % 8 ≠ 0) ∧
    (Ready shut 0 ∧ Claims.ownScratchpad 0 (Claims.dataAddr shut 0 1 0) 0 ∧ ¬ Claims.Granted shut 0 0 8 true) ∧
    (let s := (on 0x3E8000000000 0 0).setSpMark 0x3E0000000000 1
     Ready s 0 ∧ Claims.ownScratchpad 0 (Claims.dataAddr s 0 1 0) 0 ∧ Claims.Granted s 0 0 4 true ∧
     s.spMarkAt (Claims.spAddr 0 0 / 8 * 8) = 1) := by
  refine ⟨⟨ready0 .., outside (by decide +kernel), ?_⟩, ⟨⟨rfl, by decide +kernel⟩, outside (by decide +kernel), ?_, by decide +kernel⟩,
    ⟨ready0 .., outside (by decide +kernel), ?_, by decide +kernel, by decide +kernel⟩,
    ⟨ready0 .., ⟨by decide, .inr (by decide +kernel)⟩, by decide⟩,
    ⟨⟨rfl, by decide +kernel⟩, ⟨by decide, .inr (by decide +kernel)⟩, ?_⟩,
    ⟨rfl, by decide +kernel⟩, ⟨by decide, .inr (by decide +kernel)⟩, ⟨0, by decide +kernel⟩, by decide +kernel⟩
  · unfold Claims.ownRegisters; decide +kernel
  · unfold Claims.ownRegisters; decide +kernel
  · unfold Claims.ownRegisters; decide +kernel
  · have h : ∀ p, p < 8 → shut.bit (cA 0 (PITCH + 4 * p)) 30 = false := by decide +kernel
    rintro ⟨p, hp, h1, -⟩
    exact absurd h1 (by simpa using h p hp)

/-- A pitch failure at the highest master and offset. -/
theorem witness_PitchFailuresAreRecorded : 7 < 8 ∧ 0x1FFFFF < 0x200000 ∧ 65535 < 65536 := by decide

/-- A register of each mode by its number, in both modes, and a number that is none; a value that fits its zero bits and one that
does not. -/
theorem witness_StateRegistersAreReadAndWritten :
    Ready (on 0xFFFFFFFF 0x100000000 0) 0 ∧ (on 0 0 0).privileged 0 = true ∧
    ((on 0 0 0).modCore 0 fun k => { k with status := 0 }).privileged 0 = false ∧
    (Claims.stateRegisters (on 0 0 0) 0).any (fun r => r.1 == 0x006 && r.2.1) = true ∧
    (Claims.writableRegisters 0xFFFFFFFF ((on 0 0 0).core 0)).any
      (fun r => r.1 == 0x103 && 0xFFFFFFFF &&& r.2.2.1 == 0 && 0x100000000 &&& r.2.2.1 != 0) = true ∧
    (Claims.stateRegisters (on 0 0 0) 0).all (fun r => r.1 != 0x104) = true ∧
    (Claims.writableRegisters 0 ((on 0 0 0).core 0)).all (fun r => r.1 != 0x008) = true :=
  ⟨ready0 .., by and_intros <;> decide +kernel⟩

/-- The last descriptor word and the first that is none. -/
theorem witness_DescriptorsHoldTheirWords : Ready (on 0 0 0) 0 ∧ (63 : W16).toNat < 64 ∧ 64 ≤ (64 : W16).toNat :=
  ⟨ready0 .., by decide, by decide⟩

/-- Core 0 with counter 15 at a value. -/
def counted (n : Nat) : State := (on 1023 0 0).setFld (cA 0 (TOK_COUNT + 4 * 14)) 7 0 n

/-- Counters at 0, 1, 254 and 255, in both modes; a tsend to a core that is served and to one that is retired. -/
theorem witness_TokensCountAndLeave :
    (∀ n ∈ [0, 1, 254, 255], Ready (counted n) 0 ∧ Claims.counter (counted n) 0 15 = n) ∧ (counted 0).privileged 0 = true ∧
    ((counted 0).modCore 0 fun k => { k with status := 0 }).privileged 0 = false ∧
    (Ready (on 1023 0 0) 0 ∧ (on 1023 0 0).unserved (((on 1023 0 0).gpr 0 1).toNat % 1024) = false) ∧
    (let s := (on 1023 0 0).modWarden fun w => { w with retired := [15 * 72 + 7 * 9 + 7] }
     Ready s 0 ∧ s.unserved ((s.gpr 0 1).toNat % 1024) = true) := by
  refine ⟨?_, by decide +kernel, by decide +kernel, ⟨ready0 .., by decide +kernel⟩, ⟨⟨rfl, by decide +kernel⟩, by decide +kernel⟩⟩
  intro n hn
  simp only [List.mem_cons, List.not_mem_nil, or_false] at hn
  rcases hn with rfl | rfl | rfl | rfl <;> exact ⟨⟨rfl, by decide +kernel⟩, by decide +kernel⟩

/-- A deliverable source: number 63 at priority 15, pending and enabled. -/
def pendingCore : State :=
  ((((on 0 0 0).modCore 0 fun k => { k with status := 3 }).setBit (cA 0 ICC_PENDING) 63 true).setBit (cA 0 ICC_ENABLE) 63 true).setFld
    (cA 0 (ICC_SRC + 4 * 62)) 3 0 15

/-- STATUS.TRAP clear and set; eret in both modes; a source to deliver, and IE clear. -/
theorem witness_TrapsEnterAndLeaveTheHandler :
    (Ready (on 0 0 0) 0 ∧ ((on 0 0 0).core 0).status.getLsbD 4 = false) ∧
    (let s := (on 0 0 0).modCore 0 fun k => { k with status := 0x1F }
     Ready s 0 ∧ (s.core 0).status.getLsbD 4 = true ∧ (s.core 0).status &&& 0xFFFFFFFFFFFFFFE0 = 0 ∧ s.privileged 0 = true) ∧
    (let s := (on 0 0 0).modCore 0 fun k => { k with status := 0x1E }
     Ready s 0 ∧ (s.core 0).status &&& 0xFFFFFFFFFFFFFFE0 = 0 ∧ s.privileged 0 = false) ∧
    (pendingCore.fetching 0 = true ∧ (pendingCore.core 0).status.getLsbD 1 = true ∧
      pendingCore.bit (cA 0 ICC_STATUS) 31 = false ∧ ∃ n, Claims.Deliverable pendingCore 0 n) ∧
    ((on 0 0 0).fetching 0 = true ∧ ((on 0 0 0).core 0).status.getLsbD 1 = false) := by
  unfold Claims.Deliverable
  refine ⟨⟨ready0 .., ?_⟩, ⟨⟨rfl, ?_⟩, ?_⟩, ⟨⟨rfl, ?_⟩, ?_⟩, ⟨?_, ?_, ?_, 63, ?_⟩, ?_⟩
  all_goals decide +kernel

/-- A tally that is empty and one that is not; a source pending and none; a miss of the scratchpad's last line, good and poisoned,
and a line that is there. -/
theorem witness_SystemInstructionsWaitAndFetch :
    (Ready (on 0 0 0) 0 ∧ ((on 0 0 0).core 0).tally = []) ∧
    (Ready (on 0 0 0 [entry 511 0x21 3]) 0 ∧ (∃ e ∈ ((on 0 0 0 [entry 511 0x21 3]).core 0).tally, e.unit = false) ∧
      ((on 0 0 0 [entry 511 0x21 3]).core 0).tally ≠ []) ∧
    (Ready pendingCore 0 ∧ Claims.SomePending pendingCore 0) ∧
    ¬ Claims.SomePending (on 0 0 0) 0 ∧
    (let s := (on 0 0 0).modCore 0 fun k => { k with pc := 0x3E80001FFFFC }
     Ready s 0 ∧ fetchAddr 0 (s.core 0).pc = some (Claims.spAddr 0 0x1FFFFC) ∧ (∀ x ∈ (s.core 0).icache, x.1 ≠ Claims.spAddr 0 0x1FFFC0) ∧
     Claims.NoError s (Claims.spAddr 0 0x1FFFC0) 64 ∧
     (let u := s.setSpMark (Claims.spAddr 0 0x1FFFF8) 1
      u.spMarkAt (Claims.spAddr 0 0x1FFFC0 + 8 * 7) = 1 ∧ ∀ j, j < 8 → u.spMarkAt (Claims.spAddr 0 0x1FFFC0 + 8 * j) ≤ 1) ∧
     ∃ x ∈ ((s.modCore 0 fun k => { k with icache := [(Claims.spAddr 0 0x1FFFC0, [])] }).core 0).icache,
       x.1 = Claims.spAddr 0 0x1FFFC0) := by
  refine ⟨⟨ready0 .., rfl⟩, ⟨ready0 .., ⟨_, by exact List.mem_cons_self, rfl⟩, by decide +kernel⟩,
    ⟨⟨by decide +kernel, by decide +kernel⟩, 63, by decide +kernel⟩, ?_,
    ⟨⟨rfl, by decide +kernel⟩, by decide +kernel, by decide +kernel, clear rfl _ _, by decide +kernel, _, by exact List.mem_cons_self, rfl⟩⟩
  have h : ∀ n, n < 64 → (on 0 0 0).bit (cA 0 ICC_PENDING) n = false := by decide +kernel
  rintro ⟨n, hn, h1⟩
  exact absurd h1 (by simpa using h n hn)

/-! ### Operations of the tally -/

/-- A tile of one row of FP32. -/
def row (kind base cols : Nat) : Desc := ⟨BitVec.ofNat 64 (7 * 2 ^ 56 + kind * 2 ^ 48 + base), 0, BitVec.ofNat 64 (cols * 2 ^ 16 + 1), 0⟩

def bulk0 : BulkWord := ⟨0, 0, 0, 0, 0, 0, 0⟩

theorem smov_in (w : BulkWord) :
    ((.smov 0 0 w, 0x21, 3, 0, Claims.usesOnly w 0 0 ∧ (0 : Byte) = 0 ∧ w.b = 0) : Instr × Nat × Nat × Byte × Prop) ∈
      Claims.bulkAll 0 0 w := by
  unfold Claims.bulkAll Claims.bulkModes
  exact List.mem_append_left _ (List.mem_append_left _ (List.mem_append_left _ (List.mem_append_left _
    (List.mem_of_getElem? (i := 7) rfl))))

/-- Core 0 with a full haul queue: 64 operations waiting. -/
def full : State := on 0 0 0 ((List.range 64).map fun n => entry n 0x20 3)

/-- SMOV with room for it and without, with B zero and not, and at a pc off its alignment of 8. -/
theorem witness_BulkInstructionsAreIssued :
    (Ready (on 0 0 0) 0 ∧ ((on 0 0 0).core 0).pc.toNat % 8 = 0 ∧ Claims.Room (on 0 0 0) 0 3 ∧
      ∃ p ∈ Claims.bulkAll 0 0 bulk0, p.1 = .smov 0 0 bulk0 ∧ p.2.2.1 = 3 ∧ p.2.2.2.2) ∧
    (Ready full 0 ∧ (full.core 0).pc.toNat % 8 = 0 ∧ ¬ Claims.Room full 0 3) ∧
    (∃ p ∈ Claims.bulkAll 0 0 { bulk0 with b := 15 }, p.1 = .smov 0 0 { bulk0 with b := 15 } ∧ ¬ p.2.2.2.2) ∧
    (let s := (on 0 0 0).modCore 0 fun k => { k with pc := 0x3E8000000004 }
     Ready s 0 ∧ (s.core 0).pc.toNat % 8 ≠ 0) := by
  refine ⟨⟨ready0 .., by decide +kernel, ?_, _, smov_in bulk0, rfl, rfl, ?_⟩, ⟨ready0 .., by decide +kernel, ?_⟩,
    ⟨_, smov_in _, rfl, fun h => ?_⟩, ⟨rfl, by decide +kernel⟩, by decide +kernel⟩
  · exact ⟨by decide +kernel, by decide +kernel, .inl rfl⟩
  · simp [Claims.usesOnly, bulk0]
  · exact fun h => absurd h.1 (by decide +kernel)
  · exact absurd h.2.2 (by decide)

/-- An SMOV of one FP32 row of 16 columns from the scratchpad's first bytes to its last. -/
def smov : Entry := { entry 511 0x21 3 with a := row 0 0 16, d := row 0 0x1FFFC0 16 }

theorem starts {s : State} {q : Nat} {e : Entry} (h : (s.queueHead 0 q == some e && s.entry 0 e.slot == some e && (s.core 0).power == 2
      && s.unitFree 0 q e && ((s.core 0).lentTo == none || e.unit) && (e.word.wait == 0 || decide (0 < Claims.counter s 0 e.word.wait))
      && decide ((s.producersOf 0 e).length ≤ 8) && !s.readHold 0 e && !s.writeHold 0 e) = true) : Claims.Starts s 0 q e := by
  simp only [Bool.and_eq_true, Bool.or_eq_true, Bool.not_eq_true', beq_iff_eq, decide_eq_true_eq] at h
  exact ⟨h.1.1.1.1.1.1.1.1, h.1.1.1.1.1.1.1.2, h.1.1.1.1.1.1.2, h.1.1.1.1.1.2, fun _ => h.1.1.1.1.2, h.1.1.1.2, h.1.1.2, h.1.2, h.2⟩

/-- A head of its queue whose token is 0, one that a reader before it holds, and a TSIG, an NRECV and an SMOV with no columns that
start. -/
theorem witness_OperationsStartInTheirTurn :
    (let e := { entry 0 0x21 3 with word := { bulk0 with wait := 15 } }
     let s := on 0 0 0 [e]
     Claims.Running s ∧ s.queueHead 0 3 = some e ∧ s.entry 0 0 = some e ∧ e.word.wait ≠ 0 ∧ Claims.counter s 0 15 = 0) ∧
    (let x := { entry 0 0x21 3 with state := .running, ins := [.mem none 0 8] }
     let e := { entry 1 0x21 3 with outs := [.mem none 7 9] }
     let s := on 0 0 0 [x, e]
     Claims.Running s ∧ s.queueHead 0 3 = some e ∧ s.entry 0 1 = some e ∧ (s.core 0).power = 2 ∧ s.unitFree 0 3 e = true ∧
     (s.core 0).lentTo = none ∧ e.word.wait = 0 ∧ s.readHold 0 e = true) ∧
    (let e := { entry 0 0x30 4 with target := 0x1FF8F }
     let s := on 0 0 0 [e]
     Claims.Running s ∧ Claims.Starts s 0 4 e ∧ e.ins = [] ∧ e.outs = [] ∧ e.target.getLsbD 31 = false ∧ e.target.toNat % 16 ≠ 0 ∧
     s.unserved (e.target.toNat / 2 ^ 7 % 1024) = false) ∧
    (let e := { entry 0 0x25 4 with d := row 0 0x1C0000 16 }
     let s := (on 0 0 0 [e]).setReg (cA 0 (PITCH + 0x80)) 0xDFFF0000
     Claims.Running s ∧ Claims.Starts s 0 4 e ∧ s.moveCause 0 e = none ∧ s.pitchMiss 0 e = none ∧
     ∀ p ∈ (s.core 0).posted, p.channel ≠ e.channel) ∧
    (let e := { smov with a := row 0 0 0 }
     let s := on 0 0 0 [e]
     Claims.Running s ∧ Claims.Starts s 0 3 e ∧ s.moveCause 0 e = some 5) := by
  refine ⟨by refine ⟨rfl, ?_⟩; decide +kernel, by refine ⟨rfl, ?_⟩; decide +kernel, ?_, ?_, ?_⟩
  · exact ⟨rfl, starts (by decide +kernel), rfl, rfl, by and_intros <;> decide +kernel⟩
  · exact ⟨rfl, starts (by decide +kernel), by and_intros <;> decide +kernel⟩
  · exact ⟨rfl, starts (by decide +kernel), by decide +kernel⟩

theorem witness_ScratchpadMovesCopyTheirRow :
    (let s := on 0 0 0 [smov]
     Claims.Running s ∧ Claims.OneRow smov.a ∧ Claims.OneRow smov.d ∧ smov.a.rowLen = smov.d.rowLen ∧
     smov.a.base + smov.a.rowLen ≤ 0x200000 ∧ smov.d.base + smov.d.rowLen = 0x200000 ∧
     Claims.NoError s (Claims.rowAddr 0 smov.a) smov.a.rowLen ∧ Claims.NoError s (Claims.rowAddr 0 smov.d) smov.d.rowLen ∧
     Claims.Starts s 0 3 smov ∧ s.moveCause 0 smov = none ∧ s.pitchMiss 0 smov = none) ∧
    (let e := { smov with state := .replaying, fault := 5, repairDone := true }
     let s := on 0 0 0 [e]
     s.entry 0 (511 : BitVec 9).toNat = some e ∧ e.done = false ∧ e.sent = [] ∧ e.waitFor = none ∧ (s.core 0).power = 2) :=
  ⟨⟨rfl, by unfold Claims.OneRow; decide +kernel, by unfold Claims.OneRow; decide +kernel, by decide +kernel, by decide +kernel,
    by decide +kernel, clear rfl _ _, clear rfl _ _, starts (by decide +kernel), by decide +kernel, by decide +kernel⟩, by decide +kernel⟩

/-- Running, done and signalling token 15 at 254 and at 255; completed with no producer, and with one that is open. -/
theorem witness_OperationsCompleteSignalAndSettle :
    (let e := { entry 511 0x21 3 with state := .running, done := true, word := { bulk0 with signal := 15 } }
     ∀ n ∈ [254, 255], let s := (on 0 0 0 [e]).setFld (cA 0 (TOK_COUNT + 4 * 14)) 7 0 n
       Claims.Running s ∧ s.entry 0 (511 : BitVec 9).toNat = some e ∧ e.word.signal ≠ 0 ∧ Claims.counter s 0 15 = n) ∧
    (let e := { entry 511 0x21 3 with state := .completed, fwd := 0x1FF8F, word := { bulk0 with signal := 1, flags := 8 } }
     let s := on 0 0 0 [e]
     Claims.Running s ∧ s.entry 0 (511 : BitVec 9).toNat = some e ∧
     (∀ p ∈ e.producers, ∀ x ∈ (s.core 0).tally, x.tag = p → x.state = .failed) ∧ e.word.flags.getLsbD 3 = true ∧
     e.fwd.getLsbD 31 = false ∧ e.fwd.toNat % 16 ≠ 0 ∧ s.unserved (e.fwd.toNat / 2 ^ 7 % 1024) = false) ∧
    (let x := { entry 0 0x21 3 with state := .running }
     let e := { entry 511 0x21 3 with state := .completed, producers := [x.tag] }
     let s := on 0 0 0 [x, e]
     s.entry 0 511 = some e ∧ ∃ p ∈ e.producers, ∃ x, (s.core 0).tally.find? (fun x => x.tag == p) = some x ∧ x.state ≠ .failed) := by
  refine ⟨?_, ⟨rfl, by decide +kernel, by simp [entry], by decide +kernel⟩, by decide +kernel, _, by exact List.mem_cons_self, _, rfl,
    by decide⟩
  intro e n hn
  simp only [List.mem_cons, List.not_mem_nil, or_false] at hn
  rcases hn with rfl | rfl <;> exact ⟨rfl, by and_intros <;> decide +kernel⟩

/-- A replay that waits for a core; a poisoned input with no source; one whose source is an SMOV of the log. -/
theorem witness_ReplaysAreLimitedAndRepaired :
    (let e := { entry 511 0x28 4 with state := .replaying, fault := 7, waitFor := some (.reset 1) }
     let s := on 0 0 0 [e]
     Claims.Running s ∧ s.entry 0 (511 : BitVec 9).toNat = some e ∧ e.written = [] ∧ e.done = false ∧ e.sent = [] ∧ e.waitFor ≠ none ∧
     s.fld (cA 0 TALLY_WAIT_LIMIT) 31 0 ≠ 0) ∧
    (let e := { entry 511 0x21 3 with state := .replaying, fault := 5, poisonAt := Claims.spAddr 0 0 }
     let s := (on 0 0 0 [e]).setSpMark (Claims.spAddr 0 0) 1
     s.entry 0 511 = some e ∧ e.written = [] ∧ e.repairDone = false ∧ s.poisonOf [(e.poisonAt, 1)] ≠ [] ∧
     s.source 0 e.poisonAt = none) ∧
    (let e := { entry 511 0x21 3 with state := .replaying, fault := 5, poisonAt := Claims.spAddr 0 0x1FFFC0, a := smov.d }
     let r : SrcRec := { src := [.mem none (Claims.rowAddr 0 smov.a) (Claims.rowAddr 0 smov.a + 64)],
                         dst := [.mem none (Claims.rowAddr 0 smov.d) (Claims.rowAddr 0 smov.d + 64)],
                         opcode := 0x21, a := smov.a, d := smov.d, tag := 0 }
     let s := (((on 0 0 0 [e]).setBit (cA 0 TALLY_CONTROL) 0 true).modCore 0 fun k => { k with srcLog := [r] }).setSpMark
       (Claims.spAddr 0 0x1FFFC0) 1
     s.entry 0 511 = some e ∧ s.poisonOf [(e.poisonAt, 1)] ≠ [] ∧ s.source 0 e.poisonAt = some (.log r) ∧
     s.poisonOf (s.useOf 0 e).reads = [Claims.spAddr 0 0x1FFFC0] ∧
     r.src = [.mem none (Claims.rowAddr 0 r.a) (Claims.rowAddr 0 r.a + r.a.rowLen)] ∧ Claims.OneRow r.a ∧ Claims.OneRow r.d ∧
     r.d.base % 8 = 0 ∧ r.d.rowLen % 8 = 0 ∧ Claims.NoError s (Claims.rowAddr 0 r.a) r.a.rowLen) :=
  by
  refine ⟨⟨rfl, ?_⟩, ?_, ?_, ?_, ?_, ?_, ?_, ?_, ?_, ?_, ?_, clean_range ?_⟩ <;> (try unfold Claims.OneRow) <;> decide +kernel

theorem witness_CoresAreClearedAndReport :
    (let e := { entry 511 0x21 3 with state := .failed }
     let s := (on 0 0 0 [e]).setReg (cA 0 TALLY_FAILED) (BitVec.ofNat 64 (e.tag.toNat * 2 ^ 48 + 1))
     Claims.Admitted s .host (cA 0 TALLY_FAILED) ∧ (s.core 0).power ≠ 0 ∧ s.bit (cA 0 TALLY_FAILED) 0 = true ∧
     s.entryOf 0 (BitVec.ofNat 16 (s.fld (cA 0 TALLY_FAILED) 63 48)) = some e ∧
     ∀ x ∈ (s.core 0).tally, x.state = .failed → x.slot = e.slot) ∧
    (Claims.Running up ∧ up.fld (cA 0 CORE_SP_STARVE) 15 0 ≠ 0) ∧
    (Claims.Running (up.setCore 1023 { Core.reset with power := 1 }) ∧
      ((up.setCore 1023 { Core.reset with power := 1 }).core 1023).power = 1) :=
  ⟨⟨admitted (by decide +kernel), by decide +kernel⟩, ⟨rfl, by decide +kernel⟩, rfl, by decide +kernel⟩

/-! ### The networks -/

theorem reachable {s : State} {c : CoreId} (h : (!(s.stack (c.toNat / 64)).fence && decide (2 ≤ (s.core c.toNat).power)) = true) :
    Claims.Reachable s c := by
  simpa [Claims.Reachable] using h

/-- One message of each TYPE, at a core that is reached and one that is Off; the event ring with room, full and wrapped. -/
theorem witness_CrierMessagesAreTaken :
    (let m := msg 1 0 0 1 15 0
     Claims.Running (withMsg (on 0 0 0) m) ∧ Claims.Next (withMsg (on 0 0 0) m) 0 m ∧ m.arg.toNat % 16 = (15 : BitVec 4).toNat ∧
     Claims.Reachable (withMsg (on 0 0 0) m) 0) ∧
    (let m := msg 1 0 1023 1 15 0
     Claims.Next (withMsg up m) 0 m ∧ m.dest = (1023 : CoreId).toNat ∧ ¬ Claims.Reachable (withMsg up m) 1023) ∧
    (∀ k ∈ [0, 1], let m := msg 3 k 1023 1 0 0xFFFF
     Claims.Next (withMsg up m) 0 m ∧ m.typ = 3) ∧
    (let m := msg 9 0 0 1 1 15
     Claims.Next (withMsg (on 0 0 0) m) 0 m ∧ m.arg.toNat % 16 = 1 ∧ m.payload.toNat % 16 = (15 : BitVec 4).toNat ∧
     Claims.Reachable (withMsg (on 0 0 0) m) 0) ∧
    (let m := msg 9 0 0 1 2 0x3FFFFFFF
     Claims.Next (withMsg up m) 0 m ∧ m.arg.toNat % 16 ≠ 1) ∧
    (∀ n ∈ [1, 16, 1023], let m := msg 2 0 0 1023 0 (BitVec.ofNat 32 n)
     up.warden.stopped ≠ 2 ∧ Claims.Next (withMsg up m) 0 m ∧ 1 ≤ m.payload.toNat ∧ m.payload.toNat ≤ 1023) ∧
    (let m := { msg 4 2 0 1023 0 0 with event := some ⟨0, 0, 1023, false, 0, 0⟩ }
     let s := withMsg (up.setFld (pA EVT_HEAD) 16 0 65536) m
     let u := withMsg (up.setFld (pA EVT_HEAD) 16 0 0x1FFFF) m
     (Claims.Next s 0 m ∧ (s.fld (pA EVT_HEAD) 16 0 + 2 ^ 17 - s.fld (pA EVT_TAIL) 16 0) % 2 ^ 17 = 65536) ∧
     (Claims.Next u 0 m ∧ (u.fld (pA EVT_HEAD) 16 0 + 2 ^ 17 - u.fld (pA EVT_TAIL) 16 0) % 2 ^ 17 ≠ 65536)) ∧
    (let m := msg 5 3 0 0x3FF 0 0
     let s := (withMsg up m).modNet fun n => { n with change := some (15, 7, 15, 0) }
     let u := (withMsg up { m with dest := 960 }).modNet fun n => { n with change := some (15, 7, 15, 0), told := List.range' 960 63 }
     Claims.Next s 0 m ∧ s.net.change = some (15, 7, 15, 0) ∧ (s.net.told.filter fun d => d / 64 = 0).length = 0 ∧
     Claims.Next u 0 { m with dest := 960 } ∧ (u.net.told.filter fun d => d / 64 = 15).length = 63 ∧
     let v := u.modNet fun n => { n with told := List.range' 960 56 }
     Claims.Next v 0 { m with dest := 960 } ∧
     movedPair 15 7 15 0 = some (960 + (v.net.told.filter fun d => d / 64 = 15).length, 15 * 72 + 63, 15 * 72 + 71)) ∧
    (∀ a ∈ [0, 1], let m := msg 6 3 0 0x3FF a 0
     let e := { entry 511 0x28 4 with state := .replaying, fault := 7, waitFor := some (.reset 63) }
     let s := withMsg (on 0 0 0 [e]) m
     Claims.Next s 0 m ∧ e ∈ (s.core 0).tally ∧ 0 / 64 = m.dest / 64 ∧ 63 / 64 = m.payload.toNat ∧ s.absorbing 63 = false) ∧
    (let m := msg 7 0 0 1 0 255
     let e := { entry 511 0x24 4 with state := .running, mode := 1, word := { bulk0 with op := 0x7FC }, sent := [(1, 0, 64)] }
     let s := withMsg (on 0 0 0 [e]) m
     Claims.Next s 0 m ∧ Claims.SlotsDiffer s 0 ∧ s.entry 0 511 = some e ∧ e.red ≠ 0 ∧ e.destCore = m.src ∧
     e.channel = m.payload.toNat % 256 ∧ e.sent ≠ [] ∧ e.fault = 0) ∧
    Claims.Next (withMsg up (msg 8 3 0 0x3FF 5 0)) 0 (msg 8 3 0 0x3FF 5 0) := by
  refine ⟨⟨rfl, ⟨rfl, rfl⟩, by decide, reachable (by decide +kernel)⟩, ⟨⟨rfl, rfl⟩, by decide, fun h => ?_⟩, ?_,
    ⟨⟨rfl, rfl⟩, by decide, by decide, reachable (by decide +kernel)⟩, ⟨⟨rfl, rfl⟩, by decide⟩, ?_,
    ⟨⟨⟨rfl, by decide +kernel⟩, by decide +kernel⟩, ⟨rfl, by decide +kernel⟩, by decide +kernel⟩, ⟨⟨rfl, rfl⟩, rfl, rfl, ⟨rfl,
      by decide +kernel⟩, by decide +kernel, ⟨rfl, by decide +kernel⟩,
    by decide +kernel⟩, ?_, ⟨⟨rfl, rfl⟩, by unfold Claims.SlotsDiffer; decide +kernel, by decide +kernel⟩, rfl, rfl⟩
  · exact absurd h.2 (by decide +kernel)
  · intro k hk
    simp only [List.mem_cons, List.not_mem_nil, or_false] at hk
    rcases hk with rfl | rfl <;> exact ⟨⟨rfl, rfl⟩, rfl⟩
  · intro n hn
    simp only [List.mem_cons, List.not_mem_nil, or_false] at hn
    rcases hn with rfl | rfl | rfl <;> exact ⟨by decide, ⟨rfl, rfl⟩, by decide, by decide⟩
  · intro a ha
    simp only [List.mem_cons, List.not_mem_nil, or_false] at ha
    rcases ha with rfl | rfl <;> exact ⟨⟨rfl, rfl⟩, by and_intros <;> decide +kernel⟩

theorem free {s : State} {p : Packet} (h : p.typ ≠ 0) : Claims.NotRefused s p := fun g => absurd g h

/-- A packet at its injection with its epoch and with another; in a router on its way, with one repeat at the router it enters, and with
a link down on it; at its destination, with its epoch there and with another. A plan of core 0 that has one of its two ports, and both. -/
theorem witness_PacketsFollowTheirRouteAndMerge :
    (let p := packet 2 0 .injected
     let s := withPacket up p
     Claims.Running s ∧ s.net.packets[0]? = some p ∧ s.packetFirst 0 = true ∧ (∀ c, s.planFor c p = none) ∧ Claims.NotRefused s p ∧
     s.linkRoom p p.src 0 = true ∧ p.sepoch = s.nodeEpoch p.src (p.src / 64)) ∧
    (let p := { packet 2 0 .injected with sepoch := 255, phys := 0x7FF }
     let s := withPacket up p
     s.packetFirst 0 = true ∧ s.linkRoom p p.src 0 = true ∧ p.checked = false ∧ p.sepoch ≠ s.nodeEpoch p.src (p.src / 64) ∧
     s.physOf p.src ≠ p.phys) ∧
    (let p := packet 2 7 (.router 1)
     let s := withPacket up p
     s.packetFirst 0 = true ∧ p.plan = none ∧ s.roomAhead p 1 = true ∧ s.itsTurn p 1 = true ∧ p.baseTaken = false ∧ 1 ≠ p.dest ∧
     nextHop 1 7 = (2, 1) ∧ 2 / 64 = 1 / 64 ∧ s.downOn 1 2 = [] ∧ s.linksTaken 1 2 = [(0, 1, 2)] ∧ linkEnd 0 1 2 = some (0, 2, 0) ∧
     s.servedBy 2 = some 2 ∧
     (let u := s.modNet fun n => { n with down := [⟨0, 1, 2, false⟩] }
      u.roomAhead p 1 = true ∧ u.itsTurn p 1 = true ∧ (∃ l ∈ u.downOn 1 2, u.detours l = false) ∧ p.port = none ∧ p.response = false ∧
      p.final = true) ∧
     (let u := s.modNet fun n => { n with down := [⟨0, 1, 2, true⟩] }
      u.roomAhead p 1 = true ∧ u.itsTurn p 1 = true ∧ u.downOn 1 2 ≠ [] ∧ ∀ l ∈ u.downOn 1 2, u.detours l = true)) ∧
    (let p := packet 2 1023 (.router 1023)
     let s := withPacket up p
     s.packetFirst 0 = true ∧ p.plan = none ∧ s.roomAhead p 1023 = true ∧ s.itsTurn p 1023 = true ∧ p.baseTaken = false ∧
     s.absorbing 1023 = false ∧ p.depoch = s.nodeEpoch 1023 (1023 / 64) ∧
     (let q := { p with depoch := 255, phys := 0x7FF }
      let u := withPacket up q
      u.packetFirst 0 = true ∧ u.roomAhead q 1023 = true ∧ u.itsTurn q 1023 = true ∧ u.absorbing 1023 = false ∧
      q.depoch ≠ u.nodeEpoch 1023 (1023 / 64) ∧ q.phys ≠ u.physOf 1023) ∧
     (let u := s.modCore 1023 fun k => { k with resetting := true }
      u.packetFirst 0 = true ∧ u.roomAhead p 1023 = true ∧ u.itsTurn p 1023 = true ∧ u.absorbing 1023 = true ∧
      u.drains p 15 = false)) ∧
    (let plan := up.setReg (cA 0 NI_MERGE) 0xA600FC00
     let w : W32 := 0xA600FC00
     let p := { packet 0 0 (.router 0) with channel := 63, arrive := 1, data := List.replicate 8 0, plan := some (0, w) }
     let q := { p with src := 2, arrive := 2 }
     let s := plan.modNet fun n => { n with packets := [p, q] }
     let u := plan.modNet fun n => { n with packets := [p] }
     (u.planHeld 0 0 w = [p] ∧ planInput w 2 = true ∧ ∀ y ∈ u.planHeld 0 0 w, y.arrive = 2 → y.final = false) ∧
     s.planHeld 0 0 w = [p, q] ∧ (∀ x, x < 5 → (planInput w x = true ↔ x = p.arrive ∨ x = q.arrive)) ∧ planRed w = 1 ∧
     p.data.length = 8 ∧ p.len = 0) := by
  refine ⟨⟨rfl, rfl, by decide +kernel, fun c => ?_, free (by decide), by decide +kernel, by decide +kernel⟩, ?_, ?_, ?_, ?_⟩
  · simp [State.planFor, packet]
  all_goals decide +kernel

/-- A link at both ends of a die, down and detoured; the spare column of stack 15, which serves no vault. -/
theorem witness_LinksFailAndRetiredPairsAreRefused :
    (Claims.Running up ∧ 71 < 72 ∧ linkEnd 15 70 2 = some (15, 71, 0) ∧
      ∀ l ∈ up.net.down, l.stack ≠ 15 ∨ l.phys ≠ 70 ∨ l.port ≠ 2) ∧
    (let s := up.modNet fun n => { n with down := [⟨15, 70, 2, false⟩, ⟨15, 71, 0, false⟩] }
     (⟨15, 70, 2, false⟩ : DownLink) ∈ s.net.down ∧ s.detourOk 15 70 2 = true) ∧
    (∀ j, j < 64 → up.physOf (15 * 64 + j) % 128 ≠ 71 / 9 * 16 + 71 % 9) ∧ linkEnd 15 71 0 = some (15, 70, 2) ∧
    (255 : Byte) ≠ up.epochAt 15 (1023 / 64) ∧ 15 * 72 + 70 ∈ (up.modWarden fun w => { w with retired := [15 * 72 + 70] }).warden.retired :=
  ⟨⟨rfl, by decide, by decide, by simp [up, State.reset]⟩, by and_intros <;> decide +kernel⟩

/-- A packet of a type at device address a, delivered at core 0. -/
def arrival (typ a n : Nat) : Packet :=
  { packet typ 0 (.delivered 0) with addr := BitVec.ofNat 46 a, len := if typ = 2 then n else 0, data := List.replicate n 0xFF, fmt := 7,
                                     contrib := 63, gen := 255, pieces := [(a, n)] }

theorem idle {s : State} (h : s.vaults = []) (v : Nat) : (s.vault v).waits = [] := by
  simp [State.vault, h, smGet, Vault.reset]

theorem atTarget {s : State} {i typ n c : Nat} {fastOnly write : Bool} {p : Packet} (hv : s.vaults = [])
    (h : (s.delivered i typ == some (p, c) && p.spans == [(p.addr.toNat, n)] && p.final && s.targetOk p.addr.toNat n fastOnly &&
      !s.fenced p (c / 64) && !(s.core c).resetting && !s.memoryDown p.addr.toNat && !s.behind i c p &&
      (!write || !p.tableFull s p.addr.toNat n) && !s.mustWait write (p.addr.toNat, n)) = true) :
    Claims.AtTarget s i typ n fastOnly write p c := by
  simp only [Bool.and_eq_true, Bool.or_eq_true, Bool.not_eq_true', beq_iff_eq] at h
  obtain ⟨⟨⟨⟨⟨⟨⟨⟨⟨h1, hs⟩, hf⟩, h2⟩, h3⟩, h4⟩, h5⟩, h6⟩, h7⟩, h8⟩ := h
  refine ⟨h1, hs, hf, .inr h2, h3, h4, h5, h6, fun w => ?_, h8, idle hv⟩
  rcases h7 with h7 | h7
  · rw [w] at h7; cases h7
  · exact h7

/-- Writes of the scratchpad's last bytes, granted and not, and of a fast-tier word; a read of the last bytes. -/
theorem witness_RemoteWritesAndReadsAreServed :
    (let p := arrival 1 0x3E00001FFFFF 1
     let s := (withPacket (on 0 0 0) p).setReg (cA 0 (PITCH + 0x80)) 0xDFFF0000
     Claims.Running s ∧ Claims.Whole p ∧ p.addr.toNat = Claims.spAddr 0 0x1FFFFF ∧ 0 < p.data.length ∧
     Claims.AtTarget s 0 1 p.data.length false true p 0 ∧ s.pitchGap 0 4 0x1FFFFF 1 true = none ∧ Claims.NoError s p.addr.toNat 1 ∧
     (let u := withPacket (on 0 0 0) p
      Claims.AtTarget u 0 1 p.data.length false true p 0 ∧ u.pitchGap 0 4 0x1FFFFF 1 true = some 0x1FFFFF)) ∧
    (let p := arrival 1 0x40 64
     let s := withPacket (on 0 0 0) p
     Claims.AtTarget s 0 1 64 false true p 0 ∧ p.addr.toNat % 64 = 0 ∧ p.data.length = 64 ∧ (s.vault 0).unchecked = []) ∧
    (let p := arrival 2 0x3E00001FFFFF 1
     let s := withPacket (on 0 0 0) p
     Claims.AtTarget s 0 2 p.len false false p 0 ∧ s.readWaits p = false) := by
  refine ⟨⟨rfl, by simp [Claims.Whole, arrival, packet], by decide, by decide, atTarget rfl (by decide +kernel), by decide +kernel,
    clear rfl _ _, atTarget rfl (by decide +kernel), by decide +kernel⟩,
    ⟨atTarget rfl (by decide +kernel), by and_intros <;> decide +kernel⟩, atTarget rfl (by decide +kernel), by decide +kernel⟩

/-- A contribution to a segment that has none of its generation, one twice, and one of a generation 128 behind. -/
theorem witness_ContributionsLandOnce :
    (∀ typ ∈ [4, 5], let p := arrival typ 0 64
     let s := (withPacket (on 0 0 0) p).setValid 0 true
     Claims.Running s ∧ Claims.Whole p ∧ p.data.length = 64 ∧ p.len = 0 ∧ (∀ q ∈ s.net.packets, p.partOfIt q = false) ∧
     p.pieces = [(p.addr.toNat, 64)] ∧ p.contrib < 64 ∧
     Claims.CleanWord s 0 ∧ Claims.Lands s 0 p.gen ∧ (Claims.taken s 0 p.gen).getLsbD p.contrib = false ∧ p.fmt = 7 ∧
     Claims.AtTarget s 0 typ 64 true true p 0) ∧
    (∀ g ∈ [(some 255, 0xFFFFFFFFFFFFFFFF), (some 127, 0)], let p := arrival 4 0 64
     let s := (withPacket (on 0 0 0) p).setSeg 0 { Seg.reset with gen := g.1, bitmap := g.2 }
     s.tensorAt 0 = none ∧ s.barrowAt 0 = none ∧ Claims.AtTarget s 0 4 64 true true p 0 ∧
     ((s.seg 0).gen = some p.gen ∧ (s.seg 0).bitmap.getLsbD p.contrib = true ∨ ∃ h, (s.seg 0).gen = some h ∧ 128 ≤ (p.gen - h).toNat)) := by
  refine ⟨?_, ?_⟩
  · intro typ ht
    simp only [List.mem_cons, List.not_mem_nil, or_false] at ht
    rcases ht with rfl | rfl <;>
      refine ⟨rfl, by simp [Claims.Whole, arrival, packet], ?_, ?_, ?_, ?_, ?_, by unfold Claims.CleanWord; decide +kernel,
        ⟨?_, ?_, .inl ?_⟩, ?_, rfl, atTarget rfl ?_⟩ <;> decide +kernel
  · intro g hg
    simp only [List.mem_cons, List.not_mem_nil, or_false] at hg
    rcases hg with rfl | rfl
    · exact ⟨by decide +kernel, by decide +kernel, atTarget rfl (by decide +kernel), .inl (by decide +kernel)⟩
    · exact ⟨by decide +kernel, by decide +kernel, atTarget rfl (by decide +kernel), .inr ⟨127, by decide +kernel⟩⟩

/-- A send that fills a posted receive; the one answer of an RRD; the last status of an RWR. -/
theorem witness_AnswersEndOperations :
    (let e := { entry 511 0x25 4 with d := row 0 0x1FFFC0 16, state := .running }
     let q : Posted := { slot := 511, channel := 0, red := 0, fanin := 1, refuse := false, senders := [], streams := [] }
     let p := { packet 0 0 (.delivered 0) with data := List.replicate 64 0, shape := 0x700010010, senders := [(1, 0)] }
     let s := (withPacket (on 0 0 0 [e]) p).modCore 0 fun k => { k with posted := [q] }
     Claims.Running s ∧ Claims.Whole p ∧ s.delivered 0 0 = some (p, 0) ∧ s.absorbing 0 = false ∧ s.drains p 0 = false ∧
       (s.core 0).posted = [q] ∧
     s.entry 0 511 = some e ∧ e.red = 0 ∧ p.first = true ∧ p.len = 0 ∧ p.shape = e.d.shapeWord ∧ Claims.OneRow e.d ∧
       p.data.length = e.d.rowLen ∧
     p.data.length = shapeBytes e.d.shapeWord ∧ e.d.base + e.d.rowLen = 0x200000 ∧
     Claims.NoError s (Claims.rowAddr 0 e.d) e.d.rowLen) ∧
    (let e := { entry 511 0x29 4 with a := row 1 0x3E0000200000 16, d := row 0 0x1FFFC0 16, state := .running,
                                      sent := [(1, Claims.spAddr 0 0x1FFFC0, 64)] }
     let p := { packet 3 0 (.delivered 0) with addr := 0x3E0000200000, tag := e.tag, data := List.replicate 64 0 }
     let s := withPacket (on 0 0 0 [e]) p
     s.delivered 0 3 = some (p, 0) ∧ s.entryOf 0 p.tag = some e ∧ s.entry 0 e.slot = some e ∧
     e.unitOf 0 p.addr.toNat = some [(0x3E0000200000, Claims.spAddr 0 0x1FFFC0, 64)] ∧ Claims.Answerable e ∧ e.far = none ∧
     e.inbox = []) ∧
    (let e := { entry 511 0x28 4 with state := .running, sent := [(1, 0x3E0000200000, 64)] }
     Claims.Answerable e ∧ e.far = none ∧ ∀ status ∈ [0, 1, 5],
       let p := { packet 6 0 (.delivered 0) with addr := 0x3E0000200000, tag := e.tag, status := status }
       let s := withPacket (on 0 0 0 [e]) p
       s.delivered 0 6 = some (p, 0) ∧ s.entryOf 0 p.tag = some e ∧ s.entry 0 e.slot = some e ∧ p.port = none ∧ e.fault = 0 ∧
       e.sent = [(1, p.addr.toNat, 64)]) := by
  refine ⟨⟨rfl, by simp [Claims.Whole, packet], ?_, ?_, ?_, ?_, ?_, ?_, ?_, ?_, ?_, by unfold Claims.OneRow; decide +kernel, ?_, ?_, ?_,
    clear rfl _ _⟩, ?_, ?_⟩
  iterate 12 decide +kernel
  · unfold Claims.Answerable; decide +kernel
  refine ⟨⟨rfl, rfl, .inl rfl⟩, rfl, fun status h => ?_⟩
  simp only [List.mem_cons, List.not_mem_nil, or_false] at h
  rcases h with rfl | rfl | rfl <;> decide +kernel

/-- A send that nothing receives; a change that is good, one with SUB 8, one at epoch 255, one during a stack reset; its end. -/
theorem witness_MapChangesRunToTheirEnd :
    (let p := { packet 0 0 (.delivered 0) with channel := 255 }
     let s := withPacket up p
     Claims.Running s ∧ s.fld (cA 0 NI_RECV_LIMIT) 31 0 ≠ 0 ∧ p ∈ s.net.packets ∧ ∀ q ∈ (s.core 0).posted, q.channel ≠ 255) ∧
    (let up := up.setReg (pA MAP_SUB + 4 * 15) 0xFFFFFFFF
     Claims.Admitted up .host (pA MAP_COMMAND) ∧ up.bit (pA MAP_STATUS) 0 = false ∧ (0x7F70 : W32) &&& 0x7FFF800F = 0 ∧
     (0x7F80 : W32) &&& 0x7FFF800F = 0 ∧ bits 0x7F70 14 11 = 15 ∧ bits 0x7F70 7 4 = 7 ∧ bits 0x7F80 7 4 = 8 ∧
     up.fld (pA MAP_SUB + 4 * 15) 31 28 = 15 ∧ up.fld (pA MAP_EPOCH + 4 * 15) 7 0 ≠ 255 ∧
     (up.setFld (pA MAP_EPOCH + 4 * 15) 7 0 255).fld (pA MAP_EPOCH + 4 * 15) 7 0 = 255) ∧
    (let s := up.modWarden fun w => { w with reset := some (1, 15) }
     Claims.Admitted s .host (pA MAP_COMMAND) ∧ s.bit (pA MAP_STATUS) 0 = false ∧ s.warden.reset = some (1, 15)) ∧
    (let s := up.modNet fun n => { n with change := some (15, 7, 15, 7) }
     s.warden.stopped ≠ 2 ∧ s.net.change = some (15, 7, 15, 7) ∧ ∀ m ∈ s.net.msgs, m.typ ≠ 5) :=
  ⟨⟨rfl, by decide +kernel⟩, ⟨admitted (by decide +kernel), by decide +kernel⟩, ⟨admitted (by decide +kernel), by decide +kernel⟩,
    by decide +kernel⟩

/-! ### Vaults -/

/-- The last bench's slots, due and not; a haul that is up and one that is down; a clear of all benches, one whose LAST is below its
FIRST, and one at its end. -/
theorem witness_HaulsRefreshAndClear :
    (Claims.Running up ∧ (up.vault 1023).haulDown = false ∧
      ((up.modVault 1023 fun v => { v with haulDown := true }).vault 1023).haulDown = true) ∧
    (let s := (up.setReg (vA 1023 VC_BENCH_RATE) 2).modVault 1023 fun v => { v with slots := [(127, 2)], slot := 127 }
     let due := s.modVault 1023 fun v => { v with slots := [(127, 3)] }
     let rate (n : Nat) := if s.fld (vA 1023 VC_REFRESH) 31 16 ≠ 0 then 0 else s.fld (vA 1023 VC_BENCH_RATE) (2 * n + 1) (2 * n)
     s.host.restPhase ≠ 1 ∧ (s.stack 15).fence = false ∧ (s.vault 1023).slot = 15 * 8 + 7 ∧ (s.vault 1023).slot ≠ 0 ∧
     (∀ n, n < 16 → rate n ≤ 2) ∧ rate 0 = 2 ∧ 2 ^ (2 - rate 15) ≤ smGet 0 (due.vault 1023).slots 127 + 1 ∧
     smGet 0 (s.vault 1023).slots 127 + 1 < 2 ^ (2 - rate 15)) ∧
    (Claims.Admitted up .host (vA 1023 VC_CLEAR) ∧ (0x40000F00 : W32) &&& 0x3FFFF00F = 0 ∧ up.bit (vA 1023 VC_CLEAR) 30 = false ∧
     bits 0x40000F00 7 4 ≤ bits 0x40000F00 11 8 ∧ bits 0x40000EF0 11 8 < bits 0x40000EF0 7 4) ∧
    (let s := up.modVault 1023 fun v => { v with clearing := some (0, 15) }
     Claims.Running s ∧ (s.vault 1023).clearing = some (0, 15) ∧ (s.vault 1023).opens = [] ∧ (s.vault 1023).cmds = [] ∧
     (s.vault 1023).unchecked = []) :=
  ⟨⟨rfl, by decide +kernel⟩, by and_intros <;> decide +kernel, ⟨admitted (by decide +kernel), by decide +kernel⟩, rfl,
    by decide +kernel⟩

/-- A repair of the last row of a vault's last bank, with spares and with a bank of 512 remaps; its end at a row that is invalid and
at one that is valid. Words of both tiers found beyond repair and corrected, the last of each; a row that has become invalid and a
channel that is down. -/
theorem witness_RowsAreSparedAndWordsFixed :
    (Claims.Admitted up .host (vA 1023 VC_REPAIR) ∧ (0x403FFFFF : W32) &&& 0x1FC00000 = 0 ∧ up.bit (vA 1023 VC_REPAIR) 30 = false ∧
     ¬ (512 ≤ (up.remapsOf (up.physVault 1023)).countP (fun e => e.1 / 32768 == bits 0x403FFFFF 21 15) ∨
       8192 ≤ (up.remapsOf (up.physVault 1023)).length) ∧
     (let s := up.modWarden fun w => { w with remaps := [(up.physVault 1023, (List.range 512).map fun n => (127 * 32768 + n, n))] }
      512 ≤ (s.remapsOf (s.physVault 1023)).countP (fun e => e.1 / 32768 == bits 0x403FFFFF 21 15))) ∧
    (∀ valid, let s := (up.modVault 1023 fun v => { v with repair := some 0x1FFFFFFFE00 }).setValid 0x1FFFFFFFE00 valid
     Claims.Running s ∧ (s.vault 1023).repair = some 0x1FFFFFFFE00 ∧ 0x1FFFFFFFE00 / 0x80000000 = 1023 ∧ (s.vault 1023).cmds = [] ∧
     (s.vault 1023).unchecked = [] ∧ (s.vault 1023).writeBacks = [] ∧ (s.rowValid 0x1FFFFFFFE00 = true → Claims.CleanRow s 0x1FFFFFFFE00)) ∧
    (∀ fix ∈ [none, some (List.replicate 64 (0xC3 : Byte))],
      let s := (up.modVault 1023 fun v => { v with writeBacks := [(0x1FFFFFFFFC0, fix)] }).modStack 15 fun k =>
        { k with slowBack := [(0x4EFFFFFFFC0, fix)] }
      (0x1FFFFFFFFC0 : Addr).toNat % 64 = 0 ∧ (0x4EFFFFFFFC0 : Addr).toNat % 64 = 0 ∧ (fix.getD (List.replicate 64 0)).length = 64 ∧
      (s.vault (0x1FFFFFFFFC0 / 0x80000000)).writeBacks.find? (fun x => x.1 == 0x1FFFFFFFFC0) = some (0x1FFFFFFFFC0, fix) ∧
      (s.setValid 0x1FFFFFFFE00 true).rowValid 0x1FFFFFFFFC0 = true ∧ s.rowValid 0x1FFFFFFFFC0 = false ∧
      (0x4EFFFFFFFC0 - 0x040000000000) / 4096 % 16 = 15 ∧
      (s.stack 15).slowBack.find? (fun x => x.1 == 0x4EFFFFFFFC0) = some (0x4EFFFFFFFC0, fix) ∧
      s.bit (sA 15 SLOW_STATUS) 3 = false ∧ (s.setReg (sA 15 SLOW_STATUS) 8).bit (sA 15 SLOW_STATUS) 3 = true) := by
  refine ⟨⟨admitted (by decide +kernel), by and_intros <;> decide +kernel⟩, ?_, by decide +kernel⟩
  intro valid
  cases valid
  · refine ⟨rfl, ?_, ?_, ?_, ?_, ?_, fun h => absurd h ?_⟩ <;> decide +kernel
  · refine ⟨rfl, ?_, ?_, ?_, ?_, ?_, fun _ => ⟨?_, ?_, ?_⟩⟩ <;> decide +kernel

/-- A channel that is up, one that is clearing; a valid row that the scrubber skips, one that it reads, the last line but one of a
channel, and a pass at its PERIOD's end. -/
theorem witness_SlowChannelsAndScrubbing :
    (Claims.Running up ∧ up.bit (sA 15 SLOW_STATUS) 3 = false ∧ Claims.Admitted up .host (sA 15 SLOW_CLEAR) ∧
     up.bit (sA 15 SLOW_STATUS) 2 = false ∧ ((up.modStack 15 fun k => { k with slowClearing := true }).stack 15).slowClearing = true) ∧
    (let r := 0x1FFFFFFFC00
     let s := ((up.setReg (sA 15 SCRUB_CONTROL) 0x800005A0).setValid r true).modVault 1023 fun v => { v with scrub := 4194302 }
     s.bit (sA 15 SCRUB_CONTROL) 31 = true ∧ s.stackDown 15 = false ∧ Claims.RowsInOrder s ∧ (s.vault 1023).scrub < 4194304 ∧ r % 512 = 0 ∧
     0x80000000 * 1023 + 512 * (s.vault 1023).scrub ≤ r ∧ r < 0x80000000 * 1024 - 512 ∧ s.rowValid r = true ∧ s.scrubSkips r = false ∧
     Claims.CleanRow s r ∧ (s.vault 1023).writeBacks = [] ∧
     (s.modVault 1023 fun v => { v with unchecked := [r] }).scrubSkips r = true ∧
     ∀ q, 0x80000000 * 1023 + 512 * (s.vault 1023).scrub ≤ q → q < r → s.rowValid q = false) ∧
    (let s := (up.setReg (sA 15 SCRUB_CONTROL) 0xC00005A0).modStack 15 fun k => { k with slowScrub := 1006632958 }
     let line := 0x040000000000 + 4096 * ((s.stack 15).slowScrub / 64 * 16 + 15) + 64 * ((s.stack 15).slowScrub % 64)
     s.bit (sA 15 SCRUB_CONTROL) 31 = true ∧ s.bit (sA 15 SCRUB_CONTROL) 30 = true ∧ s.bit (sA 15 SLOW_STATUS) 3 = false ∧
     s.bit (sA 15 SLOW_STATUS) 2 = false ∧ (s.stack 15).slowScrub < 1006632959 ∧
     line < 0x04F000000000 ∧ s.slowBits line = (false, false) ∧ s.slowSynAt line = 0 ∧ (s.stack 15).slowBack = []) ∧
    (let s := ((up.setReg (sA 15 SCRUB_STATUS) 1).setReg (sA 15 SCRUB_CONTROL) 0x8000000A).modStack 15 fun k =>
       { k with cycles := 3600000000000 }
     s.bit (sA 15 SCRUB_STATUS) 0 = true ∧
     (s.stack 15).passStart + 60000000000 * max 60 (min (s.fld (sA 15 SCRUB_CONTROL) 13 0) 10080) ≤ (s.stack 15).cycles.toNat) := by
  refine ⟨⟨rfl, by decide +kernel, admitted (by decide +kernel), by decide +kernel, by decide +kernel⟩, ?_, by decide +kernel,
    by decide +kernel⟩
  refine ⟨?_, ?_, ⟨?_, ?_⟩, ?_, ?_, ?_, ?_, ?_, ?_, ⟨?_, ?_, ?_⟩, ?_, ?_, fun q h1 h2 => ?_⟩
  rotate_right
  have e : 0x80000000 * 1023 + 512 * ((((up.setReg (sA 15 SCRUB_CONTROL) 0x800005A0).setValid 0x1FFFFFFFC00 true).modVault 1023
    fun v => { v with scrub := 4194302 }).vault 1023).scrub = 0x1FFFFFFFC00 := by decide +kernel
  · omega
  all_goals decide +kernel

/-! ### Near-bank computing -/

/-- A near-bank command's packet: operation and format, stride 1 and one step, and rows B, C, D of its bank. -/
def nbBytes (op b c d : Nat) : List Byte := leBytes 8 (2 ^ 48 + op) ++ leBytes 8 (b + 2 ^ 16 * c + 2 ^ 32 * d) ++ List.replicate 48 0

/-- The same of row A 32767 of the last bank of the last vault. -/
def nbCmd (op b c d : Nat) (core : Option Nat) : NbCmd := nbArrived (nbBytes op b c d) 0x11FFFFFFFE00 core 0x80

/-- A vault whose near-bank mode is on and ready. -/
def nbOn : State := (up.setReg (vA 1023 NB_MODE) 1).setReg (vA 1023 NB_STATUS) 1

/-- The mode off, powering, ready, draining; a row to rebuild. Each operation at an input that is fenced, off, refused and free,
from a core and from the host. -/
theorem witness_NearBankCommandsEnter :
    (Claims.Admitted up .host (vA 1023 NB_MODE) ∧ up.bit (vA 1023 NB_MODE) 0 = false ∧ (up.vault 1023).draining = false ∧
     Claims.Admitted nbOn .host (vA 1023 NB_MODE) ∧ nbOn.bit (vA 1023 NB_MODE) 0 = true ∧ nbOn.bit (vA 1023 NB_STATUS) 0 = true) ∧
    (let s := (up.setReg (vA 1023 NB_MODE) 1).modVault 1023 fun v => { v with powering := true }
     Claims.Running s ∧ (s.vault 1023).powering = true ∧ s.bit (vA 1023 NB_MODE) 0 = true) ∧
    (let s := up.modVault 1023 fun v => { v with draining := true, unchecked := [0x1FFFFFFFE00] }
     s.bankQuiet 1023 (bankOf 0x1FFFFFFFE00) = true ∧ (s.vault 1023).draining = true ∧ (s.vault 1023).cmds = [] ∧
       (s.vault 1023).unchecked = 0x1FFFFFFFE00 :: [] ∧
     0x1FFFFFFFE00 / 0x80000000 = 1023 ∧ (0x1FFFFFFFE00 : Nat) ∉ ([] : List Nat)) ∧
    (∀ p ∈ [(1, 0, 0), (2, 0, 0), (3, 32767, 0), (4, 0, 0), (5, 0, 0), (6, 0, 32767)], ∀ core ∈ [some 0, none],
     let k := nbCmd p.1 p.2.1 p.2.2 32766 core
     let s := nbOn.modVault 1023 fun v => { v with input := [k] }
     (s.vault 1023).input = [k] ∧ s.inputHolds 1023 k = false ∧ k.running = false ∧ s.nbAdmits 1023 k.bank = true ∧ k.op = p.1 ∧
       k.reason = 0 ∧ (s.stack 15).fence = false ∧
     ¬ (s.bit (vA 1023 NB_MODE) 0 = false ∨ (s.vault 1023).draining = true) ∧ (s.vault 1023).cmds.length < 256 ∧
       (s.vault 1023).opens = []) ∧
    (let k := nbCmd 7 0 0 0 (some 0)
     let s := nbOn.modVault 1023 fun v => { v with input := [k] }
     k.reason = 1 ∧ (nbCmd 0x10 0 0 1 none).reason = 0 ∧ (nbCmd 0x11 0 0 1 none).reason = 0 ∧ (nbCmd 0x12 0 0 0 none).reason = 0 ∧
     (nbCmd (2 ^ 32 + 1) 0 0 0 none).reason = 3 ∧ (nbCmd 1 1 0 0 none).reason = 5 ∧
     (s.modStack 15 fun k => { k with fence := true }).inputHolds 1023 k = false) :=
  ⟨⟨admitted (by decide +kernel), by decide +kernel, by decide +kernel, admitted (by decide +kernel), by decide +kernel, by decide +kernel⟩,
    ⟨rfl, by decide +kernel⟩, by and_intros <;> decide +kernel⟩

/-- A MAJ3 of four rows of one bank, before its start and running; the host's read of an earlier record. -/
theorem witness_NearBankCommandsRunAndReport :
    (let k := nbCmd 6 32766 32765 32764 (some 0)
     let s := nbOn.modVault 1023 fun v => { v with cmds := [k] }
     Claims.Running s ∧ (s.vault 1023).cmds = [k] ∧ k.bank = 127 ∧ k.rowAddrA / 0x80000000 = 1023 ∧ k.running = false ∧
     s.bit (vA 1023 NB_STATUS) 0 = true ∧ k.op = 6 ∧ k.count = 1 ∧ k.reason = 0 ∧ (s.vault 1023).unchecked = [] ∧
     (s.vault 1023).writeBacks = [] ∧ ∀ r ∈ k.reads.map k.rowAddr, Claims.CleanRow s r ∧ s.rowSummary r = false) ∧
    (∀ status ∈ [1, 3], let k := { nbCmd 6 32766 32765 32764 none with running := true, status := status }
     let r : NbResult := ⟨k.rowAddr 7, 127, List.replicate 64 0xFF⟩
     let s := nbOn.modVault 1023 fun v => { v with cmds := [k], results := [r] }
     k.status < 4 ∧ s.hostOpen = true ∧ s.inServiceAt (0x100000000000 + r.addr) = true ∧ s.stackDown 15 = false ∧
     s.resetHolds 1023 = false ∧ (s.vault 1023).haulDown = false ∧ (0x11FFFF000E00 : Addr).toNat = 0x100000000000 + r.addr ∧
       (0x11FFFF000E00 : Addr).toNat % 512 = 0 ∧
     r.addr / 0x80000000 = 1023 ∧ k.rowAddr k.rowD ≠ r.addr ∧ (s.vault 1023).results.find? (fun x => x.addr = r.addr) = some r) := by
  refine ⟨⟨rfl, ?_, ?_, ?_, ?_, ?_, ?_, ?_, ?_, ?_, ?_, ?_⟩, ?_⟩
  rotate_left 10
  have h : ∀ r ∈ (nbCmd 6 32766 32765 32764 (some 0)).reads.map (nbCmd 6 32766 32765 32764 (some 0)).rowAddr,
      (decide (r % 512 = 0) && decide (r < 0x020000000000) && (List.range 8).all fun i => nbOn.fastSynAt (r + 64 * i) == 0) = true ∧
        nbOn.rowSummary r = false := by decide +kernel
  · intro r hr
    obtain ⟨h1, h2⟩ := h r hr
    simp only [Bool.and_eq_true, decide_eq_true_eq] at h1
    exact ⟨⟨h1.1.1, h1.1.2, fun i hi => eq_of_beq ((List.all_eq_true.mp h1.2) i (List.mem_range.mpr hi))⟩, h2⟩
  all_goals decide +kernel
/-! ### The update unit -/

/-- A command of the update unit: operation, flags, tensor, count; step; word 2. -/
def updCmd (op flags tensor count step w2 : Nat) : UpdCmd :=
  ⟨leBytes 8 (op + 2 ^ 8 * flags + 2 ^ 16 * tensor + 2 ^ 32 * count) ++ leBytes 8 step ++ leBytes 8 w2 ++ leBytes 8 7 ++
    List.replicate 32 0,
    1023, 0x80, 0, false⟩

/-- Stack 15's unit, READY, with its table at the start of the stack and one command waiting. -/
def updOn (k : UpdCmd) : State :=
  ((up.setReg (sA 15 UPD_STATUS) 1).setReg (sA 15 UPD_TABLE) 0x1E000000000).modStack 15 fun q => { q with updIn := [k] }

/-- One row of 32 elements, rule 0, E4M3 working copy. -/
def words : List W64 :=
  [BitVec.ofNat 64 (3 * 2 ^ 53 + 0x1E000010000), 0x1F00000000, 0x4000000F000, 0x4000001F000, 0, 0x1E000020000, 0, 0]

def tensor0 : Tensor := newTensor 1023 words 1

/-- That tensor open on a unit. -/
def updOpened (k : UpdCmd) (x : Tensor) : State := (updOn k).modStack 15 fun q => { q with tensors := [x] }

def wordClean (s : State) (a : Nat) : Bool :=
  a % 64 == 0 && decide (a < 0x020000000000) && s.rowValid a && s.fastSynAt a == 0 && (s.vault (a / 2 ^ 31)).writeBacks == [] &&
    (s.vault (a / 2 ^ 31)).unchecked == []

theorem cleanWord {s : State} {a : Nat} (h : wordClean s a = true) : Claims.CleanWord s a := by
  simp only [wordClean, Bool.and_eq_true, beq_iff_eq, decide_eq_true_eq] at h
  exact ⟨h.1.1.1.1.1, h.1.1.1.1.2, h.1.1.1.2, h.1.1.2, h.1.2, h.2⟩

/-- A window that its pitch grants and one a bank word too far; a lend with an engine operation before it and without; a release;
DELAY with no tensor open and with one. Each refusal of an operation. -/
theorem witness_LendsAndRefusalsOfTheUpdateUnit :
    (let k := updCmd 1 0 0 0 0 0x1BFF1BFF
     let s := (updOn k).setReg (cA 1023 (PITCH + 0x60)) 0xDFFF0000
     Claims.Running s ∧ Claims.UpdFirst s 15 k 1 ∧ k.reason = 0 ∧ (s.stack 15).lends = [] ∧ bits (k.word 2) 12 0 = 0x1BFF ∧
     bits (k.word 2) 28 16 = 0x1BFF ∧ s.pitchOk k.core 3 (0x1BFF * 256) 256 false = true ∧
       s.pitchOk k.core 3 (0x1BFF * 256) 256 true = true ∧
     (updCmd 1 0 0 0 0 0x1C001BFF).reason = 0 ∧ bits ((updCmd 1 0 0 0 0 0x1C001BFF).word 2) 28 16 = 0x1C00) ∧
    (let x : Lend := ⟨1023, 0, 0x1BFF, 0x80, false⟩
     let s := (up.modStack 15 fun q => { q with lends := [x] }).setCore 1023 { Core.reset with power := 2, tally := [entry 0 0x21 3] }
     let u := s.modCore 1023 fun k => { k with tally := [entry 0 2 1] }
     (s.stack 15).lends = [x] ∧ x.effective = false ∧
     (∀ e ∈ (s.core 1023).tally.takeWhile (fun e => e.tag ≠ x.tag), 2 ≤ e.queue ∨ e.state = .failed) ∧
     ∃ e ∈ (u.core 1023).tally.takeWhile (fun e => e.tag ≠ x.tag), e.queue < 2 ∧ e.state ≠ .failed) ∧
    (let x : Lend := ⟨1023, 0, 0x1BFF, 0x80, true⟩
     let k := updCmd 2 0 0 0 0 (2 ^ 63)
     let s := (updOn k).modStack 15 fun q => { q with lends := [x] }
     Claims.UpdFirst s 15 k 2 ∧ k.reason = 0 ∧ k.word 2 = BitVec.ofNat 64 (2 ^ 63) ∧ (s.stack 15).lends = [x] ∧ x.core = 15 * 64 + 63) ∧
    (Claims.Admitted up .host (sA 15 UPD_CONFIG) ∧ (0x80000007 : W32) &&& 0x7FFFFFF8 = 0 ∧ (up.stack 15).tensors = [] ∧
     ((updOpened (updCmd 2 0 0 0 0 0) tensor0).stack 15).tensors ≠ [] ∧
     (0x80000007 : W32).toNat % 8 ≠ (updOpened (updCmd 2 0 0 0 0 0) tensor0).fld (sA 15 UPD_CONFIG) 2 0) ∧
    (∀ p ∈ [(1, 2), (2, 2), (0x10, 1), (0x11, 1), (0x12, 2), (0x13, 1)], let k := updCmd p.1 p.2 1023 1 0 0
     Claims.UpdFirst (updOn k) 15 k p.1 ∧ k.reason ≠ 0) ∧
    (∀ op ∈ [0x10, 0x11, 0x12, 0x13], let k := updCmd op 0 1023 1 1 0
     Claims.UpdFirst (updOn k) 15 k op ∧ k.reason = 0 ∧ k.count = 1 ∧ k.through = 0 ∧ k.mid = false ∧ (updOn k).tensor 15 1023 = none ∧
     (updOn k).workHeld 15 1023 = false ∧ (updOpened k tensor0).workHeld 15 1023 = false ∧
     (updOpened k tensor0).unitHeld [((updOpened k tensor0).tableAt 15 1023, 64)] [((updOpened k tensor0).tableAt 15 1023, 64)] = false ∧
     (updOpened k { tensor0 with failed := true }).workHeld 15 1023 = false ∧
     (updOpened k tensor0).tensorOpen 15 1023 = true ∧ (updOpened k tensor0).tensor 15 1023 = some tensor0 ∧
     tensor0.failed = false ∧ (updCmd op 0 1023 1 0 0).step ≠ tensor0.closed + 1 ∧
     (updOpened k { tensor0 with failed := true }).tensor 15 1023 = some { tensor0 with failed := true }) :=
  ⟨⟨rfl, by unfold Claims.UpdFirst; decide +kernel⟩, by decide +kernel, by unfold Claims.UpdFirst; decide +kernel,
    ⟨admitted (by decide +kernel), by decide +kernel⟩, by unfold Claims.UpdFirst; decide +kernel,
    by unfold Claims.UpdFirst; decide +kernel⟩

/-- The last entry of a table, valid and not; its CLOSE, DRAIN and RECON. -/
theorem witness_TensorsOpenCloseAndReconcile :
    (let k := updCmd 0x10 0 1023 1 1 0
     let a := 0x1E000000000 + 64 * 1023
     let s := ((updOn k).setValid a true).setBytes a (words.flatMap fun w => leBytes 8 w.toNat)
     let u := (updOn k).setValid a true
     Claims.Running s ∧ k.reason = 0 ∧ k.count = 1 ∧ s.fld (sA 15 UPD_TABLE) 45 16 * 65536 + 64 * k.tensor = a ∧
     Claims.UpdFirst s 15 k 0x10 ∧ s.tensorOpen 15 1023 = false ∧
     s.unitHeld [(a, 64)] [(a, 64)] = false ∧ Claims.CleanWord s a ∧
     Claims.UpdFirst u 15 k 0x10 ∧ u.tensorOpen 15 1023 = false ∧ u.unitHeld [(a, 64)] [(a, 64)] = false ∧ Claims.CleanWord u a ∧
     tensorOk 15 (s.updDelay 15) (newTensor 1023 ((List.range 8).map fun i => BitVec.ofNat 64 (Claims.number (s.bytes (a + 8 * i) 8))) 1) = true ∧
     tensorOk 15 (u.updDelay 15) (newTensor 1023 ((List.range 8).map fun i => BitVec.ofNat 64 (Claims.number (u.bytes (a + 8 * i) 8))) 1) = false) ∧
    (let k := updCmd 0x11 0 1023 1 1 0
     let s := ((updOpened k tensor0).setValid (0x1E000000000 + 64 * 1023) true).setReg (sA 15 UPD_CONFIG) 1
     Claims.UpdFirst s 15 k 0x11 ∧ k.reason = 0 ∧ k.count = 1 ∧ s.tensor 15 1023 = some tensor0 ∧ tensor0.slots = [] ∧
     tensor0.failed = false ∧ k.through = 0 ∧ k.mid = false ∧ k.step = tensor0.closed + 1 ∧ 1 ≤ s.updDelay 15 ∧
     (∀ e ∈ (s.stack 15).exacts, e.tensor ≠ 1023) ∧ s.workHeld 15 1023 = false ∧
     Claims.CleanWord s (0x1E000000000 + 64 * 1023)) ∧
    (∀ p ∈ [(0x12, 0), (0x12, 1), (0x13, 0)], let k := updCmd p.1 p.2 1023 1 0 0
     let s := updOpened k tensor0
     Claims.UpdFirst s 15 k p.1 ∧ k.reason = 0 ∧ k.count = 1 ∧ k.flags = p.2 ∧ s.tensor 15 1023 = some tensor0 ∧
     tensorOk 15 (s.updDelay 15) tensor0 = true ∧ tensor0.failed = false ∧ tensor0.slots = [] ∧ s.workHeld 15 1023 = false ∧
     ∀ e ∈ (s.stack 15).exacts, e.tensor ≠ 1023) := by
  unfold Claims.UpdFirst
  refine ⟨⟨rfl, ?_, ?_, ?_, ?_, ?_, ?_, cleanWord ?_, ?_, ?_, ?_, cleanWord ?_, ?_⟩,
    ⟨?_, ?_, ?_, ?_, ?_, ?_, ?_, ?_, ?_, ?_, ?_, ?_, cleanWord ?_⟩, ?_⟩
  all_goals decide +kernel

/-- The same entry at each form's completion, its table at the end of the fast tier; with one slot that is due and landed. -/
theorem witness_UpdateUnitCommandsComplete :
    (let k := updCmd 0x10 0 1023 1 1 0
     let a := 0x1E000000000 + 64 * 1023
     let s := ((updOn k).setValid a true).setBytes a (words.flatMap fun w => leBytes 8 w.toNat)
     Claims.Running s ∧ Claims.UpdFirst s 15 k 0x10 ∧ s.tableAt 15 1023 + 64 ≤ 0x020000000000 ∧ s.tensorOpen 15 1023 = false ∧
     s.unitHeld [(s.tableAt 15 1023, 64)] [(s.tableAt 15 1023, 64)] = false ∧ s.workHeld 15 1023 = false ∧
     tensorOk 15 (s.updDelay 15) (newTensor 1023 (s.readTable 15 1023).2 k.step) = true) ∧
    (∀ p ∈ [(0x11, 0, 2), (0x12, 0, 0), (0x12, 1, 0), (0x13, 0, 0)], let k := updCmd p.1 p.2.1 1023 1 p.2.2 0
     let q : Slot := { place := 0, stepNo := 1, folds := 1, closed := true, started := true, landed := true, poisoned := false }
     let x : Tensor := { tensor0 with slots := [q], closed := 1 }
     let s := (updOpened k x).setReg (sA 15 UPD_CONFIG) 1
     Claims.UpdFirst s 15 k p.1 ∧ k.reason = 0 ∧ k.count = 1 ∧ s.tensor 15 1023 = some x ∧ x.failed = false ∧
     tensorOk 15 (s.updDelay 15) x = true ∧ k.through = 0 ∧ k.mid = false ∧ (p.1 = 0x11 → k.step = x.closed + 1) ∧
     s.unitHeld [(s.tableAt 15 1023, 64)] [(s.tableAt 15 1023, 64)] = false ∧ s.workHeld 15 1023 = false ∧
     (p.1 = 0x11 → (s.updDelay 15 : Int) ≤ (k.step - q.stepNo).toInt) ∧ 1 ≤ s.updDelay 15 ∧
     ∀ e ∈ (s.stack 15).exacts, e.tensor ≠ 1023) := by
  unfold Claims.UpdFirst
  refine ⟨⟨rfl, ?_⟩, ?_⟩ <;> decide +kernel

theorem count_le_one {l : List Nat} (h : l.Nodup) (n : Nat) : l.count n ≤ 1 := List.nodup_iff_count_le_one.1 h n

/-- The same words under rule 1. -/
def tensor1 : Tensor := newTensor 1023 (BitVec.ofNat 64 (2 ^ 60 + 3 * 2 ^ 53 + 0x1E000010000) :: words.tail) 1

/-- Exact updates of rule 0, with one error in each of two chunks, and of rule 1 with a core lent. Contributions to a segment of no
tensor and to a slot that takes them, of each type. -/
theorem witness_ExactUpdatesAndStalledContributionsComplete :
    (let q : Slot := { place := 0, stepNo := 1, folds := 1, closed := true, started := false, landed := false, poisoned := false }
     let e : Exact := ⟨1023, 0, 1, none⟩
     let x : Tensor := { tensor0 with slots := [q] }
     let y : Tensor := { tensor1 with slots := [q] }
     let l : Lend := ⟨1023, 0, 0x1BFF, 0x80, true⟩
     let s := (updOpened (updCmd 2 0 0 0 0 0) x).modStack 15 fun k => { k with exacts := [e] }
     let u := ((((updOpened (updCmd 2 0 0 0 0 0) y).modStack 15 fun k => { k with exacts := [e], lends := [l] }).setReg
       (sA 15 UPD_LR + 0x1C) 3).setReg (cA 1023 (PITCH + 0x60)) 0xDFFF0000)
     Claims.Running s ∧ (s.stack 15).exacts = [e] ∧ s.tensor 15 e.tensor = some x ∧ x.slotIn e.slot = some q ∧ q.closed = true ∧
     (∀ n, [0, 1].count n ≤ 1) ∧ x.rule = 0 ∧ s.unitHeld (x.exactSpans q).1 (x.exactSpans q).2 = false ∧
     (u.stack 15).exacts = [e] ∧ u.tensor 15 e.tensor = some y ∧ y.slotIn e.slot = some q ∧ y.rule = 1 ∧
     u.unitHeld (y.exactSpans q).1 (y.exactSpans q).2 = false ∧ (u.exactRules 15 e y q).iter = 3 ∧ l ∈ (u.stack 15).lends ∧
     ∀ l ∈ (u.stack 15).lends, l.effective = true ∧ (u.vault l.core).haulDown = false ∧
       ∀ w, u.pitchGap l.core 3 (l.base * 256) ((l.limit + 1 - l.base) * 256) w = none) ∧
    (∀ typ ∈ [4, 5], let p := { arrival typ 0x1E000020000 64 with held := 2, gen := 1, dest := 960, place := .delivered 960 }
     let s := withPacket (updOpened (updCmd 2 0 0 0 0 0) tensor0) p
     Claims.Running s ∧ s.net.packets[0]? = some p ∧ p.len = 0 ∧ (∀ q ∈ s.net.packets, p.partOfIt q = false) ∧
     p.pieces = [(p.addr.toNat, p.data.length)] ∧ p.contrib < 64 ∧ Claims.AtTarget s 0 p.typ p.data.length true true p 960 ∧
     (s.land p.addr.toNat p.gen).2 = .at_ p.addr.toNat ∧ s.mustWait true (p.addr.toNat, p.data.length) = false) := by
  refine ⟨⟨rfl, rfl, by decide +kernel, by decide +kernel, rfl, count_le_one (by decide), ?_⟩, fun typ h => ?_⟩
  · decide +kernel
  · simp only [List.mem_cons, List.not_mem_nil, or_false] at h
    rcases h with rfl | rfl <;>
      refine ⟨rfl, rfl, rfl, ?_, ?_, ?_, atTarget rfl ?_, ?_⟩ <;> decide +kernel

/-- That tensor's one slot closed, its gradient received, its lines good; contributions that stalled. -/
theorem witness_ExactUpdatesWriteTheMaster :
    (let q : Slot := { place := 0, stepNo := 1, folds := 1, closed := true, started := false, landed := false, poisoned := false }
     let x : Tensor := { tensor0 with slots := [q] }
     let e : Exact := ⟨1023, 0, 1, none⟩
     let s := (((updOpened (updCmd 2 0 0 0 0 0) x).modStack 15 fun k => { k with exacts := [e] }).setValid 0x1E000020000 true).setSeg
       (0x1E000020000 / 4096) { Seg.reset with gen := some 1 }
     Claims.Running s ∧ (s.stack 15).exacts = e :: [] ∧ s.tensor 15 e.tensor = some x ∧ x.slots = [q] ∧ q.place = e.slot ∧ q.closed = true ∧
     x.rule = 0 ∧ q.folds = 1 ∧ x.size = 32 ∧ x.grad % 4096 = 0 ∧ x.master % 4096 = 0 ∧ x.moment % 4096 = 0 ∧
     x.master + 4 * x.size ≤ x.moment ∧
     (∀ i, i < 4 * 32 → Claims.CleanWord s ((x.slotAt q.place + i) / 64 * 64) ∧ (s.seg ((x.slotAt q.place + i) / 4096)).gen ≠ none) ∧
     (∀ i, i < 4 * 32 → Claims.CleanLine s ((x.master + i) / 64 * 64)) ∧ ∀ i, i < 2 * 32 → Claims.CleanLine s ((x.moment + i) / 64 * 64)) ∧
    (∀ typ ∈ [4, 5], let p := { arrival typ 0 64 with held := 2 }
     let s := withPacket (on 0 0 0) p
     s.net.packets[0]? = some p ∧ p.held = 2 ∧ p.place = .delivered 0) := by
  refine ⟨⟨rfl, ?_, ?_, rfl, rfl, rfl, ?_, rfl, ?_, ?_, ?_, ?_, ?_, ?_, ?_, ?_⟩, ?_⟩
  rotate_left 8
  · refine fun i hi => ⟨cleanWord ?_, ?_⟩ <;> revert i hi <;> decide +kernel
  · unfold Claims.CleanLine; decide +kernel
  · unfold Claims.CleanLine; decide +kernel
  all_goals decide +kernel

/-! ### Bilo -/

/-- Port 7 up and enabled, and the way to device 2. -/
def linked : State :=
  ((up.setReg (bpA 7 BPORT_STATUS) 0x80000000).setReg (bpA 7 BPORT_CONTROL) 1).setReg (pA BILO_ROUTE) 0x800000

def codeword (intact corrected : Bool) (seq ack : BitVec 9) (nak : Bool) : Codeword := ⟨intact, corrected, seq, ack, nak, false⟩

/-- Each kind of codeword, at the ends of SEQ's range: taken, of another SEQ, not intact, while the port discards; a NAK that replays
and the ninth in a row; a port that retrains with its own module, another and a switch; an id written while ports are down and while
one is up. -/
theorem witness_LinksKeepTheirCodewordsInOrder :
    (let x : LinkWord := ⟨0, 0, false, true, []⟩
     let k : Port := { Port.reset with expect := 511, replays := 8, buffer := [x, { x with seq := 1 }], top := 2, next := 2 }
     let s := linked.setPort 7 k
     let gone (w : Codeword) : Nat := if (w.ack - k.acked).toNat ≤ k.buffer.length then (w.ack - k.acked).toNat else 0
     Claims.Running s ∧ s.portUp 7 = true ∧ s.port 7 = k ∧ k.discarding = false ∧ k.next = k.top ∧ k.buffer.length < 256 ∧
     (codeword true true 511 510 false).seq = k.expect ∧ (codeword true true 0 510 false).seq ≠ k.expect ∧
     (linked.setPort 7 { k with discarding := true }).portUp 7 = true ∧ gone (codeword true false 511 0 true) = 1 ∧
     (0 : BitVec 9) + 1 ≠ k.top ∧ (k.buffer.drop 1).find? (·.seq == 1) = some { x with seq := 1 } ∧
     gone (codeword true false 511 511 true) = 0 ∧ gone (codeword true false 511 2 true) = 0 ∧ 8 ≤ k.replays ∧
     (s.setReg (pA BILO_ID) 0x80000000).bit (pA BILO_ID) 31 = true ∧
     Claims.portUp (s.setReg (pA BILO_ID) 0x80000000) 7 = true) ∧
    (let s := (up.setReg (bpA 7 BPORT_CONTROL) 2).setReg (pA BILO_ID) 0x80000000
     s.bit (bpA 7 BPORT_CONTROL) 1 = true ∧ s.bit (pA BILO_ID) 31 = true ∧ (0 : BitVec 14).toNat = s.fld (pA BILO_ID) 13 0 ∧
       (16383 : BitVec 14).toNat ≠ s.fld (pA BILO_ID) 13 0) ∧
    (Claims.Admitted up .host (pA BILO_ID) ∧ Claims.Admitted linked .host (pA BILO_ID) ∧ (0x80003FFF : W32) &&& 0x7FFFC000 = 0 ∧
     (∀ q, q < 8 → Claims.portUp up q = false) ∧ Claims.portUp linked 7 = true) :=
  ⟨⟨rfl, by decide +kernel⟩, by decide +kernel, admitted (by decide +kernel), admitted (by decide +kernel),
    by and_intros <;> decide +kernel⟩

/-- A packet for another module; one that comes at rest; a write and an accumulate that their target takes and do not, a packet that
fails its CRC, and each type with a command of its own. -/
theorem witness_PacketsOfOtherModulesArrive :
    (let p := { bilo 1 with addr := 0x1FFFFFFFFC0, data := List.replicate 64 0 }
     let asleep := linked.modHost fun h => { h with restPhase := 1 }
     Claims.Running linked ∧ linked.portUp 7 = true ∧ p.dst.toNat = linked.ownId ∧ linked.host.restPhase = 0 ∧
     { p with dst := 2 }.dst.toNat ≠ linked.ownId ∧ (linked.biloPort 2 0).isSome ∧
     asleep.portUp 7 = true ∧ p.dst.toNat = asleep.ownId ∧ asleep.host.restPhase = 1 ∧ { p with cls := 0 }.cls = 0 ∧
       linked.targetOk p.addr.toNat 64 false = true ∧
     linked.targetOk 0x1FFFFFFFFF0 64 false = false ∧ p.final = true ∧ p.pieces = [] ∧
     (linked.biloPort p.src.toNat p.srcCore.toNat).isSome) ∧
    (let p := { bilo 4 with addr := 0x1FFFFFFFFC0, data := List.replicate 16 0, fmt := 5 }
     p.data.length * 32 / 8 = 64 ∧ linked.targetOk p.addr.toNat 64 true = true ∧ linked.targetOk 0x3E0000000000 64 true = false) ∧
    (let p := { bilo 9 with crcOk := false }
     p.cls ≠ 1 ∧ (p.typ ≤ 5 ∨ p.typ = 9) ∧ (linked.biloPort p.src.toNat p.srcCore.toNat).isSome) ∧
    ((bilo 6).crcOk = true ∧ (bilo 6).srcCore ≠ 0x3FF ∧ { bilo 6 with srcCore := 0x3FF, tag := 1 }.tag ≠ 0 ∧
      ({ bilo 11 with subtype := 1 }).subtype = 1 ∧ (bilo 10).typ = 10) :=
  ⟨⟨rfl, by decide +kernel⟩, by and_intros <;> decide +kernel⟩

/-- A barrow of 1 MiB halves on stack 15: EXPECT, whether it is the root, WIRE 1, one child; with token 15 to core 1023. -/
def barrow0 (expect : W64) (root : Bool) (id : Nat) : Barrow :=
  { id := id, gen := 255, got := [],
    words := [BitVec.ofNat 64 (2 ^ 63 + 2 ^ 61 + 0x1E000200000),
      BitVec.ofNat 64 (0x1E000000000 + (if root then 0 else 2 ^ 47)), expect, 1, 0x1E000400000, BitVec.ofNat 64 (2 ^ 46), 0x1E000700000,
      BitVec.ofNat 64 (2 ^ 44 + (if root then 2 ^ 37 else 0) + 0x3FFF), 0x80020000] ++ List.replicate 23 0 }

/-- The rows of a segment valid. -/
def validSeg (s : State) (a : Nat) : State := (List.range 8).foldl (fun s i => s.setValid (a + 512 * i) true) s

theorem cleanSeg {s : State} {a : Nat} (h : (a % 4096 == 0 && (List.range 64).all fun i => wordClean s (a + 64 * i)) = true) :
    Claims.CleanSeg s a := by
  simp only [Bool.and_eq_true, beq_iff_eq] at h
  exact ⟨h.1, fun i hi => cleanWord ((List.all_eq_true.mp h.2) i (List.mem_range.mpr hi))⟩

/-- The way to device 2 with that barrow open. -/
def barrowed (b : Barrow) : State := linked.modBilo fun x => { x with barrows := [b] }

/-- The entry of a barrow, 256 bytes in stack 15. -/
def barrowEntry (b : Barrow) : State :=
  (validSeg (linked.setReg (pA BILO_BARROW_BASE) 0x1E000600000) 0x1E000600000).setBytes 0x1E000600000
    (b.words.flatMap fun w => leBytes 8 w.toNat)

/-- With no vault touched since reset no access to the fast tier waits. -/
theorem unblocked {s : State} {rs ws : List (Nat × Nat)} (hv : s.vaults = [])
    (h : ((rs ++ ws).all fun p => match classify p.1 with | .fast _ => true | _ => false) = true) : s.blocked rs ws = false := by
  have e : ∀ p ∈ rs ++ ws, ∀ w, s.mustWait w p = false := by
    intro p hp w
    have := List.all_eq_true.mp h p hp
    unfold State.mustWait
    split at this
    · rename_i c hc
      simp [hc, State.fastWaits, State.rowHeld, State.lockOn, State.vault, hv, smGet, Vault.reset]
    · cases this
  simp only [State.blocked, Bool.or_eq_false_iff, List.any_eq_false, Bool.not_eq_true]
  exact ⟨fun p hp => e p (List.mem_append_left _ hp) _, fun p hp => e p (List.mem_append_right _ hp) _⟩

/-- An entry that is valid and one that is not; an open barrow with nothing pending and something, and one under a clear; EXCUSE
of a leaf, of a generation
too far on, and of a node's and a root's segments. -/
theorem witness_BarrowsOpenRetireAndExcuse :
    (let s := barrowEntry { barrow0 3 false 0 with gen := 0 }
     Claims.Admitted s .host (pA BILO_COMMAND) ∧ (0x400000FF : W32) &&& 0x00F00000 = 0 ∧ s.bit (pA BILO_COMMAND) 30 = false ∧
     s.bilo.busy = none ∧ s.blocked [(0x1E000600000, 256)] [] = false ∧
     bits 0x400000FF 19 8 = 0 ∧ s.fld (pA BILO_BARROW_BASE) 45 20 * 0x100000 = 0x1E000600000 ∧ s.barrow 0 = none ∧
     (∀ i, i < 4 → Claims.CleanWord s (0x1E000600000 + 64 * i)) ∧
     (let b : Barrow := ⟨0, (List.range 32).map fun i => BitVec.ofNat 64 (Claims.number (s.bytes (0x1E000600000 + 8 * i) 8)), 0, []⟩
      b.ok s.ownId = true ∧ s.blocked [] (b.halves b.gen ++ b.halves (b.gen + 1)) = false ∧ b.local_ % 4096 = 0 ∧
        b.node % 4096 = 0 ∧ b.expect ≠ 0) ∧
     (barrow0 0 false 0).ok s.ownId = true ∧ (barrow0 1 true 0).ok s.ownId = true ∧ (barrow0 2 true 0).ok s.ownId = false) ∧
    (let b := barrow0 3 false 4095
     let s := barrowed b
     Claims.Admitted s .host (pA BILO_COMMAND) ∧ s.blocked [] [(s.fld (pA BILO_BARROW_BASE) 45 20 * 0x100000 + 256 * 4095, 8)] = false ∧
     bits 0x400FFFFF 19 8 = 4095 ∧ s.barrow 4095 = some b ∧ s.barrowPending b = false ∧
     (s.setSeg (0x1E000100000 / 4096) { Seg.reset with bitmap := 1 }).barrowPending b = true ∧
     (let u := (s.setReg (pA BILO_BARROW_BASE) 0x1E000600000).modVault 960 fun v => { v with clearing := some (0, 0) }
      u.barrow 4095 = some b ∧ u.barrowPending b = false ∧
      u.blocked [] [(u.fld (pA BILO_BARROW_BASE) 45 20 * 0x100000 + 256 * 4095, 8)] = true) ∧ (0 - b.gen : Byte).toNat = 1 ∧
     1 < (1 - b.gen : Byte).toNat ∧ b.root = false ∧ (barrow0 0 false 4095).expect = 0) ∧
    (let b := barrow0 1 true 4095
     b.root = true ∧ 255 < b.segments ∧ (Claims.segAt (barrowed b) b b.node 255 255).delivered = false ∧
     (Claims.segAt (barrowed b) b b.node 255 255).refused = false) := by
  refine ⟨⟨admitted ?_, ?_, ?_, ?_, ?_, ?_, ?_, ?_, fun i hi => cleanWord ?_, ⟨?_, unblocked rfl ?_, ?_⟩, ?_⟩,
    ⟨admitted ?_, unblocked rfl ?_, ?_⟩, ?_⟩
  rotate_left 8
  · revert i hi; decide +kernel
  all_goals decide +kernel

/-- A leaf's last segment filled; a node's, of its generation and the next, that takes a contribution, one twice, one of each other
generation, one with EXPECT 0; a full node segment that leaves for its parent, and a root's that saturated. -/
theorem witness_ContributionsClimbTheTree :
    (let b := barrow0 0 false 4095
     let s := (validSeg (barrowed b) 0x1E0001FF000).setSeg (0x1E0001FF000 / 4096) { Seg.reset with bitmap := 1 }
     Claims.Running s ∧ s.barrow b.id = some b ∧ b.id < 4096 ∧ 255 < b.segments ∧ (Claims.segAt s b b.local_ b.gen 255).bitmap = b.lexpect ∧
     (Claims.segAt s b b.local_ b.gen 255).sent = false ∧ b.expect = 0 ∧ b.wire = 1 ∧ s.localBlocked b b.gen 255 = false ∧
     Claims.segAddr b b.local_ b.gen 255 = 0x1E0001FF000 ∧ Claims.CleanSeg s 0x1E0001FF000 ∧
       (s.biloPort b.parent (0x400 + b.stack)).isSome) ∧
    (∀ g ∈ ([255, 0] : List Byte), let b := barrow0 3 false 4095
     let p := { bilo 9 with barrow := 4095, segment := 255, gen := g, contrib := 1, fmt := 1, data := List.replicate 4096 0x80 }
     let s := validSeg (barrowed b) (Claims.segAddr b b.node g 255)
     (s.biloPort p.src.toNat (0x400 + b.stack)).isSome ∧ s.blocked [] (b.nodeSpan p.gen 255) = false ∧ b.expect ≠ 0 ∧
     (p.gen - b.gen).toNat ≤ 1 ∧
     (Claims.segAt s b b.node g 255).bitmap.getLsbD 1 = false ∧ (Claims.segAt s b b.node g 255).fp32 = false ∧ p.data.length = 4096 ∧
     p.poison = [] ∧ Claims.CleanSeg s (Claims.segAddr b b.node g 255) ∧
     (s.setSeg (Claims.segAddr b b.node g 255 / 4096) { Seg.reset with bitmap := 2 } |> fun u =>
       (Claims.segAt u b b.node g 255).bitmap.getLsbD 1) = true) ∧
    (128 ≤ ((127 : Byte) - (barrow0 3 false 0).gen).toNat ∧ 2 ≤ ((126 : Byte) - (barrow0 3 false 0).gen).toNat ∧
     ((126 : Byte) - (barrow0 3 false 0).gen).toNat < 128) ∧
    (let b := barrow0 3 false 4095
     let s := (validSeg (barrowed b) (Claims.segAddr b b.node 255 255)).setSeg (Claims.segAddr b b.node 255 255 / 4096)
       { Seg.reset with bitmap := 3 }
     (Claims.segAt s b b.node 255 255).bitmap = b.expect ∧ (Claims.segAt s b b.node 255 255).sent = false ∧ b.root = false ∧
     s.blocked [(Claims.segAddr b b.node 255 255, 4096)] [] = false ∧ Claims.CleanSeg s (Claims.segAddr b b.node 255 255)) ∧
    (let b := barrow0 1 true 4095
     let s := (barrowed b).setSeg (Claims.segAddr b b.node 0 255 / 4096) { Seg.reset with bitmap := 1, sat := true }
     b.expect ≠ 0 ∧ (Claims.segAt s b b.node 0 255).bitmap = b.expect ∧ (Claims.segAt s b b.node 0 255).sent = false ∧
     ((0 : Byte) - b.gen).toNat ≤ 1 ∧ b.root = true ∧ (Claims.segAt s b b.node 0 255).sat = true ∧ s.localBlocked b 0 255 = false ∧
     s.blocked [(Claims.segAddr b b.node 0 255, 4096), (b.scales + 255, 1)] [(b.scales + 16384 + 4 * 255, 4)] = false ∧
     (Claims.segAt s b b.node 0 255).fp32 = false) ∧
    (let b := barrow0 1 true 4095
     let s := ((validSeg (barrowed b) (Claims.segAddr b b.node 0 255)).setSeg (Claims.segAddr b b.node 0 255 / 4096)
       { Seg.reset with bitmap := 1 }).setReg (pA BILO_ID) 0x80000001
     b.expect ≠ 0 ∧ (Claims.segAt s b b.node 0 255).bitmap = b.expect ∧ b.root = true ∧ b.wire = 1 ∧
     (Claims.segAt s b b.node 0 255).sat = false ∧ (Claims.segAt s b b.node 0 255).sent = false ∧ b.rdev = s.fld (pA BILO_ID) 13 0 ∧
     s.blocked [(Claims.segAddr b b.node 0 255, 4096), (b.scales + 255, 1)] [(b.scales + 16384 + 4 * 255, 4)] = false ∧
     Claims.CleanSeg s (Claims.segAddr b b.node 0 255)) := by
  refine ⟨⟨rfl, ?_, ?_, ?_, ?_, ?_, ?_, ?_, ?_, ?_, cleanSeg ?_, ?_⟩, ?_, ?_, ⟨?_, ?_, ?_, ?_, cleanSeg ?_⟩, ?_,
    ⟨?_, ?_, ?_, ?_, ?_, ?_, ?_, ?_, cleanSeg ?_⟩⟩
  rotate_left 11
  · intro g hg
    simp only [List.mem_cons, List.not_mem_nil, or_false] at hg
    rcases hg with rfl | rfl <;> refine ⟨?_, ?_, ?_, ?_, ?_, ?_, List.length_replicate, rfl, cleanSeg ?_, ?_⟩ <;> decide +kernel
  all_goals decide +kernel

/-- A node's last local segment and a leaf's; a contribution of the next generation on a segment that asks for FP32 sums; a full segment
of a node and of a root. -/
theorem witness_ForwarderCommandsComplete :
    (∀ expect ∈ [0, 3], let b := barrow0 (BitVec.ofNat 64 expect) false 4095
     let s := (barrowed b).setSeg (0x1E0001FF000 / 4096) { Seg.reset with bitmap := 1 }
     Claims.Running s ∧ s.barrow b.id = some b ∧ b.id < 4096 ∧ 255 < b.segments ∧ (Claims.segAt s b b.local_ b.gen 255).bitmap = b.lexpect ∧
     (Claims.segAt s b b.local_ b.gen 255).sent = false ∧ s.localBlocked b b.gen 255 = false ∧
       (Claims.segAt s b b.node b.gen 255).fp32 = false ∧
     (s.biloPort b.parent (0x400 + b.stack)).isSome) ∧
    (let b := barrow0 3 false 4095
     let p := { bilo 9 with barrow := 4095, segment := 255, gen := 0, contrib := 1, fmt := 2, data := List.replicate 4096 0x80 }
     let s := (barrowed b).setSeg (Claims.segAddr b b.node 0 255 / 4096) { Seg.reset with fp32 := true }
     b.expect ≠ 0 ∧ (p.gen - b.gen).toNat ≤ 1 ∧ s.blocked [] (b.nodeSpan 0 255) = false ∧ (Claims.segAt s b b.node 0 255).fp32 = true ∧
     p.fmt = 2 ∧ (s.biloPort p.src.toNat (0x400 + b.stack)).isSome) ∧
    (∀ x ∈ [(3, false), (1, true)], let b := barrow0 (BitVec.ofNat 64 x.1) x.2 4095
     let s := ((barrowed b).setSeg (Claims.segAddr b b.node 0 255 / 4096) { Seg.reset with bitmap := BitVec.ofNat 64 x.1 }).setReg (pA BILO_ID) 0x80000001
     b.root = x.2 ∧ b.expect ≠ 0 ∧ (Claims.segAt s b b.node 0 255).bitmap = b.expect ∧ (Claims.segAt s b b.node 0 255).sent = false ∧
     (Claims.segAt s b b.node 0 255).sat = false ∧ b.rdev = s.fld (pA BILO_ID) 13 0 ∧
     s.blocked ((Claims.segAddr b b.node 0 255, 4096) :: if b.root then [(b.scales + 255, 1)] else [])
       (if b.root then [(b.scales + 16384 + 4 * 255, 4)] else []) = false ∧
     (x.2 = false → (s.biloPort b.parent (0x400 + b.stack)).isSome)) := by
  unfold Claims.Running
  refine ⟨?_, ?_, ?_⟩ <;> decide +kernel

/-- The DONE of a generation with its scales; a RESEND; a node segment at its timeout; each answer to a forwarder. -/
theorem witness_GenerationsEndAndFallBack :
    (let b := barrow0 3 false 4095
     let s := validSeg (barrowed b) 0x1E000400000
     let p := { bilo 10 with barrow := 4095, gen := 255, data := List.replicate 256 7 }
     Claims.Running s ∧ s.barrow b.id = some b ∧ p.segment = 0 ∧ b.root = false ∧ p.gen = b.gen ∧ b.got = [] ∧ b.segments = 256 ∧
     b.dtoken = 15 ∧ p.data.length = b.segments ∧ s.blocked [] ((b.scales, p.data.length) :: b.halves b.gen) = false ∧
       b.local_ % 4096 = 0 ∧ b.node % 4096 = 0 ∧
     (∀ i, i < 256 → Claims.CleanWord s ((b.scales + i) / 64 * 64)) ∧ ∀ x ∈ [b.local_, b.node], x + 2 * b.size ≤ b.scales) ∧
    (let b := barrow0 3 false 4095
     let s := barrowed b
     (Claims.segAt s b b.local_ b.gen 255).sent = false ∧ s.localBlocked b b.gen 255 = false ∧ b.local_ + 2 * b.size ≤ b.node ∧
     b.local_ % 4096 = 0 ∧ b.node % 4096 = 0 ∧ b.rdev ≠ s.ownId) ∧
    (let b := barrow0 3 false 4095
     let s := (((barrowed b).setSeg (Claims.segAddr b b.node 255 255 / 4096) { Seg.reset with bitmap := 1, since := 1 }).setReg
       (pA BILO_TIMEOUT) 1).modStack 15 fun k => { k with cycles := 1000 }
     (Claims.segAt s b b.node 255 255).since = 1 ∧ (Claims.segAt s b b.node 255 255).late = false ∧
     (Claims.segAt s b b.node 255 255).bitmap ≠ b.expect ∧ b.expect ≠ 0 ∧ 255 < b.segments ∧ ((255 : Byte) - b.gen).toNat ≤ 1 ∧
       s.fld (pA BILO_TIMEOUT) 31 0 = 1 ∧ b.stack = 15 ∧
     1 + 1000 * 1 ≤ (s.stack 15).cycles.toNat + 1) ∧
    (∀ r ∈ [true, false], ∀ status ∈ [0, 1, 2, 4, 5], let b := barrow0 3 false 4095
     let f : ForwarderAnswer := ⟨4095, 0, 255, r, status, 7⟩
     let y : BiloPacket := { bilo (if r then 4 else 9) with dst := 2, barrow := 4095, segment := 255 }
     let s := (barrowed b).modBilo fun x => { x with unanswered := [(15, y)] }
     f.port = 7 ∧ s.portUp f.port = true ∧ f.barrow = 4095 ∧ b.rdev ≠ s.ownId ∧ f.gen ≠ b.gen ∧ b.stack = 15 ∧
     (∀ x ∈ s.net.packets, x.port = none) ∧ s.bilo.unanswered = [(15, y)] ∧ y.barrow = 4095 ∧ y.segment = 255 ∧ y.gen = f.gen ∧
     (s.biloPort y.dst.toNat (0x400 + b.stack)).isSome) := by
  refine ⟨⟨rfl, ?_, rfl, ?_, rfl, rfl, ?_, ?_, ?_, unblocked rfl ?_, ?_, ?_, fun i hi => cleanWord ?_, ?_⟩, ?_, ?_, ?_⟩
  rotate_left 8
  · revert i hi; decide +kernel
  all_goals decide +kernel

/-! ### Interrupt controllers -/

/-- Core 1023 On. -/
def last : State := up.setCore 1023 { Core.reset with power := 2 }

/-- The premises of ControllerRules at a controller's highest source: pending and not; depth 7, 8 and 0; its EOI, another's; frozen. -/
theorem witness_InterruptControllersRuleTheirSources :
    (∀ k ∈ [some 1023, none], let n := if k.isSome then 63 else 1023
     let pend := if k.isSome then cA 1023 ICC_PENDING else pA ICP_PENDING0 + 8 * 15
     let s (status : W64) := (last.setReg pend 0x8000000000000000).setReg (icA k 0) status
     let req : Requester := if k.isSome then .core 1023 else .host
     admits last req (icA k 4) = true ∧ admits last req (icA k 8) = true ∧ admits last .host (icA k 0xC) = true ∧
     (last.core 1023).power ≠ 0 ∧ last.bit (icA k 0) 31 = false ∧ last.icPending k n = false ∧
     ((s 0x70000).bit (icA k 0) 31 = false ∧ (s 0x70000).icPending k n = true ∧ (s 0x70000).fld (icA k 0) 19 16 = 7) ∧
     ((s 0x80000).icPending k n = true ∧ 8 ≤ (s 0x80000).fld (icA k 0) 19 16) ∧ (s 0x80080000).bit (icA k 0) 31 = true ∧
     (s 0x10000).fld (icA k 0) 19 16 = 1 ∧ ((s 0x10000).icEntry k 0).1 ≠ n) ∧
    (∀ p ∈ [cA 1023 ICC_SEND, cA 1023 ICC_RAISE, cA 1023 ICC_PENDING, pA ICP_RAISE + 8 * 11, pA ICP_PENDING0 + 8 * 15,
      pA ICP_PENDING0, pA ICP_FWD + 8 * 15], admits last .host p = true) ∧
    ((0xFFFF000000000000 : W64) &&& 0x0000FFFFFFFFFFFF = 0 ∧ (0xFFFFFFFFFFFFFFFE : W64).getLsbD 0 = false ∧ (255 : BitVec 10).toNat < 256 ∧
     256 ≤ (256 : BitVec 10).toNat ∧
     (let s := last.setReg (pA ICP_FWD + 8 * 15) 0x8000000000000000
      s.reg (pA ICP_FWD + 8 * 15) ≠ 0 ∧ s.reg (pA ICP_FWD + 8 * 15) &&& ~~~0x8000000000000000 = 0)) := by
  decide +kernel

/-- An entry that the EOI of its number ends. -/
theorem witness_EndOfInterrupt :
    (let s := last.setReg (icA (some 1023) 0x40) 63
     (s.icEntry (some 1023) 0).1 = 63) ∧ (let s := last.setReg (icA none 0x40) 1023
     (s.icEntry none 0).1 = 1023) := by
  decide +kernel

/-! ### The host interface -/

/-- A request before READY and after, one of them of BAR2's size; accesses of the last bytes of core 1023's scratchpad, committed and
not; one in D3hot and one of no region; a write while the module rests; one of the rings' last byte; a hold. -/
theorem witness_HostAccessesComplete :
    (let s := up.setReg (pA BRG_STATUS) 0
     s.warden.stopped ≠ 2 ∧ s.warden.pins.perst = false ∧ s.bit (pA BRG_STATUS) 31 = false ∧ up.warden.pins.perst = false ∧
     up.bit (pA BRG_STATUS) 31 = true ∧ (⟨5, false, Config.rebarOffset, 0⟩ : ConfigReq).offset = Config.rebarOffset ∧
     20 ≤ up.host.bar2Log ∧ up.host.bar2Log ≤ 46) ∧
    (let a := Claims.spAddr 1023 0x1FFFF8
     let e := { entry 0 0x21 3 with state := .running, outs := [.mem none (a + 7) (a + 8)] }
     let s := last
     let u := last.modCore 1023 fun k => { k with tally := [e] }
     Claims.Running s ∧ s.hostOpen = true ∧ Claims.NoneWaiting s ∧ Claims.NoneWaiting u ∧ s.host.bar2Log = 46 ∧
       a % 4096 + 8 ≤ 4096 ∧ Claims.SpServed s 1023 ∧
     s.uncommitted a (a + 8) = false ∧ s.pitchGap 1023 5 0x1FFFF8 8 false = none ∧ s.pitchGap 1023 5 0x1FFFF8 8 true = none ∧
     Claims.NoError s a 8 ∧ a % 8 = 0 ∧ Claims.SpServed u 1023 ∧ u.uncommitted a (a + 8) = true) ∧
    (let s := up.modHost fun h => { h with d3hot := true }
     s.linkUp = true ∧ s.inWindow true (2 ^ 45) 8 = true ∧ Claims.NoneWaiting s ∧ s.host.d3hot = true ∧ up.linkUp = true ∧
       Claims.NoneWaiting up ∧ up.hostOpen = true ∧
     up.inWindow true 0x3E0080000000 8 = true ∧ classify (up.bar2Addr 0x3E0080000000) = .nothing) ∧
    (let s := up.modHost fun h => { h with restPhase := 1 }
     s.linkUp = true ∧ s.hostOpen = false ∧ s.host.d3hot = false ∧ Claims.NoneWaiting s ∧
     s.inWindow true (2 ^ 46 - 1) [(7 : Byte)].length = true) ∧
    (0x117FFFF + [(7 : Byte)].length ≤ 0x1180000 ∧ 0x117FFFF % 4096 + [(7 : Byte)].length ≤ 4096) ∧
    (let s := (up.modHost fun h => { h with holds := [(5, 0)] }).setReg (pA HIF_HOLD_LIMIT) 0xFFFFFFFF
     s.fld (pA HIF_HOLD_LIMIT) 31 0 ≠ 0 ∧ (∃ x ∈ s.host.holds, x.1 = 5) ∧ s.linkUp = true) :=
by
  unfold Claims.SpServed Claims.NoneWaiting
  refine ⟨⟨?_, ?_, ?_, ?_, ?_, rfl, ?_⟩, ⟨rfl, ?_, ?_, ?_, rfl, ?_, ?_, ?_, ?_, ?_, clear rfl _ _, ?_⟩, ?_⟩
  all_goals decide +kernel

/-- An entry of a ring: operation and flags, cores first to count, entry point and vector 0. -/
def ringBytes (op first count : Nat) : List Byte := leBytes 8 (op + 2 ^ 32 * first + 2 ^ 42 * count) ++ List.replicate 56 0

/-- Queue 63, enabled, with such an entry last in its ring. -/
def queued (s : State) (op first count : Nat) : State :=
  ((s.setReg (qA 63 Q_CONTROL) 0x80000000).setReg (qA 63 Q_HEAD) 255).setBar0 (0x1000000 + 0x4000 * 63 + 64 * 255) (ringBytes op first count)

/-- A tail that adds to the entries waiting and one that takes from them; ENABLE after bring-up and before; an entry refused, one
that starts, one whose core is busy, a MARK; a launch DONE and one FAULTED, its completion ring one short of full. -/
theorem witness_QueuesLaunchTheirEntries :
    (let s := queued last 1 1023 1
     admits s .host (qA 63 Q_TAIL) = true ∧ admits s .host (qA 63 Q_CHEAD) = true ∧ admits s .host (qA 63 Q_CONTROL) = true ∧
     (254 : W32).toNat < 256 ∧ s.bit (qA 63 Q_CONTROL) 31 = true ∧ s.fld (qA 63 Q_HEAD) 7 0 = 255 ∧
     (254 + 256 - 255) % 256 < (s.fld (qA 63 Q_TAIL) 7 0 + 256 - 255) % 256 + 255 ∧
     (255 + 256 - 255) % 256 < (s.fld (qA 63 Q_TAIL) 7 0 + 256 - 255) % 256 ∧ (0xC00007FF : W32) &&& 0x3FFFF800 = 0 ∧
     s.fld (pA BRG_STATUS) 27 25 = 5 ∧ (s.setReg (pA BRG_STATUS) 0x88000000).fld (pA BRG_STATUS) 27 25 ≠ 5) ∧
    (let s := queued last 1 1023 1
     let e := Claims.ringEntry s 63 255
     Claims.Running s ∧ s.takes 63 = true ∧ s.queueTurn 63 = true ∧
     (queued last 1 1023 1).host.posted = [] ∧ s.fld (qA 63 Q_HEAD) 7 0 = 255 ∧ s.entryReason e = 0 ∧ entryOp e = 1 ∧ entryWait e = false ∧
     entryFirst e = 1023 ∧ entryCount e = 1 ∧ s.coreIdle 1023 = true ∧ s.host.launches = [] ∧
     (s.modCore 1023 fun k => { k with power := 1 }).coreIdle 1023 = false ∧ last.takes 63 = false ∧
     ((s.setReg (qA 0 Q_CONTROL) 0x80000000).setReg (qA 0 Q_TAIL) 1).queueTurn 63 = false) ∧
    ((queued last 1 1023 2).entryReason (Claims.ringEntry (queued last 1 1023 2) 63 255) = 2 ∧
      (queued last 3 0 1).takes 63 = true ∧ (queued last 3 0 1).queueTurn 63 = true ∧
    
     (queued last 3 0 1).entryReason (Claims.ringEntry (queued last 3 0 1) 63 255) = 1 ∧ (queued last 2 0 0).takes 63 = true ∧
       (queued last 2 0 0).queueTurn 63 = true ∧
     (queued last 2 0 0).entryReason (Claims.ringEntry (queued last 2 0 0) 63 255) = 0 ∧
     entryOp (Claims.ringEntry (queued last 2 0 0) 63 255) = 2) ∧
    (∀ f ∈ [none, some 1023], let l : Launch := ⟨63, 255, ringBytes 1 1023 1, f⟩
     let s := ((last.modHost fun h => { h with launches := [l] }).modCore 1023 fun k => { k with launchQ := some (63, 255) }).setReg
       (qA 63 Q_CTAIL) 254
     s.host.launches = [l] ∧ l.queue = 63 ∧ (s.core 1023).launchQ = some (63, 255) ∧ (s.core 1023).run = .idle ∧
     entryFirst l.bytes + entryCount l.bytes ≤ 1024 ∧
     (∀ c, c < 1024 → (s.core c).launchQ = some (63, 255) → (s.core c).run = .idle ∨ (l.fault.isSome = true ∧
       (s.core c).run ≠ .running)) ∧ (s.fld (qA 63 Q_CTAIL) 7 0 + 256 - s.fld (qA 63 Q_CHEAD) 7 0) % 256 < 255 ∧
     ∀ c, c ∈ f → c < 1024) := by
  refine ⟨by decide +kernel, ⟨rfl, by decide +kernel⟩, by decide +kernel, ?_⟩
  intro f hf
  simp only [List.mem_cons, List.not_mem_nil, or_false] at hf
  rcases hf with rfl | rfl
  all_goals refine ⟨?_, ?_, ?_, ?_, ?_, ?_, ?_, by simp⟩
  all_goals decide +kernel

/-- A vector pending; Rest asked for while idle and while a queue holds an entry; each phase of it. -/
theorem witness_TheModuleRestsAndWakes :
    (let s := up.modHost fun h => { h with pba := [2047] }
     s.hostOpen = true ∧ (2047 : BitVec 11).toNat ∈ s.host.pba) ∧
    (admits up .host (pA HIF_REST) = true ∧ up.host.restPhase = 0 ∧ up.host.launches = [] ∧
     (∀ q, q < 64 → up.fld (qA q Q_TAIL) 7 0 = up.fld (qA q Q_HEAD) 7 0) ∧
     (up.setReg (qA 63 Q_TAIL) 255).fld (qA 63 Q_TAIL) 7 0 ≠ (up.setReg (qA 63 Q_TAIL) 255).fld (qA 63 Q_HEAD) 7 0 ∧ up.linkUp = true) ∧
    (let s := last.modHost fun h => { h with restPhase := 2 }
     (∀ p ∈ s.cores, p.2.power ≠ 1) ∧ s.host.restPhase = 2 ∧ s.quiet = true ∧ (s.core 1023).power = 2 ∧ smWf Core.reset s.cores = true) ∧
    (let s := (last.modCore 1023 Core.rest).modHost fun h => { h with restPhase := 3 }
     s.host.d3hot = false ∧ s.host.restPhase = 3 ∧ s.host.posted = [] ∧ s.bilo.waiting = [] ∧
     (s.modHost fun h => { h with restPhase := 1 }).host.restPhase = 1 ∧ (s.core 1023).power = 3 ∧ smWf Core.reset s.cores = true) := by
  decide +kernel

/-! ### Registers and the whole machine -/

/-- A read of a register that is made, as a computation. -/
def reads (s : State) (req : Requester) (a : Nat) : Bool :=
  s.accessible req a && (match regionOf a with
    | some x => s.mayRead req x.1 x.2.1 x.2.2
    | none => false)

theorem readable {s : State} {req : Requester} {a : Nat} (h : reads s req a = true) : Claims.Readable s req a := by
  simp only [reads, Bool.and_eq_true] at h
  refine ⟨h.1, ?_⟩
  cases e : regionOf a with
  | none => simp [e] at h
  | some x => exact ⟨x.1, x.2.1, x.2.2, rfl, by simpa [e] using h.2⟩

/-- An offset that no register of a core's page occupies; an access of 2 bytes; both codes of a 64-bit register with and without a
half held, at a value with the reserved bit 0 set and not; a W1C and an RC register. -/
theorem witness_RegistersTakeTheirAccesses :
    (last.accessible .host (cA 1023 0xFFFC) = true ∧ findReg (cA 1023 0xFFFC) = none ∧
      regionOf (cA 1023 0xFFFC) = some (.core, 1023, 0xFFFC)) ∧
    (∃ h, findReg (cA 1023 ICC_ENABLE) = some h ∧ ¬ Claims.Fits h (cA 1023 ICC_ENABLE) 2) ∧
    (2 ≤ (last.core 1023).power ∧ Claims.Admitted last (.core 1023) (cA 1023 ICC_ENABLE) ∧ (2 : W64).getLsbD 0 = false ∧
      (1 : W64).getLsbD 0 = true ∧ (0xFFFFFFFE : W32).getLsbD 0 = false ∧ Claims.NoHalf last (.core 1023) ∧
      Claims.holds { last with halves := [(.core 1023, cA 1023 ICC_ENABLE, false,
        0xFFFFFFFE)] } (.core 1023) (cA 1023 ICC_ENABLE) false 0xFFFFFFFE ∧
      Claims.holds { last with halves := [(.core 1023, cA 1023 ICC_ENABLE, true, 7)] } (.core 1023) (cA 1023 ICC_ENABLE) true 7 ∧
      Claims.Readable last (.core 1023) (cA 1023 ICC_ENABLE)) ∧
    (Claims.Admitted last .host (cA 1023 CORE_SP_STARVE) ∧ (0x1FFFF : W64) &&& 0xFFFE0000 = 0 ∧
      (last.setReg (cA 1023 CORE_SP_STARVE) 0x10000).bit (cA 1023 CORE_SP_STARVE) 16 = true ∧ (0x1FFFF : W64).getLsbD 16 = true) ∧
    Claims.Readable last .host (pA EVT_DROPPED) := by
  refine ⟨by decide +kernel, ?_, ⟨by decide +kernel, admitted (by decide +kernel), by decide, by decide, by decide, ?_, ?_, ?_,
    readable (by decide +kernel)⟩, ⟨admitted (by decide +kernel), by and_intros <;> decide +kernel⟩, readable (by decide +kernel)⟩
  · have h : (findReg (cA 1023 ICC_ENABLE)).isSome = true := by decide +kernel
    obtain ⟨x, hx⟩ := Option.isSome_iff_exists.mp h
    exact ⟨x, hx, fun f => by rcases f with ⟨_, f | f⟩ | ⟨_, f, _⟩ <;> omega⟩
  · intro x hx; simp [last, up, State.setCore, State.reset] at hx
  · rfl
  · rfl

theorem witness_EveryStepKeepsMemoryCanonical : (∃ t, step State.reset = .next t) ∧ Memory.wf State.reset.mem :=
  ⟨⟨_, rfl⟩, by decide⟩

theorem witness_EveryStepKeepsTallyQueueAndFuses : (∃ t, step State.reset = .next t) ∧ Claims.SlotsOnce State.reset :=
  ⟨⟨_, rfl⟩, fun _ => ⟨List.nodup_nil, fun _ h => nomatch h⟩⟩

/-! ### Power and temperature -/

def calm : PowerReadings := ⟨0, false, 54000, 12000, []⟩

/-- A core On at step 7 whose command is step 0, and one that holds its step; a domain above its limit; input above the cap. -/
theorem witness_StepsFollowTheDemands :
    (let s := last.setFld (cA 1023 CORE_CLOCK) 10 8 0
     (s.setReg (pA SEC_STATUS) 0x40).bit (pA SEC_STATUS) 6 = true ∧ s.bit (pA SEC_STATUS) 6 = false ∧
     Claims.Least ([(70, 700), (2, 690)].filter fun x => s.islandOn 15 x.1) 700 ∧
     (∀ x ∈ [(2, 690)], s.islandOn 15 x.1 = false) ∧ Claims.Least ([700, 690].map (0, ·)) 690 ∧ Claims.Running s ∧
       Claims.Clocked s 1023 ∧ (∀ d ∈ s.demands 1023, d ≤ 7) ∧ Claims.LowestStep s 15 0 ∧
     s.fld (pA PWR_LIMIT + 4 * 19) 15 0 < Claims.current ⟨0, false, 54000, 12000, [(19, 65536)]⟩ 19 ∧ smGet 0 s.warden.power.dem 19 ≤ 7) ∧
    (let s := up.modStack 0 fun k => { k with thermal := { k.thermal with evals := 19 } }
     ((s.stack 0).thermal.evals + 1) % 20 = 0 ∧ 1000 * s.fld (pA PWR_CAP) 10 0 < ({ calm with inputAvg := 1100001 }).inputAvg) ∧
    (let a := cA 1023 CORE_CLOCK
     let s := (last.setReg (sA 15 SPWR_STATUS) 0x3840000).setFld (cA 1023 CORE_CLOCK) 10 8 0
     Claims.Clocked s 1023 ∧ s.fld a 2 0 ≠ s.fld a 10 8 ∧
       stepMv (s.fld a 10 8) ≤ ((s.stack 15).thermal.oldTarget).getD (s.fld (sA 15 SPWR_STATUS) 31 16) ∧
     last.fld a 2 0 = last.fld a 10 8 ∧ ¬ Claims.Clocked up 1023 ∧
     ((last.setReg (sA 15 SPWR_STATUS) 0).stack 15).thermal.oldTarget.getD ((last.setReg (sA 15 SPWR_STATUS) 0).fld (sA 15 SPWR_STATUS) 31 16) <
       stepMv (s.fld a 10 8)) := by
  unfold Claims.Least
  refine ⟨⟨by decide +kernel, by decide +kernel, by decide +kernel, by decide +kernel, by decide, rfl, .inr (by decide +kernel),
    by decide +kernel, ⟨fun _ _ _ _ _ => Nat.zero_le _, by decide, .inr ⟨1023, by decide,
    .inr (by decide +kernel), .inr (by decide +kernel)⟩⟩, by decide +kernel⟩, by decide +kernel, .inr (by decide +kernel),
    by decide +kernel, by decide +kernel, by decide +kernel, fun h => ?_, by decide +kernel⟩
  exact absurd h (by unfold Claims.Clocked; decide +kernel)

/-- A first droop, the seventeenth in 20 evaluations, one of a core in its stretch; the frame of SEQ 2³² and that after the ring's
end; the time's high half with its low half held and alone; caps at the range's ends; a suspect bit written 1. -/
theorem witness_DroopsFramesAndPowerRegisters :
    (let s := last.modStack 15 fun k => { k with thermal := { k.thermal with evals := 19, stretches := List.range 16 } }
     Claims.Clocked last 1023 ∧ (last.core 1023).droop = false ∧
     ((last.stack 15).thermal.stretches.filter fun e => (last.stack 15).thermal.evals < e + 20).length < 16 ∧
     16 ≤ ((s.stack 15).thermal.stretches.filter fun e => (s.stack 15).thermal.evals < e + 20).length ∧
     ((last.modCore 1023 fun k => { k with droop := true }).core 1023).droop = true) ∧
    (up.warden.stopped ≠ 2 ∧ up.bit (pA SEC_STATUS) 6 = false ∧ ({ calm with inputAvg := 2 ^ 32 - 1 }).inputAvg < 2 ^ 32 ∧
      2 ^ 32 / 2 ^ 32 % 2 = 1 ∧ 64 % 64 = 0) ∧
    (Claims.Admitted up .host (pA PWR_TIME_REF) ∧
     Claims.holds { up with halves := [(.host, pA PWR_TIME_REF, false, 7)] } .host (pA PWR_TIME_REF) false 7 ∧ Claims.NoHalf up .host) ∧
    (Claims.Admitted up .host (pA PWR_CAP) ∧ (2047 : W32) &&& 0xFFFFF800 = 0) ∧
    Claims.Admitted up .host (sA 15 STHM_SUSPECT) ∧ (0xFFFF : W32) &&& 0xFFFF0000 = 0 ∧
    (up.setReg (sA 15 STHM_SUSPECT) 0x8000).bit (sA 15 STHM_SUSPECT) 15 = true ∧ (0xFFFF : W32).getLsbD 15 = true := by
  refine ⟨⟨.inr (by decide +kernel), by decide +kernel⟩, by decide +kernel, ⟨admitted (by decide +kernel), rfl, ?_⟩,
    ⟨admitted (by decide +kernel), by decide⟩, admitted (by decide +kernel), by decide +kernel⟩
  intro x hx; simp [up, State.reset] at hx

/-- A bench at 95.0 °C by its last sensor, one at 90.0 °C by its first; a core at its limit, and a bench that is not suspect; recovery. -/
theorem witness_SensorsSetRatesAndMarks :
    (let r : StackSensors := ⟨[(63, 439)], [(15, 15, 380), (0, 0, 360)], [], [], [], [], []⟩
     let hot : StackSensors := { r with cores := [(63, 440)] }
     let bench : StackSensors := { r with benches := [(15, 15, 400)] }
     (up.setReg (pA SEC_STATUS) 0x40).bit (pA SEC_STATUS) 6 = true ∧ up.bit (pA SEC_STATUS) 6 = false ∧
     (∃ x ∈ hot.cores, 440 ≤ x.2) ∧ (¬ ∃ x ∈ bench.cores, 440 ≤ x.2) ∧
     (∃ x ∈ bench.benches, 400 ≤ x.2.2 ∧ up.bit (sA 15 STHM_SUSPECT) x.1 = false) ∧ (¬ ∃ x ∈ r.cores, 440 ≤ x.2) ∧
     (¬ ∃ x ∈ r.benches, 400 ≤ x.2.2 ∧ up.bit (sA 15 STHM_SUSPECT) x.1 = false) ∧
     (∀ b, b < 16 → smGet 0 (up.stack 15).thermal.trips b < 9) ∧ Claims.Running up ∧ Claims.Highest r 15 380 ∧
       Claims.Highest r 0 360 ∧ Claims.Highest r 7 0 ∧
     ∀ v, v < 64 → up.fld (vA (15 * 64 + v) VC_BENCH_RATE) 31 30 = up.fld (vA (15 * 64) VC_BENCH_RATE) 31 30) := by
  unfold Claims.Highest
  refine ⟨by decide +kernel, by decide +kernel, by decide, by decide, by decide +kernel, by decide, by decide +kernel,
    by decide +kernel, rfl,
    ⟨by decide, 15, by decide⟩, ⟨by decide, 0, by decide⟩, ⟨by decide, 15, by decide⟩, by decide +kernel⟩

/-- Coolant out of each range, the second read in a row, and within it, the tenth; below 15 °C. -/
theorem witness_CoolantAndTripsProtectTheModule :
    (let s := up.modWarden fun w => { w with power := { w.power with cool7 := 99, cool3 := 99, cool0 := 999 } }
     s.warden.stopped ≠ 2 ∧ (180 : Int) < (⟨181, 0, 300, 0⟩ : CoolantReadings).inlet ∧ (⟨0, 0, 199, 0⟩ : CoolantReadings).flow < 200 ∧
     99 ≤ s.warden.power.cool7 ∧ 99 ≤ s.warden.power.cool3 ∧ 999 ≤ s.warden.power.cool0 ∧
     (let r : CoolantReadings := ⟨180, 0, 299, 0⟩
      160 < r.inlet ∧ ¬ (180 < r.inlet ∨ r.flow < 200)) ∧
     (let r : CoolantReadings := ⟨160, 0, 300, 600⟩
      60 ≤ r.inlet ∧ r.inlet ≤ 160 ∧ 300 ≤ r.flow ∧ r.drop ≤ 600) ∧ (⟨59, 0, 300, 0⟩ : CoolantReadings).inlet < 60 ∧
     s.warden.power.cold = false ∧ s.bit (pA SEC_STATUS) 6 = false ∧
     (s.setReg (pA SEC_STATUS) 0x40).bit (pA SEC_STATUS) 6 = true ∧ (439 : W16).toInt < 440 ∧ 440 ≤ (440 : W16).toInt ∧
     (399 : W16).toInt < 400 ∧ 400 ≤ (400 : W16).toInt) := by
  decide +kernel

/-! ### Bring-up, repair and reset -/

/-- A module booted with DONE n, its steward accepted. -/
def done (n : Nat) : State := up.setReg (pA BRG_STATUS) (BitVec.ofNat 64 (2 ^ 31 + n * 2 ^ 25))

/-- A GO before READY and while BUSY; out of order; of a failed module and in recovery; step 1 without a steward image, without
coolant and with both; a step in progress, its messages taken and not; step 2 of a full start before its pauses, at 85.0 °C and below, in
them, and of a fast start. The tests of each step. -/
theorem witness_BringUpRunsAndBuilds :
    (∀ n ∈ [0, 1, 2, 3, 4, 5], let s := done n
     Claims.Admitted s .host (pA BRG_COMMAND) ∧ s.warden.fastWhy < 16 ∧ s.bit (pA BRG_STATUS) 31 = true ∧ s.bit (pA BRG_STATUS) 30 = false ∧
     s.bit (pA BRG_STATUS) 29 = false ∧ s.bit (pA SEC_STATUS) 6 = false ∧ s.fld (pA BRG_STATUS) 27 25 = n ∧ s.warden.stewardOk = true) ∧
    (let s := up.setReg (pA BRG_STATUS) 0
     Claims.Admitted s .warden (pA BRG_COMMAND) ∧ s.bit (pA BRG_STATUS) 31 = false ∧
     (s.setReg (pA BRG_STATUS) 0xE0000000).bit (pA BRG_STATUS) 29 = true ∧ (s.setReg (pA SEC_STATUS) 0x40).bit (pA SEC_STATUS) 6 = true ∧
     State.reset.warden.stewardOk = false ∧ ({ clean with coolantFlow := 199 }).coolantFlow < 200 ∧ 200 ≤ clean.coolantFlow) ∧
    (let s := up.modWarden fun w => { w with step := some 5 }
     s.warden.stopped ≠ 2 ∧ s.warden.step = some 5 ∧ (∀ m ∈ s.net.msgs, m.typ ≠ 8) ∧
     ∃ m ∈ (withMsg s (msg 8 3 960 0x3FF 5 0)).net.msgs, m.typ = 8) ∧
    (let s := (up.setReg (pA BRG_STATUS) 0x8A000000).modWarden fun w => { w with step := some 2 }
     s.warden.step = some 2 ∧ (∀ m ∈ s.net.msgs, m.typ ≠ 8) ∧ s.bit (pA BRG_STATUS) 24 = false ∧ s.warden.pausing = false ∧
     (∀ u, u < 16 → ∀ b, b < 16 → s.benchRead u b < 340) ∧ 340 ≤ (s.setReg (sA 15 STHM_BENCH + 4 * 15) 340).benchRead 15 15 ∧
     (s.setReg (pA BRG_STATUS) 0x8B000000).bit (pA BRG_STATUS) 24 = true ∧
     (s.modWarden fun w => { w with pausing := true }).warden.pausing = true) ∧
    (let s := (up.modWarden fun w => { w with step := some 4 }).modCore 1023 fun k => { k with power := 1 }
     s.warden.step = some 4 ∧ (s.core 1023).power = 1 ∧ (s.core 0).power ≠ 1) ∧
    (let r := { clean with memories := [(.icache, 1023, 3)] }
     let b := { clean with memories := [(.warden, 0, 0)] }
     Claims.baseFails clean = false ∧ Claims.baseFails r = false ∧ Claims.baseFails b = true ∧
       Claims.baseFails { clean with baseDies := [15] } = true) ∧
    (let s := (done 2).setReg (pA BILO_ID) 0x80000000
     let r := { clean with ports := [7], partners := [(7, 16383, false)] }
     7 ∈ r.ports ∧ s.bit (pA BILO_ID) 31 = true ∧ (16383 : Nat) < 2 ^ 14 ∧
     (r.partners.find? fun x => x.1 == 7) = some (7, 16383, false) ∧ 16383 ≠ s.fld (pA BILO_ID) 13 0) := by
  refine ⟨?_, ⟨admitted (by decide +kernel), by decide +kernel⟩, by and_intros <;> decide +kernel⟩
  intro n hn
  simp only [List.mem_cons, List.not_mem_nil, or_false] at hn
  rcases hn with rfl | rfl | rfl | rfl | rfl | rfl <;> exact ⟨admitted (by decide +kernel), by decide +kernel⟩

/-- A module that takes resets and one for each ground that refuses them; a held core; the reset of a core, Off, Clearing and On; that
of a stack before its work has drained, after that, and with its base die renewed and a core Clearing. -/
theorem witness_ResetsDropAndReturnTheirCores :
    (Claims.Admitted up .host (pA BRG_RESET) ∧ (∀ p ∈ [(0, 1023), (1, 15), (2, 0xFFFF)], ¬ Claims.ResetRefused up p.1 p.2) ∧
     (∀ p ∈ [(0, 1023), (1, 15), (2, 0xFFFF)], Claims.ResetRefused (up.setReg (pA BRG_RESET) 0x40000000) p.1 p.2 ∧
       Claims.ResetRefused (done 4) p.1 p.2) ∧ Claims.ResetRefused up 2 0 ∧
     Claims.ResetRefused (up.setReg (pA BRG_STACK_DOWN) 0x8000) 0 1023 ∧ Claims.ResetRefused (up.setReg (pA MAP_STATUS) 1) 1 15) ∧
    ((up.stack 15).exacts = [] ∧ up.bilo.barrows = [] ∧ (0xFFFF : W16).getLsbD 15 = true ∧ (1 : W16).getLsbD 15 = false ∧
     ¬ Claims.ResetRefused up 2 1) ∧
    (let s := (last.modWarden fun w => { w with reset := some (0, 1023) }).modCore 1023 fun k => { k with held := true }
     s.warden.reset = some (0, (1023 : CoreId).toNat) ∧ (s.core 1023).held = true) ∧
    (let s := last.modWarden fun w => { w with reset := some (0, 1023) }
     Claims.Running s ∧ (s.core 1023).held = false ∧ (s.core 1023).power = 2 ∧
     ((s.modCore 1023 fun k => { k with power := 1 }).core 1023).power = 1 ∧
     ((s.modCore 1023 fun k => { k with power := 0 }).core 1023).power = 0 ∧ up.warden.reset = none) ∧
    (let s := up.modWarden fun w => { w with reset := some (1, 15) }
     s.warden.renewed = false ∧ s.drained [15] = true ∧
     (s.modVault 1023 fun v => { v with cmds := [nbCmd 1 0 0 0 none] }).drained [15] = false ∧
     (∀ c, c / 64 = 15 → (s.vault c).unchecked = [])) ∧
    (let s := (up.modWarden fun w => { w with reset := some (1, 15), renewed := true }).modCore 1023 fun k => { k with power := 1 }
     let r : Retrained := ⟨[7], [], [15]⟩
     s.warden.renewed = true ∧ s.net.asked = none ∧ (15 : StackId).toNat ∈ r.channels ∧ 14 ∉ r.channels ∧
     (∀ p, p < 8 → portStack p = 15 → Claims.portUp s p = false ∨ p ∈ r.ports) ∧ (s.core 1023).power = 1) := by
  refine ⟨⟨admitted (by decide +kernel), ?_⟩, ?_, by decide +kernel, ⟨rfl, by decide +kernel⟩, ⟨by decide +kernel, by decide +kernel,
    by decide +kernel, fun _ _ => by simp [up, State.vault, State.modWarden, State.reset, smGet, Vault.reset]⟩, by decide +kernel⟩
  all_goals
    unfold Claims.ResetRefused
    decide +kernel

/-- No record in force, with room; one whose signature is good (its serial number is Config's, so that this is a premise), with the
defects in force and with others. A retired island above its limit, for the first time, a second later and before; one in service. -/
theorem witness_RepairRecordsAreWritten :
    (up.warden.identity = some 1 ∧ up.recordIn = false ∧ up.warden.defects.length ≤ 131056 ∧
     ∀ x : RepairRecord, x.magic = 0x52455041 → x.serial = Config.serial → signedBy (ecPublic 1) x.body x.sig 0 = true →
       let s (es : List W64) := (up.modWarden fun w => { w with defects := es }).modFlash fun f => { f with recordA := x }
       ∀ es, (s es).recordIn = true ∧ (s es).recordNow = x ∧ (s es).warden.defects = es ∧ (s es).warden.flash.recordA = x) ∧
    (let s := { up.modWarden fun w => { w with retired := [15 * 72 + 71] } with now := 1000000000 }
     let u := s.modWarden fun w => { w with gateAt := [(15 * 72 + 71, 1)] }
     15 * 72 + 71 ∈ s.warden.retired ∧ smGet 0 s.warden.gateAt (15 * 72 + 71) = 0 ∧
     smGet 0 u.warden.gateAt (15 * 72 + 71) - 1 + 1000000000 ≤ u.now.toNat ∧
     ({ u with now := 999999999 }).now.toNat < smGet 0 u.warden.gateAt (15 * 72 + 71) - 1 + 1000000000 ∧
     15 * 72 + 70 ∉ s.warden.retired) := by
  refine ⟨⟨rfl, by decide +kernel, by decide, fun x h1 h2 h3 es => ?_⟩, by decide +kernel⟩
  have v : x.valid (some 1) = true := by simp [RepairRecord.valid, h1, h2, h3]
  have n : RepairRecord.none.valid (some 1) = false := by decide +kernel
  have r : ((up.modWarden fun w => { w with defects := es }).modFlash fun f => { f with recordA := x }).recordNow = x := by
    change (if x.valid (some 1) && (!RepairRecord.none.valid (some 1) || _) then x else _) = x
    simp [v, n]
  exact ⟨by change RepairRecord.valid (State.recordNow _) (some 1) = true; rw [r]; exact v, r, rfl, rfl⟩

/-- A reset with no save and with one; a board that has asserted PWRGD_IN and not; a boot that ends, with a group of 26 errors, at the
last count, and one that does not. -/
theorem witness_PackageResetAndBoot :
    (up.warden.save = 0 ∧ (let s := up.modWarden fun w => { w with save := 4 }
     s.warden.save ≠ 0 ∧ s.warden.stopped ≠ 2) ∧ up.warden.pins.perst = false) ∧
    (let s := (State.reset.modFlash fun f => { f with bootCount := 0xFFFFFFFF }).modWarden fun w => { w with pins := { w.pins with pwrgdIn := true } }
     let b : BootFinds := ⟨true, [0, 26], 6, true, 15⟩
     s.warden.booted = false ∧ Claims.Running s ∧ s.warden.pins.vaux = true ∧ s.warden.pins.pwrgdIn = true ∧ b.ends = true ∧
     ({ b with ends := false }).ends = false ∧ (∃ n ∈ b.pufErrors, 25 < n) ∧
     (s.modWarden fun w => { w with pins := { w.pins with pwrgdIn := false } }).warden.pins.pwrgdIn = false ∧
     s.cfgValid s.warden.flash.configA = false ∧ s.cfgValid s.warden.flash.configB = false) := by
  unfold Claims.Running
  decide +kernel

/-! ### Security, debug and the module interface -/

/-- A report barred for each ground and one that is made; EXTEND of 3 and 4; chunks out of order, in order, beyond the last; a
configuration whose signature is good (its key is Config's, so that this is a premise) and one of a wrong length. -/
theorem witness_ReportsAndUpdatesAreGuarded :
    (Claims.Admitted up .host (pA SEC_ATTEST) ∧ up.warden.identity = some 1 ∧ up.bit (pA SEC_STATUS) 4 = false ∧
     up.bit (pA SEC_STATUS) 5 = false ∧ State.reset.warden.identity = none ∧
       (up.setReg (pA SEC_STATUS) 0x10).bit (pA SEC_STATUS) 4 = true) ∧
    (Claims.Admitted up .host (pA SEC_EXTEND) ∧ (0xE0000003 : W32) &&& 0x1FFFFFF8 = 0 ∧ (0xE0000003 : W32).toNat % 8 = 3 ∧
     (0xE0000004 : W32).toNat % 8 = 4) ∧
    (Claims.Admitted up .host (pA SEC_UPDATE) ∧ (0x03800400 : W32) &&& 0x007F0000 = 0 ∧ (0x03800400 : W32).toNat / 2 ^ 24 % 4 = 3 ∧
     (0x03800400 : W32).toNat % 2 ^ 16 < 1025 ∧ (0x03800400 : W32).getLsbD 23 = true ∧
     (let s := up.modWarden fun w => { w with upKind := 3, upNext := 1024 }
      (0x03800400 : W32).toNat % 2 ^ 16 = s.warden.upNext) ∧ up.warden.upKind = 0) ∧
    (up.updateVerdict 3 [] ≠ 0 ∧ ∀ bs : List Byte, bs.length = 4096 → cfgSigned ⟨true, bs⟩ = true → up.updateVerdict 3 bs = 0) := by
  refine ⟨⟨admitted (by decide +kernel), by decide +kernel⟩, ⟨admitted (by decide +kernel), by decide⟩,
    ⟨admitted (by decide +kernel), by decide +kernel⟩, by simp [State.updateVerdict], fun bs h1 h2 => ?_⟩
  have h3 : up.warden.flash.floor = 0 := rfl
  simp [State.updateVerdict, h1, h2, h3]

/-- The signed bytes of a grant of a scope for the module of scalar 1, EXPIRY 1,000, with a nonce of zeros. -/
def grantHead (scope : Nat) : List Byte :=
  leBytes 4 0x4B4E4C55 ++ leBytes 4 scope ++ leBytes 4 1000 ++ List.replicate 36 0 ++ keyBytes ecG

/-- A nonce has been drawn. -/
def nonced : State := up.setReg (pA DBG_STATUS) 4

theorem part {g l : List Byte} (h : g.take 112 = l) (i k : Nat) (hi : i + k ≤ 112) : (g.drop i).take k = (l.drop i).take k := by
  rw [← h, List.drop_take, List.take_take, min_eq_left (by omega)]

/-- A nonce drawn and not; a grant that names another, and one of a module without an identity; grants of scopes 1 and 2 whose
signature is good (its key is Config's, so that this is a premise). -/
theorem witness_GrantsOpenTheDebugLock :
    (let s := up.setReg (pA DBG_STATUS) 4
     Claims.Admitted s .host (pA DBG_CONTROL) ∧ s.bit (pA DBG_STATUS) 2 = true ∧ up.bit (pA DBG_STATUS) 2 = false ∧
     ((s.bytes (pA 0x80100) 176).drop 16).take 32 = s.bytes (pA 0x80020) 32 ∧
     (((s.setBytes (pA 0x80110) [1]).bytes (pA 0x80100) 176).drop 16).take 32 ≠ (s.setBytes (pA 0x80110) [1]).bytes (pA 0x80020) 32 ∧
     (State.reset.setReg (pA DBG_STATUS) 4).warden.identity = none ∧ s.warden.stopped ≠ 2) ∧
    ∀ scope ∈ [1, 2], ∀ g : List Byte, g.take 112 = grantHead scope → wilgonSigned (grantHead scope) g 112 = true →
      nonced.grantReason g = 0 := by
  refine ⟨⟨admitted (by decide +kernel), by decide +kernel⟩, fun scope hs g h sig => ?_⟩
  have e1 := part h 16 32 (by decide)
  have e2 := part h 48 64 (by decide)
  have e3 := part h 4 4 (by decide)
  have e4 : g.take 4 = ((grantHead scope).drop 0).take 4 := part h 0 4 (by decide)
  have e5 := part h 12 4 (by decide)
  have e6 := part h 8 4 (by decide)
  have o : cfgOwnerSet nonced.configNow = false := by decide +kernel
  simp only [List.mem_cons, List.not_mem_nil, or_false] at hs
  rcases hs with rfl | rfl <;>
    simp [State.grantReason, State.grantHere, State.grantScope, State.grantExpiry, State.grantExpired,
      State.grantSigned, numAt, zeroAt, e1, e2, e3, e4, e5, e6, o, h, sig] <;> decide +kernel

/-- Scopes 0 to 3; the last byte and the last 8 of core 1023's scratchpad, granted and not; a core that runs and one that is halted. -/
theorem witness_DebugAccessesNeedTheirScope :
    (∀ scope ∈ [1, 2, 3], let a := Claims.spAddr 1023 0x1FFFF8
     let s := (last.setReg (pA DBG_STATUS) (BitVec.ofNat 64 scope)).setReg (pA DBG_ADDR) (BitVec.ofNat 64 a)
     let u := s.setReg (cA 1023 (PITCH + 0xC0)) 0xDFFF0000
     Claims.Running s ∧ Claims.SpServed s 1023 ∧ s.fld (pA DBG_STATUS) 1 0 = scope ∧ s.fld (pA DBG_ADDR) 45 0 = a ∧
     s.uncommitted a (a + 8) = false ∧ s.spMark = [] ∧ s.pitchGap 1023 6 0x1FFFF8 8 true = some 0x1FFFF8 ∧
     s.pitchOk 1023 6 0x1FFFF8 1 true = false ∧ u.pitchGap 1023 6 0x1FFFF8 8 true = none ∧ u.pitchGap 1023 6 0x1FFFF8 8 false = none) ∧
    (last.fld (pA DBG_STATUS) 1 0 = 0 ∧ (3 : BitVec 2).toNat = 3) ∧
    (let s := (last.setReg (pA DBG_STATUS) 3).modCore 1023 fun k =>
       { k with halted := true, run := .running, pc := 0x3E8000000000, icache := [(0x3E007FE00000, leBytes 4 0x20A3FFF8 ++
         List.replicate 60 0)] }
     Claims.Admitted s .debug (cA 1023 CDBG_CONTROL) ∧ Claims.Admitted s .debug (cA 1023 CDBG_PC) ∧
     Claims.Admitted s .debug (cA 1023 CDBG_G + 8 * 31) ∧ 2 ≤ (s.core 1023).power ∧ (s.core 1023).halted = true ∧
     fetchAddr 1023 (s.core 1023).pc = some 0x3E007FE00000 ∧ s.cachedWord 1023 0x3E007FE00000 = some 0x20A3FFF8 ∧
     isBulkWord 0x20A3FFF8 = false ∧ decodeScalar 1023 0x20A3FFF8 = some (.addi 1023 5 3 0xFFF8) ∧
     ((s.modCore 1023 fun k => { k with halted := false }).core 1023).halted = false) := by
  refine ⟨?_, by decide +kernel, admitted (by decide +kernel), admitted (by decide +kernel), admitted (by decide +kernel),
    by decide +kernel⟩
  unfold Claims.SpServed Claims.Running
  decide +kernel

/-- A module with PERST# deasserted; one in package reset whose inputs come back; a save pending, of each slot's turn. -/
theorem witness_SavesRecordWhatWasInFlight :
    (up.warden.stopped ≠ 2 ∧ up.warden.pins.perst = false ∧ up.warden.save = 0 ∧ State.reset.warden.pins.perst = true) ∧
    (let s := up.modWarden fun w => { w with save := 4 }
     let u := s.modFlash fun f => { f with mramA := ⟨[(0, 1)], false, false⟩ }
     1 ≤ s.warden.save ∧ s.warden.save ≤ 4 ∧ s.warden.stopped ≠ 2 ∧
     (if s.mramLater then s.warden.flash.mramB else s.warden.flash.mramA).started = false ∧ u.mramLater = false) := by
  decide +kernel

/-- The bus with the standby domain and without, at each address, for each kind of request, with ALERT# asserted and not; a tail that
leaves 65,536 records and one that leaves one more; the standby domain of a stopped module and of one that runs. -/
theorem witness_TheBusAndStandbyAnswer :
    (let r : BusRequest := ⟨5, 0x63, 8, 1, false, 0x7F, 1⟩
     r.address = 0x63 ∧ r.changesState = false ∧ ({ r with changesState := true }).changesState = true ∧ r.command = 1 ∧
     ({ r with command := 2 }).command = 2 ∧ ({ r with command := 3 }).command = 3 ∧ ({ r with command := 5 }).command = 5 ∧
     5 < ({ r with command := 6 }).command ∧ r.sensor < 0x80 ∧ ({ r with sensor := 0x81 }).sensor = 0x81 ∧
     ({ r with address := 0x0C }).address = 0x0C ∧ ({ r with address := 0x10 }).address ≠ 0x63 ∧
     ({ r with address := 0x10 }).address ≠ 0x0C ∧ up.alertPin = false ∧ (up.setReg (sA 15 STHM_SUSPECT) 1).alertPin = true) ∧
    (up.warden.pins.vaux = true ∧ up.warden.stopped ≠ 2 ∧
     ¬ ((up.modWarden fun w => { w with pins := { w.pins with vaux := false } }).warden.pins.vaux = true)) ∧
    (Claims.Admitted up .host (pA SHUT_CONTROL) ∧ Claims.Admitted up .host (pA EVT_TAIL) ∧ (0x1FFFF : W32) &&& 0xFFFE0000 = 0 ∧
     ((up.setReg (pA EVT_HEAD) 65535).fld (pA EVT_HEAD) 16 0 + 2 ^ 17 - (0x1FFFF : W32).toNat) % 2 ^ 17 = 65536 ∧
     ((up.setReg (pA EVT_HEAD) 65536).fld (pA EVT_HEAD) 16 0 + 2 ^ 17 - (0x1FFFF : W32).toNat) % 2 ^ 17 = 65537) ∧
    State.reset.warden.pins.perst = true ∧ up.warden.pins.perst = false ∧
    (up.modWarden fun w => { w with stopped := 2 }).warden.stopped = 2 :=
  ⟨by decide +kernel, by decide +kernel, ⟨admitted (by decide +kernel), admitted (by decide +kernel), by decide +kernel⟩,
    by decide, by decide, rfl⟩

/-! ### Ill-formed commands and words -/

/-- One command for each check of `Instr.wf`, refused. -/
theorem test_illFormedCommandsAreRefused :
    (Instr.registerWrite .host 0 2 0).wf = false ∧ (Instr.registerRead .host 0 2 4).wf = false ∧
    (Instr.ld 0 1 2 0 [.sp 0 0 72]).wf = false ∧ (Instr.sd 0 1 2 0 [.fast 0 72 1]).wf = false ∧
    (Instr.icacheMissFill 0 [.slow 0 68 1]).wf = false ∧ (Instr.bulkStart 0 7 quiet).wf = false ∧
    (Instr.replay 0 0 { quiet with step := some ⟨true, 0, 0, 0, 0⟩ }).wf = false ∧ (Instr.retiredInjection 0 72 .crierNode).wf = false ∧
    (Instr.linkDown 0 72 0).wf = false ∧ (Instr.detourInstall 0 72 0).wf = false ∧ (Instr.retiredHaulRow 0 72).wf = false ∧
    (Instr.retiredCurrentCheck 0 72 true).wf = false := by decide

theorem test_illFormedPacketsAndReadingsAreRefused :
    (Instr.remoteWrite 0 [.sp 0 0 127]).wf = false ∧ (Instr.vcRepair .host 0 0 0 [.sp 0 0 72]).wf = false ∧
    (Instr.scrubRow 0 0 false [.fast 0 127 1]).wf = false ∧ (Instr.nbCommandStart 0 0 0 [.fast 0 72 1]).wf = false ∧
    (Instr.biloPacketArrival 0 (bilo 16)).wf = false ∧ (Instr.barrowContribution { bilo 9 with data := [0] }).wf = false ∧
    (Instr.hostRead 0 true 0 0 []).wf = false ∧ (Instr.hostWrite true 0 [] false []).wf = false ∧
    (Instr.stepEvaluation 0 ⟨0, false, 0, 0, [(26, 0)]⟩).wf = false ∧ (Instr.voltageUpdate 0 ⟨[(64, 0)], [], [], [], [], [],
      []⟩).wf = false ∧
    (Instr.sensorRead 0 ⟨[], [(16, 0, 0)], [], [], [], [], []⟩).wf = false ∧
    (Instr.sensorRead 0 ⟨[], [], [⟨0, 64, 0, 0, 0, 0⟩], [], [], [], []⟩).wf = false ∧
    (Instr.sensorRead 0 ⟨[], [], [], [(72, 0)], [], [], []⟩).wf = false ∧
      (Instr.clocks .host true { clean with baseDies := [16] }).wf = false ∧
    (Instr.resetEnd ⟨[8], [], []⟩).wf = false ∧ (Instr.resetEnd ⟨[], [(0, 72, 0)], []⟩).wf = false ∧
    (Instr.resetEnd ⟨[], [], [16]⟩).wf = false ∧ (Instr.packetHop 0 [513]).wf = false ∧
      (Instr.debugRead 0 [.slow 0 127 1]).wf = false ∧ (Instr.cdbgStep .host 0 [.sp 0 0 72]).wf = false ∧
    (Instr.forwarderAnswer ⟨0, 0, 0, true, 0, 8⟩).wf = false ∧ (Instr.mctpControl ⟨0, 0x63, 0, 256, false, 0, 0⟩).wf = false := by
  decide

theorem test_wellFormedCommandsPass :
    (Instr.registerWrite .host 0x3F0000417010 8 0).wf = true ∧ (Instr.bulkStart 0 6 quiet).wf = true ∧
    (Instr.clocks .host true clean).wf = true ∧ (Instr.biloPacketArrival 0 (bilo 1)).wf = true := by decide

/-- No row of the table gives bits. -/
theorem test_noWordSpellsACommand : decodeTableWord 32 0x20A3FFF8 = none ∧ State.reset.withFetchWord 32 7 = State.reset := ⟨rfl, rfl⟩

/-- One word of each opcode class of R106: A, I, T, M forms and the bulk pair, laid out bit by bit. -/
theorem test_wordsOfEachForm :
    decodeScalar 0 (0b000000_00001_00010_00011_00000_000001 : W32) = some (.sub 0 1 2 3) ∧
    decodeScalar 0 0xC0001004 = some (.twait 0 0 0 0 4) ∧ decodeBulk 0 0xF8834006 0x12350000 = some (.vopFma 0 ⟨3, 4, 0, 1, 2, 3,
      0x50000⟩) := by
  decide

/-! ### The worked examples of the chapters -/

/-- Chapter 2: an E4M3 block by an E2M1 block, scale bytes 0x79 and 0x80, added to 1000.0. -/
theorem test_chapter2MixedBlock :
    let a := [0x7E, 0x81, 0x45].map fun b => Fmt.e4m3.val b
    let b := [0x7, 0x1, 0xE].map fun b => Fmt.e2m1.val b
    fusedAdd 0x447A0000 ((blockValue 0x79 0x80 (List.zip a b))) = 0x44877300 := by
  decide +kernel

/-- Chapter 2: 10.0 in an MXFP4 block with computed scale, to nearest and by r = 0x9A3C10; 13.0 saturates. -/
theorem test_chapter2ToMxfp4 :
    (narrowBlock .e2m1 true none (fun _ => .nearest) [f32Val 0x41200000]).scale = 128 ∧
    (narrowBlock .e2m1 true none (fun _ => .nearest) [f32Val 0x41200000]).elems = [6] ∧
    (narrowBlock .e2m1 true none (fun _ => .stochastic 0x9A3C10) [f32Val 0x41200000]).elems = [7] ∧
    (narrowBlock .e2m1 true none (fun _ => .nearest) [f32Val 0x41500000]).elems = [7] ∧
    (narrowBlock .e2m1 false none (fun _ => .nearest) [f32Val 0x41500000]).elems = [7] := by
  decide +kernel

/-- Chapters 9 and 10: the first hop from core 0 to core 0x3FF is eastward; where a KV page and a master-weight line lie. -/
theorem test_chapter10Addresses :
    nextHop 0 0x3FF = (1, 1) ∧ classify 0x01F54D246840 = .fast 0x3EA ∧ bankOf 0x01F54D246840 = 9 * 8 + 5 ∧
    rowOf 0x01F54D246840 = 0x1234 ∧ classify 0x041234567A80 = .slow 7 := by
  decide

/-- Chapter 11: the poison pattern's bytes; chapter 0: a register of core 0x041's TOK block. -/
theorem test_chapter11PoisonPattern :
    leBytes 8 poisonQ = [0xC3, 0x1E, 0x97, 0x64, 0xB8, 0x2D, 0xF1, 0x4A] ∧ cA 0x041 0x7010 = 0x3F0000417010 := by
  decide

/-- Chapter 12: the DOT of the similarity scan, as its three words give it. -/
theorem test_chapter12Scan :
    let k := nbArrived (leBytes 8 0x00013FFF00150010 ++ leBytes 8 0x0000400000007D00 ++ leBytes 8 0x7A79 ++ List.replicate 40 0)
      (0x100000000000 + 0x006297000000) none 0
    k.op = 0x10 ∧ k.fmt = 5 ∧ k.segLen = 128 ∧ k.count = 16384 ∧ k.rowB = 32000 ∧ k.rowD = 16384 ∧ k.xd = 0x79 ∧ k.xq = 0x7A ∧
    k.rowA = 0 ∧ k.bank = 2 * 8 + 7 := by
  decide

/-- Published vectors of SHA-256 and CRC-32C, which log entry 17 takes as the algorithms the chapters name. -/
theorem test_publishedVectors :
    sha256 [0x61, 0x62, 0x63] = leBytes 32 0xad1500f261ff10b49c7a1796a36103b02322ae5dde404141eacf018fbf1678ba ∧
    crc32c ([1, 2, 3, 4, 5, 6, 7, 8, 9].map (0x30 + ·)) = 0xE3069283 := by
  decide +kernel

/-! ### Single steps -/

/-- The state a command answers with. -/
def after (i : Instr) (s : State) : State := match exec i s with
  | .next t => t
  | _ => s

/-- R108: a sum wraps; a quotient by 0 is all ones; the least number by −1 stays; a shift takes its count modulo 64. -/
theorem test_arithmetic :
    (after (.add 0 4 1 2) (on 0xFFFFFFFFFFFFFFFF 2 0)).gpr 0 4 = 1 ∧ (after (.div 0 4 1 2) (on 7 0 0)).gpr 0 4 = 0xFFFFFFFFFFFFFFFF ∧
    (after (.div 0 4 1 2) (on 0x8000000000000000 0xFFFFFFFFFFFFFFFF 0)).gpr 0 4 = 0x8000000000000000 ∧
    (after (.sra 0 1 1 2) (on 0x8000000000000000 65 0)).gpr 0 1 = 0xC000000000000000 := by
  decide +kernel

/-- R107: a byte is sign-extended, a word stored with its lowest byte first. -/
theorem test_loadsAndStores :
    (after (.lb 0 4 1 0 []) ((on 0x3E80001FFFFF 0 0).setBytes 0x3E00001FFFFF [0x80])).gpr 0 4 = 0xFFFFFFFFFFFFFF80 ∧
    (after (.sw 0 2 1 0xFFFC []) (on 0x3E8000000104 0x11223344 0)).bytes 0x3E0000000100 4 = [0x44, 0x33, 0x22, 0x11] := by
  decide +kernel

/-- R107: a branch goes 4 × its offset from its own address; R118: twait takes a token; tpoll of none says 0. -/
theorem test_branchesAndTokens :
    ((after (.bne 0 1 2 0xFFFA) ((on 1 0 0).modCore 0 fun k => { k with pc := 0x3E8000000100 })).core 0).pc = 0x3E80000000E8 ∧
    Claims.counter (after (.twait 0 0 0 0 4) ((on 0 0 0).setReg (cA 0 (TOK_COUNT + 12)) 2)) 0 4 = 1 := by
  decide +kernel

/-- R127: an instruction that does not exist traps with cause 1, and from the handler stops the core. -/
theorem test_traps :
    ((after (.ecall 0 1 0 0) (on 0 0 0)).core 0).cause = 1 ∧
    ((after (.ecall 0 1 0 0) ((on 0 0 0).modCore 0 fun k => { k with status := 0x10 })).core 0).run = .doubleTrapped := by
  decide +kernel

/-- Chapter 17: source 4 is claimed at priority 10 and ended; a second EOI 4 finds the stack empty. -/
theorem test_chapter17Claims :
    let a := cA 0x041
    let s := (up.setCore 0x041 { Core.reset with power := 2 }).setReg (a ICC_PENDING) 0x10
    let s := after (.iccClaim (.core 0x041) 0x041 4) s
    let u := after (.iccEoi (.core 0x041) 0x041 4) s
    let t := after (.iccEoi (.core 0x041) 0x041 4) u
    s.reg (icA (some 0x041) 4) = 4 ∧ s.icEntry (some 0x041) 0 = (4, 0) ∧ s.fld (a ICC_STATUS) 15 12 = 10 ∧
    u.fld (a ICC_STATUS) 15 12 = 0 ∧ u.bit (a ICC_STATUS) 31 = false ∧ t.bit (a ICC_STATUS) 31 = true ∧
    t.reg (a ICC_FAULT) = 0x80000004 := by
  decide +kernel

/-- R176: a one-row SMOV; R300: an AND of two rows. -/
theorem test_moves :
    (after (.bulkStart 0 3 quiet) ((on 0 0 0 [smov]).setBytes 0x3E0000000000 [1, 2])).bytes 0x3E00001FFFC0 3 = [1, 2, 0] ∧
    (let s := (nbOn.modVault 1023 fun v => { v with cmds := [nbCmd 3 0 0 1 none] }).setBytes 0x1FFFFFFFE00 [0xF0]
     (after (.nbCommandStart 15 63 127 []) (s.setBytes 0x1FFFF000000 [0x3C])).byte 0x1FFFF000200) = 0x30 := by
  decide +kernel

/-- R9: the low half waits for the high half; R12: bit 0 of ICC_ENABLE is reserved. -/
theorem test_registers :
    (after (.registerWrite (.core 1023) (BitVec.ofNat 46 (cA 1023 ICC_ENABLE)) 4 6) last).reg (cA 1023 ICC_ENABLE) = 0xFFFF0000000007FE ∧
    (after (.registerWrite (.core 1023) (BitVec.ofNat 46 (cA 1023 ICC_ENABLE)) 8 6) last).reg (cA 1023 ICC_ENABLE) = 6 ∧
    (match exec (.registerWrite (.core 1023) (BitVec.ofNat 46 (cA 1023 ICC_ENABLE)) 8 7) last with
      | .fault .reservedFieldWritten => true
      | _ => false) = true := by
  decide +kernel

/-- R491: RELOCK leaves scope 0; R487: a boot advances the count; R432: a cap of 1,133 W is 1,125 W. -/
theorem test_package :
    (after (.relock .host) (up.setReg (pA DBG_STATUS) 2)).fld (pA DBG_STATUS) 1 0 = 0 ∧
    (after (.wardenBoot ⟨true, [26], 6, true, 15⟩)
      (State.reset.modWarden fun w => { w with pins := { w.pins with pwrgdIn := true } })).warden.flash.bootCount = 1 ∧
    (after (.pwrCapWrite .host 1133) up).fld (pA PWR_CAP) 10 0 = 1125 := by
  decide +kernel

end Sys2Proof.Tests
end

section
/-! SUPPORT. Accesses of registers (R9 to R12): an access that meets no register, reserved fields, whole accesses and halves, as
REGISTER_WRITE and REGISTER_READ make them. -/

namespace Sys2Proof.Machine

open State

/-! ### Fields of a row, bit by bit -/

/-- The bits hi to lo of a word. -/
def span (hi lo : Nat) : W64 := BitVec.ofNat 64 ((2 ^ (hi - lo + 1) - 1) * 2 ^ lo)

theorem getLsbD_span (hi lo i : Nat) : (span hi lo).getLsbD i = (decide (i < 64) && decide (lo ≤ i ∧ i < lo + (hi - lo + 1))) := by
  rw [span, BitVec.getLsbD_ofNat, Nat.testBit_mul_two_pow, Nat.testBit_two_pow_sub_one, ← Bool.decide_and]
  congr 2
  exact propext ⟨fun h => by omega, fun h => by omega⟩

/-- What a write gives one field, within the bits of a mask (R11). -/
def RegField.written (f : RegField) (v mask w : W64) : W64 :=
  let m := span f.hi f.lo &&& mask
  match f.acc with
  | .rw => (w &&& ~~~m) ||| (v &&& m)
  | .w1c => w &&& ~~~(v &&& m)
  | .w1s => w ||| (v &&& m)
  | .ro | .wo | .rc => w

theorem RegRow.written_eq (r : RegRow) (old v mask : W64) :
    r.written old v mask = r.fields.foldl (fun w f => f.written v mask w) old := by
  unfold RegRow.written
  congr 1

theorem getLsbD_rw_written {f : RegField} (h : f.acc = .rw) (v mask w : W64) (i : Nat) :
    (f.written v mask w).getLsbD i = if (span f.hi f.lo).getLsbD i && mask.getLsbD i then v.getLsbD i else w.getLsbD i := by
  by_cases hi : i < 64
  · simp only [RegField.written, h, BitVec.getLsbD_or, BitVec.getLsbD_and, BitVec.getLsbD_not, hi]
    cases (span f.hi f.lo).getLsbD i <;> cases mask.getLsbD i <;> simp
  · simp [BitVec.getLsbD_of_ge, Nat.le_of_not_lt hi]

theorem getLsbD_w1c_written {f : RegField} (h : f.acc = .w1c) (v mask w : W64) (i : Nat) :
    (f.written v mask w).getLsbD i
      = (w.getLsbD i && !((span f.hi f.lo).getLsbD i && mask.getLsbD i && v.getLsbD i)) := by
  by_cases hi : i < 64
  · simp only [RegField.written, h, BitVec.getLsbD_and, BitVec.getLsbD_not, hi]
    cases (span f.hi f.lo).getLsbD i <;> cases mask.getLsbD i <;> simp
  · simp [BitVec.getLsbD_of_ge, Nat.le_of_not_lt hi]

theorem reservedSet_eq_false {r : RegRow} {v mask : W64}
    (h : ∀ i, v.getLsbD i = true → mask.getLsbD i = true → r.fieldMask.getLsbD i = true) : r.reservedSet v mask = false := by
  rw [RegRow.reservedSet, decide_eq_false_iff_not, not_not]
  apply BitVec.eq_of_getLsbD_eq
  intro i hi
  have := h i
  cases hv : v.getLsbD i <;> cases hm : mask.getLsbD i <;> simp_all

theorem reservedSet_eq_true {r : RegRow} {v mask : W64} (i : Nat) (hi : i < 64) (hv : v.getLsbD i = true)
    (hm : mask.getLsbD i = true) (hf : r.fieldMask.getLsbD i = false) : r.reservedSet v mask = true := by
  rw [RegRow.reservedSet, decide_eq_true_iff]
  intro h
  have := congrArg (fun x : W64 => x.getLsbD i) h
  simp only [BitVec.getLsbD_and, BitVec.getLsbD_not, hv, hm, hf, hi, decide_true, Bool.not_false, Bool.and_self] at this
  simp at this

/-! ### Numbers as bytes -/

theorem leBytes_zero (n : Nat) : leBytes n 0 = List.replicate n 0 := by
  induction n with
  | zero => rfl
  | succ n ih => simp [leBytes, ih, List.replicate_succ]

theorem ofLeBytes_replicate_zero (n : Nat) : ofLeBytes (List.replicate n 0) = 0 := by
  induction n with
  | zero => rfl
  | succ n ih => rw [List.replicate_succ, ofLeBytes, ih]; rfl

theorem leBytes_mod (n x : Nat) : leBytes n (x % 256 ^ n) = leBytes n x := by
  induction n generalizing x with
  | zero => rfl
  | succ n ih =>
    have hdiv : x % 256 ^ (n + 1) / 256 = x / 256 % 256 ^ n := by rw [pow_succ', Nat.mod_mul_right_div_self]
    rw [leBytes, leBytes, hdiv, ih]
    congr 1
    apply BitVec.eq_of_toNat_eq
    simp

theorem leBytes_lowHalf (v : W64) : leBytes 4 (v &&& 0xFFFFFFFF).toNat = leBytes 4 v.toNat := by
  rw [BitVec.toNat_and, show (0xFFFFFFFF : W64).toNat = 2 ^ 32 - 1 by decide, Nat.and_two_pow_sub_one_eq_mod]
  exact leBytes_mod 4 v.toNat

/-! ### Halves held and captured (R9) -/

theorem dropHalves_none (s : State) (req : Requester) : s.dropHalves req none = Claims.heard s req := by
  simp [dropHalves, Claims.heard]

theorem noHalf_heard (s : State) (req : Requester) : Claims.NoHalf (Claims.heard s req) req := by
  intro x hx
  simpa using (List.mem_filter.mp hx).2

theorem holds_putHalf_heard (s : State) (req : Requester) (a : Nat) (captured : Bool) (v : W32) :
    Claims.holds ((Claims.heard s req).putHalf req a captured v) req a captured v := by
  simp only [Claims.holds, Claims.heard, putHalf, List.filter_append, List.filter_filter]
  simp

theorem noHalf_heard_setReg (s : State) (req : Requester) (a : Nat) (w : W64) :
    Claims.NoHalf ((Claims.heard s req).setReg a w) req := noHalf_heard s req

theorem heard_setReg_frame (s : State) (req : Requester) (a : Nat) (w : W64) :
    { (Claims.heard s req).setReg a w with regs := s.regs, halves := s.halves } = s := rfl

theorem half_of_holds {s : State} {req : Requester} {a : Nat} {captured : Bool} {v : W32} (h : Claims.holds s req a captured v) :
    s.half req a captured = some v := by
  have e : (s.halves.filter fun x => x.1 == req && x.2.1 == a && x.2.2.1 == captured) = [(req, a, captured, v)] := by
    have := congrArg (List.filter fun x => x.2.1 == a && x.2.2.1 == captured) h
    rw [List.filter_filter] at this
    simpa [Bool.and_comm, Bool.and_left_comm, Bool.and_assoc] using this
  rw [half, ← List.head?_filter, e]
  rfl

theorem half_of_noHalf {s : State} {req : Requester} (h : Claims.NoHalf s req) (a : Nat) (captured : Bool) :
    s.half req a captured = none := by
  rw [half, List.find?_eq_none.mpr, Option.map_none]
  intro x hx
  simp [h x hx]

/-! ### Where registers lie -/

theorem eq_base_of_regionOf {a o off : Nat} {rg : Region} (h : regionOf a = some (rg, o, off)) : a = rg.base o + off := by
  unfold regionOf at h
  split at h
  · cases h; unfold Region.base coreBase; dsimp only; omega
  split at h
  · cases h; unfold Region.base stackBase; dsimp only; omega
  split at h
  · cases h; unfold Region.base pkgBase; dsimp only; omega
  · cases h

theorem package_of_regionOf {a o off : Nat} (h : regionOf a = some (.package, o, off)) : o = 0 := by
  unfold regionOf at h
  repeat' split at h
  all_goals cases h
  rfl

theorem regionOf_of_findReg {a : Nat} {h : RegHit} (hf : findReg a = some h) : ∃ rg o off, regionOf a = some (rg, o, off) := by
  unfold findReg at hf
  split at hf
  · cases hf
  · next rg o off e => exact ⟨rg, o, off, e⟩

/-- The control register of a core's debugger and the register of debug operations start more than their own write (R492, R496). -/
theorem fits_cdbgControl {a c : Nat} (h : regionOf a = some (.core, c, CDBG_CONTROL)) :
    ∃ hit, findReg a = some hit ∧ Claims.Fits hit a 4 := by
  have e : (lookup .core CDBG_CONTROL).map (fun p => p.1.off + p.2 * p.1.stride) = some CDBG_CONTROL := by decide +kernel
  obtain ⟨p, hp, hoff⟩ := Option.map_eq_some_iff.mp e
  refine ⟨_, by rw [findReg_of_region h, hp]; rfl, .inl ⟨?_, .inl rfl⟩⟩
  rw [eq_base_of_regionOf h, ← hoff]
  exact (Nat.add_assoc ..).symm

theorem fits_dbgOp : ∃ hit, findReg (pA DBG_OP) = some hit ∧ Claims.Fits hit (pA DBG_OP) 4 := by
  have e : (lookup .package DBG_OP).map (fun p => p.1.off + p.2 * p.1.stride) = some DBG_OP := by decide +kernel
  obtain ⟨p, hp, hoff⟩ := Option.map_eq_some_iff.mp e
  have hr := regionOf_package (off := DBG_OP) (by decide)
  refine ⟨_, by rw [findReg_of_region hr, hp]; rfl, .inl ⟨?_, .inl rfl⟩⟩
  rw [eq_base_of_regionOf hr, ← hoff]
  exact (Nat.add_assoc ..).symm

theorem mayWrite_of_admitted {s : State} {req : Requester} {a o off : Nat} {rg : Region} (h : Claims.Admitted s req a)
    (hr : regionOf a = some (rg, o, off)) : s.mayWrite req rg o off = true := by
  obtain ⟨_, rg', o', off', hr', hm⟩ := h
  cases hr.symm.trans hr'
  exact hm

theorem mayRead_of_readable {s : State} {req : Requester} {a o off : Nat} {rg : Region} (h : Claims.Readable s req a)
    (hr : regionOf a = some (rg, o, off)) : s.mayRead req rg o off = true := by
  obtain ⟨_, rg', o', off', hr', hm⟩ := h
  cases hr.symm.trans hr'
  exact hm

/-! ### The commands -/

/-- A write that starts neither a step of a halted core nor a debug operation is a register write alone. -/
theorem exec_registerWrite {s : State} {req : Requester} {a : Addr} {size : Nat} {v : W64}
    (hstep : s.stepAsked req a.toNat size v = none) (hgo : s.goAsked req a.toNat size v = false) :
    exec (.registerWrite req a size v) s = s.command req a.toNat size v := by
  show execRegisterWrite req a size v s = _
  unfold execRegisterWrite command writeAny writeStep
  rw [hstep, hgo]
  split
  · cases s.writeReg req a.toNat size v Env.none <;> rfl
  · rfl

theorem stepAsked_eq_none {s : State} {req : Requester} {a size : Nat} {v : W64}
    (h : size = 4 → ∀ c, regionOf a ≠ some (.core, c, CDBG_CONTROL)) : s.stepAsked req a size v = none := by
  unfold stepAsked
  split
  · next c e => rw [if_neg fun hs => h hs.1 c e]
  · rfl

theorem goAsked_eq_false {s : State} {req : Requester} {a size : Nat} {v : W64} (h : size = 4 → a ≠ pA DBG_OP) :
    s.goAsked req a size v = false := by
  unfold goAsked
  by_cases hs : size = 4
  · simp [h hs]
  · simp [hs]

/-- A read whose register read is known is answered with that value, and registers and halves are as the register read left them. -/
theorem answers_registerRead {s t : State} {req : Requester} {tag a : Nat} {addr : Addr} {size : Nat} {v : W64} {P : State → Prop}
    (haddr : addr.toNat = a) (hacc : s.accessible req a = true) (hread : s.readReg req a size = (t, v))
    (hkept : { t with regs := s.regs, halves := s.halves } = s)
    (hP : ∀ u, Claims.Told s u req tag (leBytes size v.toNat) → u.regs = t.regs → u.halves = t.halves → P u) :
    Answers (.registerRead req tag addr size) s P := by
  subst haddr
  refine ⟨_, ?_, hP (t.modHost fun h =>
    if req = .host then { h with completions := h.completions ++ [⟨tag, leBytes size v.toNat, false, .successful⟩] }
    else { h with answers := h.answers ++ [(tag, leBytes size v.toNat)] }) ?_ rfl rfl⟩
  · show execRegisterRead req tag addr size s = _
    unfold execRegisterRead
    rw [hacc, hread]
    rfl
  · have hhost : t.host = s.host := (congrArg State.host hkept :)
    have hmem : t.mem = s.mem := (congrArg State.mem hkept :)
    have hcores : t.cores = s.cores := (congrArg State.cores hkept :)
    have hnet : t.net = s.net := (congrArg State.net hkept :)
    unfold Claims.Told
    by_cases hreq : req = .host <;> simp [hreq, hhost, hmem, hcores, hnet]

/-! ### Accesses that meet no register -/

theorem accessKind_misfit {h : RegHit} {a size : Nat} (hfit : ¬ Claims.Fits h a size) : accessKind h a size = 0 := by
  unfold Claims.Fits at hfit
  unfold accessKind
  cases hw : h.row.wide with
  | false =>
    have hwhole : ¬ (size = 4 ∧ a = h.base) := fun hk => hfit (.inl ⟨hk.2, .inl hk.1⟩)
    rw [if_neg Bool.false_ne_true, if_neg hwhole]
  | true =>
    have hwhole : ¬ (size = 8 ∧ a = h.base) := fun hk => hfit (.inl ⟨hk.2, .inr ⟨hk.1, hw⟩⟩)
    have hlow : ¬ (size = 4 ∧ a = h.base) := fun hk => hfit (.inl ⟨hk.2, .inl hk.1⟩)
    have hhigh : ¬ (size = 4 ∧ a = h.base + 4) := fun hk => hfit (.inr ⟨hk.2, hk.1, hw⟩)
    rw [if_pos rfl, if_neg hwhole, if_neg hlow, if_neg hhigh]

/-- An access of bytes that lies in a buffer of the package block lies in the places of the statement. -/
theorem inBuffer_of_mem_buffers : ∀ b ∈ buffers, ∀ off, b.1 ≤ off → off < b.1 + b.2.1 → Claims.inBuffer off := by
  simp only [buffers, Claims.inBuffer, List.mem_cons, List.not_mem_nil, or_false, exists_eq_or_imp, exists_eq_left]
  intro b hb off hlo hhi
  rcases hb with rfl | rfl | rfl | rfl | rfl | rfl | rfl | rfl | rfl | rfl <;> dsimp only at hhi <;> omega

theorem bufferOf_outside {off n : Nat} (hout : ¬ Claims.inBuffer off) {b : Nat × Nat × Bool × Bool} (h : bufferOf off n = some b) :
    n = 0 := by
  have hb := List.find?_some h
  simp only [Bool.and_eq_true, decide_eq_true_eq] at hb
  by_contra hn
  exact hout (inBuffer_of_mem_buffers b (List.mem_of_find?_eq_some h) off hb.1 (by omega))

theorem bufferBytes_outside (s : State) {off : Nat} (n : Nat) (hout : ¬ Claims.inBuffer off) :
    s.bufferBytes off n = List.replicate n 0 := by
  unfold bufferBytes
  rw [if_neg fun h => hout ⟨(0x180000, 0x400000), by simp, by omega⟩]
  split
  · next b hb =>
    obtain rfl := bufferOf_outside hout hb
    split <;> rfl
  · rfl

theorem vcHit_outside {a : Nat} (hout : ∀ off, regionOf a = some (.package, 0, off) → ¬ Claims.inBuffer off) : vcHit a = none := by
  unfold vcHit
  refine if_neg fun h => ?_
  obtain ⟨off, rfl⟩ : ∃ off, a = pA off := ⟨a - pkgBase, by unfold pA at *; omega⟩
  have hoff : 0x21000 ≤ off ∧ off < 0x21400 := by unfold pA BRG_VCWIN at h; omega
  exact hout off (regionOf_package (by omega)) ⟨(0x21000, 0x21400), by simp, hoff⟩

theorem writeReg_noRegister {s : State} {req : Requester} {a : Nat} (size : Nat) (v : W64) (e : Env) (hf : findReg a = none)
    (hout : ∀ off, regionOf a = some (.package, 0, off) → ¬ Claims.inBuffer off) :
    s.writeReg req a size v e = some (Claims.heard s req) := by
  unfold writeReg
  rw [dropHalves_none, hf]
  split
  · rfl
  · next rg o off hr =>
    dsimp only
    split
    · next hp =>
      obtain ⟨rfl, -⟩ := hp
      obtain rfl := package_of_regionOf hr
      split
      · next b hb =>
        obtain rfl := bufferOf_outside (hout off hr) hb
        split <;> rfl
      · rfl
    · rfl

theorem readReg_noRegister {s : State} {req : Requester} {a : Nat} (size : Nat) (hf : findReg a = none)
    (hout : ∀ off, regionOf a = some (.package, 0, off) → ¬ Claims.inBuffer off) :
    s.readReg req a size = (Claims.heard s req, 0) := by
  unfold readReg readHit
  rw [dropHalves_none, hf, vcHit_outside hout]
  split
  · rfl
  · next rg o off hr =>
    dsimp only [Option.or]
    split
    · next hp =>
      obtain ⟨rfl, -⟩ := hp
      obtain rfl := package_of_regionOf hr
      rw [bufferBytes_outside _ _ (hout off hr), ofLeBytes_replicate_zero]
      rfl
    · rfl

theorem writeReg_misfit {s : State} {req : Requester} {a size : Nat} {h : RegHit} (v : W64) (e : Env) (hf : findReg a = some h)
    (hfit : ¬ Claims.Fits h a size) : s.writeReg req a size v e = some (Claims.heard s req) := by
  obtain ⟨rg, o, off, hr⟩ := regionOf_of_findReg hf
  unfold writeReg
  rw [dropHalves_none, hf, hr]
  dsimp only
  rw [accessKind_misfit hfit]
  rfl

theorem readReg_misfit {s : State} {req : Requester} {a size : Nat} {h : RegHit} (hf : findReg a = some h)
    (hfit : ¬ Claims.Fits h a size) : s.readReg req a size = (Claims.heard s req, 0) := by
  obtain ⟨rg, o, off, hr⟩ := regionOf_of_findReg hf
  unfold readReg readHit
  rw [dropHalves_none, hf, hr]
  dsimp only [Option.or]
  rw [accessKind_misfit hfit]
  rfl

/-- An access meets no register: nothing occupies its place, or it is off the register's width (R10). -/
def Unmet (a size : Nat) : Prop :=
  (findReg a = none ∧ ∀ off, regionOf a = some (.package, 0, off) → ¬ Claims.inBuffer off) ∨
    ∃ h, findReg a = some h ∧ ¬ Claims.Fits h a size

theorem not_unmet_of_fits {a size : Nat} (h : ∃ hit, findReg a = some hit ∧ Claims.Fits hit a size) : ¬ Unmet a size := by
  obtain ⟨hit, hf, hfit⟩ := h
  rintro (⟨hnone, -⟩ | ⟨hit', hf', hmis⟩)
  · cases hf.symm.trans hnone
  · cases hf.symm.trans hf'
    exact hmis hfit

theorem writeReg_unmet {a size : Nat} (h : Unmet a size) (s : State) (req : Requester) (v : W64) (e : Env) :
    s.writeReg req a size v e = some (Claims.heard s req) := by
  rcases h with ⟨hf, hout⟩ | ⟨hit, hf, hfit⟩
  · exact writeReg_noRegister size v e hf hout
  · exact writeReg_misfit v e hf hfit

theorem readReg_unmet {a size : Nat} (h : Unmet a size) (s : State) (req : Requester) :
    s.readReg req a size = (Claims.heard s req, 0) := by
  rcases h with ⟨hf, hout⟩ | ⟨hit, hf, hfit⟩
  · exact readReg_noRegister size hf hout
  · exact readReg_misfit hf hfit

theorem registerWrite_unmet {s : State} {req : Requester} {a : Addr} {size : Nat} (v : W64)
    (hacc : s.accessible req a.toNat = true) (h : Unmet a.toNat size) :
    exec (.registerWrite req a size v) s = .next (Claims.heard s req) := by
  rw [exec_registerWrite, command, if_pos hacc, writeReg_unmet h]
  · rfl
  · refine stepAsked_eq_none fun hs c hr => not_unmet_of_fits (fits_cdbgControl hr) (hs ▸ h)
  · refine goAsked_eq_false fun hs ha => not_unmet_of_fits fits_dbgOp (ha ▸ hs ▸ h)

theorem registerRead_unmet {s : State} {req : Requester} (tag : Nat) {a : Addr} {size : Nat}
    (hacc : s.accessible req a.toNat = true) (h : Unmet a.toNat size) :
    Answers (.registerRead req tag a size) s fun t => Claims.Told s t req tag (List.replicate size 0) ∧
      t.regs = s.regs ∧ t.halves = (Claims.heard s req).halves :=
  answers_registerRead rfl hacc (readReg_unmet h s req) rfl fun _ told hregs hhalves =>
    ⟨leBytes_zero size ▸ told, hregs, hhalves⟩

/-! ### Accesses that meet one -/

section Met

variable {s : State} {req : Requester} {a size o off : Nat} {rg : Region} {h : RegHit} {v : W64} {e : Env}
  (hr : regionOf a = some (rg, o, off)) (hf : findReg a = some h)

include hr hf

section Writes

variable (hacc : s.accessible req a = true) (hm : s.mayWrite req rg o (h.base - rg.base o) = true)

include hacc hm

/-- A write of a whole register that gives a reserved field a value stops (R12). -/
theorem command_whole_reserved (hk : accessKind h a size = 1)
    (hres : h.row.reservedSet (if size = 4 then v &&& 0xFFFFFFFF else v) (if h.row.wide then ~~~0 else 0xFFFFFFFF) = true) :
    s.command req a size v e = .fault .reservedFieldWritten := by
  have hm' : (s.dropHalves req none).mayWrite req rg o (h.base - rg.base o) = true := hm
  rw [command, if_pos hacc, writeReg, hr]
  dsimp only
  rw [hf]
  dsimp only
  rw [hk]
  cases hw : h.row.wide <;> rw [hw] at hres <;> simp_all [written]

/-- A write of a low half is held until its high half is written (R9). -/
theorem command_lowHalf (hk : accessKind h a 4 = 2) (hres : h.row.reservedSet (v &&& 0xFFFFFFFF) 0xFFFFFFFF = false) :
    s.command req a 4 v e = .next ((Claims.heard s req).putHalf req h.base false ((v &&& 0xFFFFFFFF).setWidth 32)) := by
  have hm' : (Claims.heard s req).mayWrite req rg o (h.base - rg.base o) = true := hm
  rw [command, if_pos hacc, writeReg, hr]
  dsimp only
  rw [hf, dropHalves_none]
  dsimp only
  rw [hk]
  simp only [hm', hres, Bool.not_true, Bool.false_eq_true, Nat.reduceEqDiff, true_or, reduceIte, written]

/-- A write of a high half takes effect with the low half held, or alone on its own bits (R9). -/
theorem command_highHalf (hk : accessKind h a 4 = 3) (hres : h.row.reservedSet (v <<< 32) 0xFFFFFFFF00000000 = false) :
    s.command req a 4 v e = .next ((s.half req h.base false).elim ((Claims.heard s req).act h (v <<< 32) 0xFFFFFFFF00000000 e)
      fun low => (Claims.heard s req).act h (v <<< 32 ||| low.setWidth 64) (~~~0) e) := by
  have hm' : (Claims.heard s req).mayWrite req rg o (h.base - rg.base o) = true := hm
  rw [command, if_pos hacc, writeReg, hr]
  dsimp only
  rw [hf, dropHalves_none]
  dsimp only
  rw [hk]
  cases s.half req h.base false <;>
    simp only [hm', hres, Bool.not_true, Bool.false_eq_true, Nat.reduceEqDiff, reduceIte, written, Option.elim]

end Writes

theorem readReg_whole (hm : s.mayRead req rg o (h.base - rg.base o) = true) (hk : accessKind h a size = 1) :
    s.readReg req a size = ((Claims.heard s req).clearRead h, (Claims.heard s req).hitValue h) := by
  have hm' : (Claims.heard s req).mayRead req rg o (h.base - rg.base o) = true := hm
  rw [readReg, hr, readHit, hf, dropHalves_none]
  dsimp only [Option.or]
  rw [hk, hm']
  rfl

/-- A read of a low half captures the high half (R9). -/
theorem readReg_lowHalf (hm : s.mayRead req rg o (h.base - rg.base o) = true) (hk : accessKind h a size = 2) :
    s.readReg req a size = ((Claims.heard s req).putHalf req h.base true (((Claims.heard s req).hitValue h >>> 32).setWidth 32),
      (Claims.heard s req).hitValue h &&& 0xFFFFFFFF) := by
  have hm' : (Claims.heard s req).mayRead req rg o (h.base - rg.base o) = true := hm
  rw [readReg, hr, readHit, hf, dropHalves_none]
  dsimp only [Option.or]
  rw [hk, hm']
  rfl

/-- A read of a high half returns what was captured (R9). -/
theorem readReg_highHalf {cap : W32} (hm : s.mayRead req rg o (h.base - rg.base o) = true) (hk : accessKind h a size = 3)
    (hcap : s.half req h.base true = some cap) : s.readReg req a size = (Claims.heard s req, cap.setWidth 64) := by
  have hm' : (Claims.heard s req).mayRead req rg o (h.base - rg.base o) = true := hm
  rw [readReg, hr, readHit, hf, dropHalves_none]
  dsimp only [Option.or]
  rw [hk, hcap, hm']
  rfl

end Met

/-! ### Registers of a core -/

/-- The register of core c that the first copy of a row is. -/
def coreHit (r : RegRow) (c : Nat) : RegHit := ⟨r, c, 0, cA c r.off⟩

theorem findReg_core {r : RegRow} {c off : Nat} (hc : c < 1024) (ho : off < 0x10000) (hl : lookup .core off = some (r, 0)) :
    findReg (cA c off) = some (coreHit r c) := by
  rw [findReg_of_region (regionOf_core hc ho), hl]
  simp [coreHit, cA, Region.base]

theorem cA_add (c off n : Nat) : cA c off + n = cA c (off + n) := Nat.add_assoc ..

theorem toNat_cA {c off : Nat} (hc : c < 1024) (ho : off < 0x10000) : (BitVec.ofNat 46 (cA c off)).toNat = cA c off := by
  rw [BitVec.toNat_ofNat]
  exact Nat.mod_eq_of_lt (by unfold cA coreBase; omega)

/-- A core's registers are reached together. -/
theorem accessible_core {s : State} {req : Requester} {c off off' : Nat} (hc : c < 1024) (ho : off < 0x10000) (ho' : off' < 0x10000) :
    s.accessible req (cA c off) = s.accessible req (cA c off') := by
  simp only [accessible, regRuns, regionOf_core hc ho, regionOf_core hc ho']

/-- A write at a core's block, but for its debugger's control register, is a register write alone. -/
theorem exec_registerWrite_core {s : State} {req : Requester} {c off size : Nat} {v : W64} (hc : c < 1024) (ho : off < 0x10000)
    (hoff : off ≠ CDBG_CONTROL) :
    exec (.registerWrite req (BitVec.ofNat 46 (cA c off)) size v) s = s.command req (cA c off) size v := by
  rw [exec_registerWrite, toNat_cA hc ho]
  · rw [toNat_cA hc ho]
    refine stepAsked_eq_none fun _ d hd => hoff ?_
    rw [regionOf_core hc ho] at hd
    cases hd
    rfl
  · rw [toNat_cA hc ho]
    exact goAsked_eq_false fun _ => by unfold cA coreBase pA pkgBase; omega

/-- A write of a core's register that has no action of its own sets its fields and withdraws what it clears (R11, R412). -/
theorem act_coreHit {s : State} {r : RegRow} {c : Nat} (v mask : W64) (e : Env) (hreg : r.region = .core)
    (hpow : 2 ≤ (s.core c).power) (hact : ∀ w, s.actCore (coreHit r c) w = none) :
    s.act (coreHit r c) v mask e = (s.setReg (cA c r.off) (r.written (s.reg (cA c r.off)) v mask)).withdrawals c r.off
      (s.reg (cA c r.off)) (r.written (s.reg (cA c r.off)) v mask) := by
  have hbase : cA c r.off - coreBase c = r.off := Nat.add_sub_cancel_left ..
  have hon : ¬ (s.core c).power = 0 := by omega
  unfold act
  dsimp only
  rw [hact, Option.getD_none]
  simp only [coreHit, hreg, hon, if_false, hbase]

theorem coreHit_offset (r : RegRow) (c : Nat) : (coreHit r c).base - Region.core.base c = r.off := Nat.add_sub_cancel_left ..

/-! ### ICC_ENABLE: 64 bits, RW but for the reserved bit 0 -/

/-- Its row in the map of registers. -/
def iccEnableRow : RegRow := ⟨.core, ICC_ENABLE, 1, 0, true, false, [⟨63, 1, .rw, .num 0x7fff8000000003ff⟩]⟩

theorem getLsbD_iccEnable_written (old v mask : W64) (i : Nat) : (iccEnableRow.written old v mask).getLsbD i
    = if (span 63 1).getLsbD i && mask.getLsbD i then v.getLsbD i else old.getLsbD i := by
  rw [RegRow.written_eq]
  exact getLsbD_rw_written (f := ⟨63, 1, .rw, _⟩) rfl v mask old i

theorem iccEnable_written_whole {old v : W64} (hv : v.getLsbD 0 = false) :
    iccEnableRow.written old v (~~~0) = v ||| (old &&& 1) := by
  apply BitVec.eq_of_getLsbD_eq
  intro i hi
  rw [getLsbD_iccEnable_written, BitVec.getLsbD_or, BitVec.getLsbD_and, show (1 : W64) = span 0 0 by decide,
    show (~~~0 : W64) = span 63 0 by decide, getLsbD_span, getLsbD_span, getLsbD_span]
  by_cases h0 : i = 0
  · subst h0; rw [hv]; simp
  · have h1 : 1 ≤ i := by omega
    simp [hi, h0, h1]

theorem iccEnable_written_high (old v : W64) :
    iccEnableRow.written old (v <<< 32) (span 63 32) = (old &&& span 31 0) ||| (v <<< 32) := by
  apply BitVec.eq_of_getLsbD_eq
  intro i hi
  rw [getLsbD_iccEnable_written, BitVec.getLsbD_or, BitVec.getLsbD_and, getLsbD_span, getLsbD_span, getLsbD_span,
    BitVec.getLsbD_shiftLeft]
  by_cases h32 : i < 32
  · simp [hi, h32]
  · have h1 : 1 ≤ i := by omega
    simp [hi, h32, h1, Nat.le_of_not_lt h32]

theorem getLsbD_highHalf_zero (v : W64) : (v <<< 32).getLsbD 0 = false := by simp

theorem iccEnable_fieldMask : iccEnableRow.fieldMask = span 63 1 := by decide

theorem iccEnable_accepts {v mask : W64} (hv : v.getLsbD 0 = false) : iccEnableRow.reservedSet v mask = false := by
  refine reservedSet_eq_false fun i hvi _ => ?_
  have hi : i < 64 := BitVec.lt_of_getLsbD hvi
  have h0 : i ≠ 0 := by rintro rfl; rw [hv] at hvi; cases hvi
  rw [iccEnable_fieldMask, getLsbD_span]
  simp only [Bool.and_eq_true, decide_eq_true_eq]
  omega

theorem iccEnable_refuses {v : W64} (hv : v.getLsbD 0 = true) : iccEnableRow.reservedSet v (~~~0) = true :=
  reservedSet_eq_true 0 (by decide) hv (by decide) (by decide)

theorem withdrawals_iccEnable (s : State) (c : Nat) (old new : W64) : s.withdrawals c ICC_ENABLE old new = s := by
  simp [withdrawals, show ICC_ENABLE ≠ ENG0_FAULT + 0x800 by decide]

theorem act_iccEnable {s : State} {c : Nat} (v mask : W64) (e : Env) (hpow : 2 ≤ (s.core c).power) :
    s.act (coreHit iccEnableRow c) v mask e
      = s.setReg (cA c ICC_ENABLE) (iccEnableRow.written (s.reg (cA c ICC_ENABLE)) v mask) := by
  rw [act_coreHit v mask e rfl hpow fun _ => rfl]
  exact withdrawals_iccEnable ..

section IccEnable

variable {s : State} {req : Requester} {c : Nat} (hc : c < 1024)

include hc

theorem regionOf_iccEnable : regionOf (cA c ICC_ENABLE) = some (.core, c, ICC_ENABLE) := regionOf_core hc (by decide)

theorem regionOf_iccEnable_high : regionOf (cA c (ICC_ENABLE + 4)) = some (.core, c, ICC_ENABLE + 4) :=
  regionOf_core hc (by decide)

theorem findReg_iccEnable : findReg (cA c ICC_ENABLE) = some (coreHit iccEnableRow c) :=
  findReg_core hc (by decide) (by decide +kernel)

theorem findReg_iccEnable_high : findReg (cA c (ICC_ENABLE + 4)) = some (coreHit iccEnableRow c) :=
  findReg_core hc (by decide) (by decide +kernel)

omit hc in
theorem accessKind_iccEnable : accessKind (coreHit iccEnableRow c) (cA c ICC_ENABLE) 8 = 1 ∧
    accessKind (coreHit iccEnableRow c) (cA c ICC_ENABLE) 4 = 2 ∧
    accessKind (coreHit iccEnableRow c) (cA c (ICC_ENABLE + 4)) 4 = 3 := by
  simp [accessKind, coreHit, iccEnableRow, cA, Nat.add_assoc]

theorem registerWrite_iccEnable_whole (hpow : 2 ≤ (s.core c).power) (h : Claims.Admitted s req (cA c ICC_ENABLE)) {v : W64}
    (hv : v.getLsbD 0 = false) : exec (.registerWrite req (BitVec.ofNat 46 (cA c ICC_ENABLE)) 8 v) s
      = .next ((Claims.heard s req).setReg (cA c ICC_ENABLE) (v ||| (s.reg (cA c ICC_ENABLE) &&& 1))) := by
  have hm := mayWrite_of_admitted h (regionOf_iccEnable hc)
  rw [exec_registerWrite_core hc (by decide) (by decide), command_whole (size := 8) (value := v) h.1 (regionOf_iccEnable hc)
    (findReg_iccEnable hc) accessKind_iccEnable.1 (coreHit_offset iccEnableRow c ▸ hm) (iccEnable_accepts hv), dropHalves_none,
    act_iccEnable (s := Claims.heard s req) _ _ _ hpow]
  exact congrArg (fun w => Host.Outcome.next ((Claims.heard s req).setReg (cA c ICC_ENABLE) w)) (iccEnable_written_whole hv)

theorem registerWrite_iccEnable_reserved (h : Claims.Admitted s req (cA c ICC_ENABLE)) {v : W64} (hv : v.getLsbD 0 = true) :
    exec (.registerWrite req (BitVec.ofNat 46 (cA c ICC_ENABLE)) 8 v) s = .fault .reservedFieldWritten := by
  have hm := mayWrite_of_admitted h (regionOf_iccEnable hc)
  rw [exec_registerWrite_core hc (by decide) (by decide)]
  exact command_whole_reserved (regionOf_iccEnable hc) (findReg_iccEnable hc) h.1 (coreHit_offset iccEnableRow c ▸ hm)
    accessKind_iccEnable.1 (iccEnable_refuses hv)

theorem registerWrite_iccEnable_low (h : Claims.Admitted s req (cA c ICC_ENABLE)) {v : W64} (hv : v.getLsbD 0 = false) :
    exec (.registerWrite req (BitVec.ofNat 46 (cA c ICC_ENABLE)) 4 v) s
      = .next ((Claims.heard s req).putHalf req (cA c ICC_ENABLE) false (v.setWidth 32)) := by
  have hm := mayWrite_of_admitted h (regionOf_iccEnable hc)
  have hlow : (v &&& 0xFFFFFFFF).getLsbD 0 = false := by rw [BitVec.getLsbD_and, hv, Bool.false_and]
  rw [exec_registerWrite_core hc (by decide) (by decide), command_lowHalf (regionOf_iccEnable hc) (findReg_iccEnable hc) h.1
    (coreHit_offset iccEnableRow c ▸ hm) accessKind_iccEnable.2.1 (iccEnable_accepts hlow),
    show (v &&& 0xFFFFFFFF).setWidth 32 = v.setWidth 32 by rw [BitVec.setWidth_and]; exact BitVec.and_allOnes]
  rfl

theorem registerWrite_iccEnable_high_held (hpow : 2 ≤ (s.core c).power) (h : Claims.Admitted s req (cA c ICC_ENABLE)) {v : W64}
    {low : W32} (hheld : Claims.holds s req (cA c ICC_ENABLE) false low) (hlow : low.getLsbD 0 = false) :
    exec (.registerWrite req (BitVec.ofNat 46 (cA c (ICC_ENABLE + 4))) 4 v) s
      = .next ((Claims.heard s req).setReg (cA c ICC_ENABLE)
          ((low.setWidth 64 ||| (v <<< 32)) ||| (s.reg (cA c ICC_ENABLE) &&& 1))) := by
  have hm := mayWrite_of_admitted h (regionOf_iccEnable hc)
  have hv : (v <<< 32 ||| low.setWidth 64).getLsbD 0 = false := by
    rw [BitVec.getLsbD_or, getLsbD_highHalf_zero, BitVec.getLsbD_setWidth, hlow, Bool.and_false, Bool.or_false]
  have hacc := h.1
  rw [accessible_core (off' := ICC_ENABLE + 4) hc (by decide) (by decide)] at hacc
  rw [exec_registerWrite_core hc (by decide) (by decide), command_highHalf (regionOf_iccEnable_high hc)
    (findReg_iccEnable_high hc) hacc (coreHit_offset iccEnableRow c ▸ hm) accessKind_iccEnable.2.2
    (iccEnable_accepts (getLsbD_highHalf_zero v)),
    show s.half req (coreHit iccEnableRow c).base false = _ from half_of_holds hheld, Option.elim,
    act_iccEnable (s := Claims.heard s req) _ _ _ hpow, iccEnable_written_whole hv, BitVec.or_comm (v <<< 32)]
  rfl

theorem registerWrite_iccEnable_high_alone (hpow : 2 ≤ (s.core c).power) (h : Claims.Admitted s req (cA c ICC_ENABLE)) {v : W64}
    (halone : Claims.NoHalf s req) :
    exec (.registerWrite req (BitVec.ofNat 46 (cA c (ICC_ENABLE + 4))) 4 v) s
      = .next ((Claims.heard s req).setReg (cA c ICC_ENABLE) ((s.reg (cA c ICC_ENABLE) &&& span 31 0) ||| (v <<< 32))) := by
  have hm := mayWrite_of_admitted h (regionOf_iccEnable hc)
  have hacc := h.1
  rw [accessible_core (off' := ICC_ENABLE + 4) hc (by decide) (by decide)] at hacc
  rw [exec_registerWrite_core hc (by decide) (by decide), command_highHalf (regionOf_iccEnable_high hc)
    (findReg_iccEnable_high hc) hacc (coreHit_offset iccEnableRow c ▸ hm) accessKind_iccEnable.2.2
    (iccEnable_accepts (getLsbD_highHalf_zero v)), half_of_noHalf halone, Option.elim, act_iccEnable (s := Claims.heard s req) _ _ _ hpow,
    show (0xFFFFFFFF00000000 : W64) = span 63 32 by decide, iccEnable_written_high]
  rfl

theorem hitValue_iccEnable (hpow : 2 ≤ (s.core c).power) : s.hitValue (coreHit iccEnableRow c) = s.reg (cA c ICC_ENABLE) := by
  have hon : ¬ (s.core c).power = 0 := by omega
  have hshow : s.show_ (coreHit iccEnableRow c) = s.reg (cA c ICC_ENABLE) := by
    unfold show_
    simp [coreHit, iccEnableRow, hon, coreView]
  rw [hitValue, show (coreHit iccEnableRow c).base = cA c ICC_ENABLE from rfl, findReg_iccEnable hc, Option.isSome_some, if_pos rfl, hshow]
  rfl

omit hc in
theorem clearRead_iccEnable : s.clearRead (coreHit iccEnableRow c) = s := rfl

theorem readReg_iccEnable_whole (hpow : 2 ≤ (s.core c).power) (h : Claims.Readable s req (cA c ICC_ENABLE)) :
    s.readReg req (cA c ICC_ENABLE) 8 = (Claims.heard s req, s.reg (cA c ICC_ENABLE)) := by
  have hm := mayRead_of_readable h (regionOf_iccEnable hc)
  rw [readReg_whole (regionOf_iccEnable hc) (findReg_iccEnable hc) (coreHit_offset iccEnableRow c ▸ hm) accessKind_iccEnable.1,
    hitValue_iccEnable (s := Claims.heard s req) hc hpow]
  rfl

theorem readReg_iccEnable_low (hpow : 2 ≤ (s.core c).power) (h : Claims.Readable s req (cA c ICC_ENABLE)) :
    s.readReg req (cA c ICC_ENABLE) 4 = ((Claims.heard s req).putHalf req (cA c ICC_ENABLE) true
      ((s.reg (cA c ICC_ENABLE) >>> 32).setWidth 32), s.reg (cA c ICC_ENABLE) &&& 0xFFFFFFFF) := by
  have hm := mayRead_of_readable h (regionOf_iccEnable hc)
  rw [readReg_lowHalf (regionOf_iccEnable hc) (findReg_iccEnable hc) (coreHit_offset iccEnableRow c ▸ hm)
    accessKind_iccEnable.2.1, hitValue_iccEnable (s := Claims.heard s req) hc hpow]
  rfl

theorem readReg_iccEnable_high (h : Claims.Readable s req (cA c ICC_ENABLE)) {cap : W32}
    (hcap : Claims.holds s req (cA c ICC_ENABLE) true cap) :
    s.readReg req (cA c (ICC_ENABLE + 4)) 4 = (Claims.heard s req, cap.setWidth 64) :=
  readReg_highHalf (regionOf_iccEnable_high hc) (findReg_iccEnable_high hc)
    (coreHit_offset iccEnableRow c ▸ mayRead_of_readable h (regionOf_iccEnable hc)) accessKind_iccEnable.2.2 (half_of_holds hcap)

end IccEnable

/-- The clauses of writes of ICC_ENABLE, whole and by halves. -/
theorem iccEnable_takes_writes {s : State} {req : Requester} {c : Nat} (hc : c < 1024) (hpow : 2 ≤ (s.core c).power)
    (h : Claims.Admitted s req (cA c ICC_ENABLE)) (v : W64) :
    (v.getLsbD 0 = false → Answers (.registerWrite req (BitVec.ofNat 46 (cA c ICC_ENABLE)) 8 v) s fun t =>
      t.reg (cA c ICC_ENABLE) = v ||| (s.reg (cA c ICC_ENABLE) &&& 1) ∧ (∀ x, x ≠ cA c ICC_ENABLE → t.reg x = s.reg x) ∧
        { t with regs := s.regs, halves := s.halves } = s) ∧
    (v.getLsbD 0 = true → exec (.registerWrite req (BitVec.ofNat 46 (cA c ICC_ENABLE)) 8 v) s = .fault .reservedFieldWritten) ∧
    (v.getLsbD 0 = false → Answers (.registerWrite req (BitVec.ofNat 46 (cA c ICC_ENABLE)) 4 v) s fun t =>
      Claims.holds t req (cA c ICC_ENABLE) false (v.setWidth 32) ∧ t.regs = s.regs ∧ { t with halves := s.halves } = s) ∧
    (∀ low : W32, Claims.holds s req (cA c ICC_ENABLE) false low → low.getLsbD 0 = false →
      Answers (.registerWrite req (BitVec.ofNat 46 (cA c ICC_ENABLE + 4)) 4 v) s fun t =>
        t.reg (cA c ICC_ENABLE) = (low.setWidth 64 ||| (v <<< 32)) ||| (s.reg (cA c ICC_ENABLE) &&& 1) ∧ Claims.NoHalf t req ∧
          t.cores = s.cores) ∧
    (Claims.NoHalf s req → Answers (.registerWrite req (BitVec.ofNat 46 (cA c ICC_ENABLE + 4)) 4 v) s fun t =>
      t.reg (cA c ICC_ENABLE) = (s.reg (cA c ICC_ENABLE) &&& 0xFFFFFFFF) ||| (v <<< 32) ∧ Claims.NoHalf t req ∧
        t.cores = s.cores) := by
  rw [cA_add]
  refine ⟨fun hv => ⟨_, registerWrite_iccEnable_whole hc hpow h hv, ?_, fun x hx => ?_, heard_setReg_frame ..⟩,
    registerWrite_iccEnable_reserved hc h,
    fun hv => ⟨_, registerWrite_iccEnable_low hc h hv, holds_putHalf_heard .., rfl, rfl⟩,
    fun low hheld hlow => ⟨_, registerWrite_iccEnable_high_held hc hpow h hheld hlow, ?_, noHalf_heard_setReg s req _ _,
      setReg_cores ..⟩,
    fun halone => ⟨_, registerWrite_iccEnable_high_alone hc hpow h halone, ?_, noHalf_heard_setReg s req _ _, setReg_cores ..⟩⟩
  · rw [reg_setReg, if_pos rfl]
  · rw [reg_setReg, if_neg hx]; rfl
  · rw [reg_setReg, if_pos rfl]
  · rw [reg_setReg, if_pos rfl]
    exact congrArg (fun m => (s.reg (cA c ICC_ENABLE) &&& m) ||| (v <<< 32)) (by decide : span 31 0 = 0xFFFFFFFF)

/-- The clauses of reads of ICC_ENABLE, whole and by halves. -/
theorem iccEnable_answers_reads {s : State} {req : Requester} {c : Nat} (hc : c < 1024) (hpow : 2 ≤ (s.core c).power)
    (h : Claims.Readable s req (cA c ICC_ENABLE)) (tag : Nat) :
    Answers (.registerRead req tag (BitVec.ofNat 46 (cA c ICC_ENABLE)) 8) s (fun t =>
      Claims.Told s t req tag (leBytes 8 (s.reg (cA c ICC_ENABLE)).toNat) ∧ t.regs = s.regs) ∧
    Answers (.registerRead req tag (BitVec.ofNat 46 (cA c ICC_ENABLE)) 4) s (fun t =>
      Claims.Told s t req tag (leBytes 4 (s.reg (cA c ICC_ENABLE)).toNat) ∧ t.regs = s.regs ∧
        Claims.holds t req (cA c ICC_ENABLE) true ((s.reg (cA c ICC_ENABLE) >>> 32).setWidth 32)) ∧
    ∀ cap : W32, Claims.holds s req (cA c ICC_ENABLE) true cap →
      Answers (.registerRead req tag (BitVec.ofNat 46 (cA c ICC_ENABLE + 4)) 4) s fun t =>
        Claims.Told s t req tag (leBytes 4 cap.toNat) ∧ t.regs = s.regs ∧ Claims.NoHalf t req := by
  have hlow : (BitVec.ofNat 46 (cA c ICC_ENABLE)).toNat = cA c ICC_ENABLE := toNat_cA hc (by decide)
  have hhigh : (BitVec.ofNat 46 (cA c (ICC_ENABLE + 4))).toNat = cA c (ICC_ENABLE + 4) := toNat_cA hc (by decide)
  have hacc : s.accessible req (cA c (ICC_ENABLE + 4)) = true := by
    rw [accessible_core (off' := ICC_ENABLE) hc (by decide) (by decide)]
    exact h.1
  rw [cA_add]
  refine ⟨answers_registerRead hlow h.1 (readReg_iccEnable_whole hc hpow h) rfl fun t told hregs _ => ⟨told, hregs⟩,
    answers_registerRead hlow h.1 (readReg_iccEnable_low hc hpow h) rfl fun t told hregs hhalves =>
      ⟨?_, hregs, ?_⟩,
    fun cap hcap => answers_registerRead hhigh hacc (readReg_iccEnable_high hc h hcap) rfl
      fun t told hregs hhalves => ⟨?_, hregs, ?_⟩⟩
  · rwa [leBytes_lowHalf] at told
  · unfold Claims.holds
    rw [hhalves]
    exact holds_putHalf_heard s req _ true _
  · rwa [BitVec.toNat_setWidth_of_le (by decide)] at told
  · unfold Claims.NoHalf
    rw [hhalves]
    exact noHalf_heard s req

/-! ### CORE_SP_STARVE: the limit RW, the hit bit W1C -/

/-- Its row in the map of registers. -/
def spStarveRow : RegRow := ⟨.core, CORE_SP_STARVE, 1, 0, false, false, [⟨16, 16, .w1c, .num 0⟩, ⟨15, 0, .rw, .num 0x1000⟩]⟩

theorem findReg_spStarve {c : Nat} (hc : c < 1024) : findReg (cA c CORE_SP_STARVE) = some (coreHit spStarveRow c) :=
  findReg_core hc (by decide) (by decide +kernel)

theorem spStarve_written (old v mask : W64) : spStarveRow.written old v mask
    = RegField.written ⟨15, 0, .rw, .num 0x1000⟩ v mask (RegField.written ⟨16, 16, .w1c, .num 0⟩ v mask old) :=
  spStarveRow.written_eq old v mask

/-- What a write of four bytes gives CORE_SP_STARVE. -/
def spStarveNew (old v : W64) : W64 := spStarveRow.written old (v &&& 0xFFFFFFFF) 0xFFFFFFFF

theorem getLsbD_word (i : Nat) : (0xFFFFFFFF : W64).getLsbD i = decide (i < 32) := by
  rw [show (0xFFFFFFFF : W64) = span 31 0 by decide, getLsbD_span, ← Bool.decide_and]
  exact decide_eq_decide.mpr ⟨fun h => by omega, fun h => by omega⟩

theorem getLsbD_spStarveNew_limit (old v : W64) {i : Nat} (hi : i < 16) : (spStarveNew old v).getLsbD i = v.getLsbD i := by
  have h32 : i < 32 := by omega
  have h64 : i < 64 := by omega
  rw [spStarveNew, spStarve_written, getLsbD_rw_written rfl, getLsbD_span, getLsbD_word, BitVec.getLsbD_and, getLsbD_word]
  simp [hi, h32, h64]

theorem getLsbD_spStarveNew_hit (old v : W64) : (spStarveNew old v).getLsbD 16 = (old.getLsbD 16 && !v.getLsbD 16) := by
  rw [spStarveNew, spStarve_written, getLsbD_rw_written rfl, getLsbD_w1c_written rfl, getLsbD_span, getLsbD_span, getLsbD_word,
    BitVec.getLsbD_and, getLsbD_word]
  simp

theorem bits_spStarveNew_limit (old v : W64) : bits (spStarveNew old v) 15 0 = v.toNat % 65536 := by
  apply Nat.eq_of_testBit_eq
  intro i
  rw [testBit_bits, show 65536 = 2 ^ 16 by decide, Nat.testBit_mod_two_pow, Nat.zero_add]
  by_cases hi : i < 16
  · rw [getLsbD_spStarveNew_limit old v hi]; rfl
  · simp [hi]

theorem spStarve_accepts {v : W64} (hv : v &&& 0xFFFE0000 = 0) :
    spStarveRow.reservedSet (v &&& 0xFFFFFFFF) 0xFFFFFFFF = false := by
  refine reservedSet_eq_false fun i hvi hmi => ?_
  rw [BitVec.getLsbD_and, Bool.and_eq_true] at hvi
  rw [getLsbD_word, decide_eq_true_eq] at hmi
  have hzero := congrArg (fun x : W64 => x.getLsbD i) hv
  have hbits : (0xFFFE0000 : W64) = span 31 17 := by decide
  have hmask : spStarveRow.fieldMask = span 16 0 := by decide
  simp only [hbits, BitVec.getLsbD_and, hvi.1, getLsbD_span] at hzero
  have hi : i < 17 := by
    by_contra hge
    have hreserved : 17 ≤ i ∧ i < 17 + (31 - 17 + 1) := by omega
    have h64 : i < 64 := by omega
    simp [hreserved, h64] at hzero
  rw [hmask, getLsbD_span]
  simp only [Bool.and_eq_true, decide_eq_true_eq]
  omega

theorem withdrawals_spStarve (s : State) (c : Nat) (old new : W64) : s.withdrawals c CORE_SP_STARVE old new
    = if old.getLsbD 16 && !new.getLsbD 16 then s.withdrawCore c 5 else s := by
  simp [withdrawals, show CORE_SP_STARVE ≠ ENG0_FAULT + 0x800 by decide]

theorem registerWrite_spStarve {s : State} {req : Requester} {c : Nat} (hc : c < 1024) (hpow : 2 ≤ (s.core c).power)
    (h : Claims.Admitted s req (cA c CORE_SP_STARVE)) {v : W64} (hv : v &&& 0xFFFE0000 = 0) :
    exec (.registerWrite req (BitVec.ofNat 46 (cA c CORE_SP_STARVE)) 4 v) s
      = .next (((Claims.heard s req).setReg (cA c CORE_SP_STARVE) (spStarveNew (s.reg (cA c CORE_SP_STARVE)) v)).withdrawals c
          CORE_SP_STARVE (s.reg (cA c CORE_SP_STARVE)) (spStarveNew (s.reg (cA c CORE_SP_STARVE)) v)) := by
  have hr := regionOf_core (off := CORE_SP_STARVE) hc (by decide)
  have hm := mayWrite_of_admitted h hr
  have hk : accessKind (coreHit spStarveRow c) (cA c CORE_SP_STARVE) 4 = 1 := by simp [accessKind, coreHit, spStarveRow]
  rw [exec_registerWrite_core hc (by decide) (by decide), command_whole (size := 4) (value := v) h.1 hr (findReg_spStarve hc) hk
    (coreHit_offset spStarveRow c ▸ hm) (spStarve_accepts hv), dropHalves_none]
  exact congrArg _ (act_coreHit (s := Claims.heard s req) _ _ _ rfl hpow fun _ => rfl)

/-- The clauses of a write of CORE_SP_STARVE. -/
theorem spStarve_takes_writes {s : State} {req : Requester} {c : Nat} (hc : c < 1024) (hpow : 2 ≤ (s.core c).power)
    (h : Claims.Admitted s req (cA c CORE_SP_STARVE)) (v : W64) (hv : v &&& 0xFFFE0000 = 0) :
    Answers (.registerWrite req (BitVec.ofNat 46 (cA c CORE_SP_STARVE)) 4 v) s fun t =>
      t.fld (cA c CORE_SP_STARVE) 15 0 = v.toNat % 65536 ∧
        t.bit (cA c CORE_SP_STARVE) 16 = (s.bit (cA c CORE_SP_STARVE) 16 && !v.getLsbD 16) ∧ t.mem = s.mem ∧ t.cores = s.cores ∧
        t.net = s.net ∧
        (s.bit (cA c CORE_SP_STARVE) 16 = true → v.getLsbD 16 = true → t.bit (cA c ICC_PENDING) 5 = false) := by
  refine ⟨_, registerWrite_spStarve hc hpow h hv, ?_⟩
  generalize hnew : spStarveNew (s.reg (cA c CORE_SP_STARVE)) v = new
  have hlimit : bits new 15 0 = v.toNat % 65536 := hnew ▸ bits_spStarveNew_limit _ v
  have hhit : new.getLsbD 16 = (s.bit (cA c CORE_SP_STARVE) 16 && !v.getLsbD 16) := by
    rw [← hnew, getLsbD_spStarveNew_hit, bit_eq]
  have hapart : cA c CORE_SP_STARVE ≠ cA c ICC_PENDING := fun heq => absurd (Nat.add_left_cancel heq) (by decide)
  have hput : ((Claims.heard s req).setReg (cA c CORE_SP_STARVE) new).reg (cA c CORE_SP_STARVE) = new := by
    rw [reg_setReg, if_pos rfl]
  rw [withdrawals_spStarve]
  split
  · next hgone =>
    have hkept : (((Claims.heard s req).setReg (cA c CORE_SP_STARVE) new).withdrawCore c 5).reg (cA c CORE_SP_STARVE) = new := by
      rw [withdrawCore, reg_setBit, if_neg hapart, hput]
    refine ⟨by rw [fld, hkept, hlimit], by rw [bit_eq, hkept, hhit], setBit_mem .., setBit_cores .., setBit_net .., fun _ _ => ?_⟩
    rw [withdrawCore, bit_setBit _ _ _ _ _ _ (by decide), if_pos ⟨rfl, rfl⟩]
  · next hstays =>
    refine ⟨by rw [fld, hput, hlimit], by rw [bit_eq, hput, hhit], rfl, rfl, rfl, fun hs hv16 => ?_⟩
    rw [hhit, hv16, ← bit_eq, hs] at hstays
    exact absurd rfl hstays

/-! ### EVT_DROPPED: RC -/

/-- The register as its address finds it. -/
def evtDroppedHit : RegHit := ⟨⟨.package, EVT_DROPPED, 1, 0, false, false, [⟨31, 0, .rc, .num 0⟩]⟩, 0, 0, pA EVT_DROPPED⟩

theorem regionOf_evtDropped : regionOf (pA EVT_DROPPED) = some (.package, 0, EVT_DROPPED) := regionOf_package (by decide)

theorem findReg_evtDropped : findReg (pA EVT_DROPPED) = some evtDroppedHit := by decide +kernel

theorem hitValue_evtDropped (s : State) : s.hitValue evtDroppedHit = s.reg (pA EVT_DROPPED) := by
  have hshow : s.show_ evtDroppedHit = s.reg (pA EVT_DROPPED) := by
    unfold show_
    simp [evtDroppedHit, pkgView]
  rw [hitValue, show evtDroppedHit.base = pA EVT_DROPPED from rfl, findReg_evtDropped, Option.isSome_some, if_pos rfl, hshow]
  rfl

/-- A read clears what it returned (R11). -/
theorem clearRead_evtDropped (s : State) :
    s.clearRead evtDroppedHit = s.setReg (pA EVT_DROPPED) (s.reg (pA EVT_DROPPED) &&& ~~~span 31 0) := rfl

theorem bits_clear_word (v : W64) : bits (v &&& ~~~span 31 0) 31 0 = 0 := by
  apply Nat.eq_of_testBit_eq
  intro i
  rw [testBit_bits, Nat.zero_testBit, Nat.zero_add, BitVec.getLsbD_and, BitVec.getLsbD_not, getLsbD_span]
  by_cases hi : i < 32
  · have h64 : i < 64 := by omega
    simp [hi, h64]
  · simp [hi]

theorem readReg_evtDropped {s : State} {req : Requester} (h : Claims.Readable s req (pA EVT_DROPPED)) :
    s.readReg req (pA EVT_DROPPED) 4 = ((Claims.heard s req).setReg (pA EVT_DROPPED) (s.reg (pA EVT_DROPPED) &&& ~~~span 31 0),
      s.reg (pA EVT_DROPPED)) := by
  rw [readReg_whole regionOf_evtDropped findReg_evtDropped (mayRead_of_readable h regionOf_evtDropped)
    (by simp [accessKind, evtDroppedHit]), clearRead_evtDropped, hitValue_evtDropped]
  rfl

/-- The clause of a read of EVT_DROPPED. -/
theorem evtDropped_clears_on_read {s : State} {req : Requester} (h : Claims.Readable s req (pA EVT_DROPPED)) (tag : Nat) :
    Answers (.registerRead req tag (BitVec.ofNat 46 (pA EVT_DROPPED)) 4) s fun t =>
      Claims.Told s t req tag (leBytes 4 (s.reg (pA EVT_DROPPED)).toNat) ∧ t.fld (pA EVT_DROPPED) 31 0 = 0 ∧
        ∀ x, x ≠ pA EVT_DROPPED → t.reg x = s.reg x := by
  have hto : (BitVec.ofNat 46 (pA EVT_DROPPED)).toNat = pA EVT_DROPPED := by decide
  refine answers_registerRead hto h.1 (readReg_evtDropped h) (heard_setReg_frame ..) fun t told hregs _ => ?_
  have hreg (x : Nat) : t.reg x = if x = pA EVT_DROPPED then s.reg (pA EVT_DROPPED) &&& ~~~span 31 0 else s.reg x := by
    rw [reg, hregs]
    exact reg_setReg (Claims.heard s req) ..
  refine ⟨told, ?_, fun x hx => ?_⟩
  · rw [fld, hreg, if_pos rfl, bits_clear_word]
  · rw [hreg, if_neg hx]

/-! ### The statement -/

/-- Settles O44, from what an access that meets no register does, and from the clauses of the register of each access code. -/
theorem registersTakeTheirAccesses : Obligations.RegistersTakeTheirAccesses := by
  intro req c s
  refine ⟨fun a size v tag hacc hunmet => ⟨registerWrite_unmet v hacc hunmet, registerRead_unmet tag hacc hunmet⟩,
    fun hpow => ⟨fun h v => iccEnable_takes_writes c.isLt hpow h v, fun h tag => iccEnable_answers_reads c.isLt hpow h tag⟩,
    fun h hpow v hv => spStarve_takes_writes c.isLt hpow h v hv, fun h tag => evtDropped_clears_on_read h tag⟩

end Sys2Proof.Machine
end

section
/-! SUPPORT. The control core's arithmetic (R106 to R108): what each command runs, said in integers, and what an illegal form comes
to. -/

namespace Sys2Proof.Machine

/-! ### Forms -/

theorem form_legal {s : State} {c : Nat} (h : Ready s c) {legal : Bool} (hl : legal = true) (w : W32) (f : State → State) :
    s.form c legal w f = f s := by rw [form_ready s h, if_pos hl]

/-- An illegal form traps with cause 1 (R106). -/
theorem trapped_illegal {s : State} {c : Nat} (h : Ready s c) {legal : Bool} (hl : legal = false) (w : W32) (f : State → State) :
    Trapped c 1 (w.setWidth 64) s (s.form c legal w f) := by
  rw [form_ready s h, hl]
  exact trapped_trap s c 1 _

/-- A legal form that writes a result. -/
theorem completed_form {s : State} {c : Nat} (h : Ready s c) {legal : Bool} (hl : legal = true) (w : W32) {f : State → State}
    {rd : BitVec 5} {v : W64} (hf : f s = s.result c rd v) : Completed c rd v (s.nextPc c) s (s.form c legal w f) := by
  rw [form_legal h hl, hf]
  exact completed_result s c rd v

theorem completed_alu {s : State} {c : Nat} (h : Ready s c) (rd ra rb : BitVec 5) (f : W64 → W64 → W64) :
    Completed c rd (f (s.gpr c ra) (s.gpr c rb)) (s.nextPc c) s (s.alu c rd ra rb f) := by
  rw [State.alu, instr_ready s h]
  exact completed_result s c rd _

theorem completed_alu1 {s : State} {c : Nat} (h : Ready s c) (rd ra : BitVec 5) {rb : BitVec 5} (hrb : rb = 0) (fn : Nat)
    (f : W64 → W64) : Completed c rd (f (s.gpr c ra)) (s.nextPc c) s (s.alu1 c rd ra rb fn f) :=
  completed_form h (beq_iff_eq.mpr hrb) _ rfl

theorem completed_aluI {s : State} {c : Nat} (h : Ready s c) (rd ra : BitVec 5) (f : W64 → W64) :
    Completed c rd (f (s.gpr c ra)) (s.nextPc c) s (s.aluI c rd ra f) := by
  rw [State.aluI, instr_ready s h]
  exact completed_result s c rd _

/-! ### Functions of two registers (R108) -/

theorem add_eq_ofInt (a b : W64) : a + b = BitVec.ofInt 64 (a.toInt + b.toInt) := by
  rw [BitVec.ofInt_add, BitVec.ofInt_toInt, BitVec.ofInt_toInt]

theorem sub_eq_ofInt (a b : W64) : a - b = BitVec.ofInt 64 (a.toInt - b.toInt) := by
  apply BitVec.eq_of_toInt_eq
  rw [BitVec.toInt_sub, BitVec.toInt_ofInt]

theorem mul_eq_ofNat (a b : W64) : a * b = BitVec.ofNat 64 (a.toNat * b.toNat) := by
  rw [BitVec.ofNat_mul, BitVec.ofNat_toNat, BitVec.ofNat_toNat, BitVec.setWidth_eq, BitVec.setWidth_eq]

theorem next_alu_congr {c : CoreId} {rd ra rb : BitVec 5} {f g : W64 → W64 → W64} (hfg : ∀ a b, f a b = g a b) (s : State) :
    (Host.Outcome.next (s.alu c.toNat rd ra rb f) : Host.Outcome State Fault Refusal) = .next (s.alu c.toNat rd ra rb g) := by
  rw [show f = g from funext fun a => funext (hfg a)]

/-- Each command of R108 on two registers is an ALU operation of the function that the table gives it. -/
theorem exec_aluFunctions (c : CoreId) (rd ra rb : BitVec 5) :
    ∀ p ∈ Claims.aluFunctions c rd ra rb, ∀ s, exec p.1 s = .next (s.alu c.toNat rd ra rb p.2) := by
  simp only [Claims.aluFunctions, List.forall_mem_cons]
  exact ⟨next_alu_congr add_eq_ofInt, next_alu_congr sub_eq_ofInt, fun _ => rfl, fun _ => rfl, fun _ => rfl,
    next_alu_congr fun a b => shiftLeft_eq a (shiftCount b), next_alu_congr fun a b => ushiftRight_eq a (shiftCount b),
    next_alu_congr fun a b => sshiftRight_eq a (shiftCount b), fun _ => rfl, fun _ => rfl,
    next_alu_congr min_eq_ofInt, next_alu_congr max_eq_ofInt, next_alu_congr minu_eq_ofNat, next_alu_congr maxu_eq_ofNat,
    next_alu_congr mul_eq_ofNat, next_alu_congr mulHigh_eq, next_alu_congr mulHighU_eq, next_alu_congr divS_eq,
    next_alu_congr divU_eq, next_alu_congr remS_eq, next_alu_congr remU_eq, List.forall_mem_nil _⟩

theorem aluFunctionsWriteTheirResults : Clauses.AluFunctionsWriteTheirResults :=
  fun c rd ra rb s h p hp => ⟨_, exec_aluFunctions c rd ra rb p hp s, completed_alu h rd ra rb p.2⟩

/-! ### Counts of bits (R108) -/

theorem countOnes_eq_setBits (a : W64) : countOnes a = Claims.setBits a := List.countP_eq_length_filter.symm

theorem bitCountsWriteTheirResults : Clauses.BitCountsWriteTheirResults := by
  intro c rd ra rb s h
  refine ⟨fun hrb => ?_, fun hrb => ?_⟩
  · have hdone := completed_alu1 h rd ra hrb
    refine ⟨⟨_, countLeading_spec _, _, rfl, hdone 0x30 fun a => BitVec.ofNat 64 (countLeading a)⟩,
      ⟨_, countTrailing_spec _, _, rfl, hdone 0x31 fun a => BitVec.ofNat 64 (countTrailing a)⟩, _, rfl, ?_⟩
    rw [← countOnes_eq_setBits]
    exact hdone 0x32 fun a => BitVec.ofNat 64 (countOnes a)
  · have hform : (rb == 0) = false := beq_eq_false_iff_ne.mpr hrb
    simp only [List.forall_mem_cons]
    exact ⟨⟨_, rfl, trapped_illegal h hform ..⟩, ⟨_, rfl, trapped_illegal h hform ..⟩, ⟨_, rfl, trapped_illegal h hform ..⟩,
      List.forall_mem_nil _⟩

/-! ### Immediate forms (R107) -/

theorem zext_eq_ofNat (imm : W16) : zext imm = BitVec.ofNat 64 imm.toNat := (BitVec.ofNat_toNat 64 imm).symm

theorem addi_eq_ofInt (imm : W16) (a : W64) : a + sext imm = BitVec.ofInt 64 (a.toInt + imm.toInt) := by
  rw [sext_eq, BitVec.ofInt_add, BitVec.ofInt_toInt]

theorem toInt_sext (imm : W16) : (sext imm).toInt = imm.toInt := BitVec.toInt_signExtend_of_le (by decide)

theorem slti_eq_one (imm : W16) (a : W64) : truth (a.slt (sext imm)) = Claims.one (decide (a.toInt < imm.toInt)) := by
  rw [← toInt_sext imm]; rfl

/-- A register one halfword up, with an immediate below it: the two share no bit. -/
theorem shori_eq_ofNat (imm : W16) (a : W64) : (a <<< 16) ||| zext imm = BitVec.ofNat 64 (a.toNat * 65536 + imm.toNat) := by
  have hdisjoint : (a <<< 16) &&& zext imm = 0#64 := by
    apply BitVec.eq_of_getLsbD_eq
    intro i hi
    by_cases h16 : i < 16
    · simp [h16]
    · simp [zext, BitVec.getLsbD_of_ge imm i (by omega)]
  rw [← BitVec.add_eq_or_of_and_eq_zero _ _ hdisjoint, shiftLeft_eq, zext_eq_ofNat, ← BitVec.ofNat_add]
  rfl

theorem lui_eq_ofInt (imm : W16) : sext imm <<< 16 = BitVec.ofInt 64 (imm.toInt * 65536) := by
  rw [BitVec.shiftLeft_eq_mul_twoPow, sext_eq, BitVec.ofInt_mul]
  rfl

theorem next_aluI_congr {c : CoreId} {rd ra : BitVec 5} {f g : W64 → W64} (hfg : ∀ a, f a = g a) (s : State) :
    (Host.Outcome.next (s.aluI c.toNat rd ra f) : Host.Outcome State Fault Refusal) = .next (s.aluI c.toNat rd ra g) := by
  rw [show f = g from funext hfg]

/-- Each immediate form of R107, shi and lui apart, is an ALU operation of the function that the table gives it. -/
theorem exec_immediateFunctions (c : CoreId) (rd ra : BitVec 5) (imm : W16) :
    ∀ p ∈ Claims.immediateFunctions c rd ra imm, ∀ s, exec p.1 s = .next (s.aluI c.toNat rd ra p.2) := by
  simp only [Claims.immediateFunctions, List.forall_mem_cons]
  exact ⟨next_aluI_congr (addi_eq_ofInt imm), next_aluI_congr fun a => congrArg (a &&& ·) (sext_eq imm),
    next_aluI_congr fun a => congrArg (a ||| ·) (zext_eq_ofNat imm),
    next_aluI_congr fun a => congrArg (a ^^^ ·) (zext_eq_ofNat imm), next_aluI_congr (slti_eq_one imm),
    next_aluI_congr fun a => congrArg (fun x => truth (a.ult x)) (sext_eq imm), next_aluI_congr (shori_eq_ofNat imm),
    List.forall_mem_nil _⟩

/-- The shifts that exist: 0, 1 and 2. -/
theorem shiftImm_eq_shifted {imm : W16} (h : imm.toNat / 64 < 3) (a : W64) :
    shiftImm imm a = Claims.shifted (imm.toNat / 64) (imm.toNat % 64) a := by
  unfold shiftImm Claims.shifted
  generalize imm.toNat / 64 = kind at h ⊢
  obtain rfl | rfl | rfl : kind = 0 ∨ kind = 1 ∨ kind = 2 := by omega
  · exact shiftLeft_eq a _
  · exact ushiftRight_eq a _
  · exact sshiftRight_eq a _

theorem immediateFormsWriteTheirResults : Clauses.ImmediateFormsWriteTheirResults := by
  intro c rd ra imm s h
  refine ⟨fun p hp => ⟨_, exec_immediateFunctions c rd ra imm p hp s, completed_aluI h rd ra p.2⟩,
    fun hkind => ⟨_, rfl, ?_⟩, fun hkind => ⟨_, rfl, ?_⟩, fun hra => ⟨_, rfl, ?_⟩, fun hra => ⟨_, rfl, ?_⟩⟩
  · rw [← shiftImm_eq_shifted hkind]
    have himm : imm.toNat < 0xC0 := by omega
    exact completed_form h (decide_eq_true himm) _ rfl
  · exact trapped_illegal h (decide_eq_false (by omega)) ..
  · rw [← lui_eq_ofInt]
    exact completed_form h (beq_iff_eq.mpr hra) _ rfl
  · exact trapped_illegal h (beq_eq_false_iff_ne.mpr hra) ..

/-- Settles O4, from what each command runs and what its function gives. -/
theorem arithmeticWritesItsResults : Obligations.ArithmeticWritesItsResults :=
  ⟨aluFunctionsWriteTheirResults, bitCountsWriteTheirResults, immediateFormsWriteTheirResults⟩

end Sys2Proof.Machine
end

section
/-! SUPPORT. Token instructions (R118 to R121): the counters they name, and the increment that leaves the core. -/

namespace Sys2Proof.Machine

open State

/-! ### An instruction that completes after a change of registers -/

theorem retire_eq_result (s : State) (c : Nat) : s.retire c = s.result c 0 0 := rfl

theorem setGpr_regs (s : State) (c : Nat) (rd : BitVec 5) (v : W64) : (s.setGpr c rd v).regs = s.regs := by
  unfold setGpr
  split <;> rfl

theorem result_regs (s : State) (c : Nat) (rd : BitVec 5) (v : W64) : (s.result c rd v).regs = s.regs := setGpr_regs s c rd v

theorem result_net (s : State) (c : Nat) (rd : BitVec 5) (v : W64) : (s.result c rd v).net = s.net := by
  unfold result setGpr
  split <;> rfl

theorem result_reg (s : State) (c : Nat) (rd : BitVec 5) (v : W64) (a : Nat) : (s.result c rd v).reg a = s.reg a := by
  rw [reg, result_regs]
  rfl

/-- The address of the next instruction is that before the change, which left the cores alone. -/
theorem completed_result_of_cores {s u : State} (hcores : u.cores = s.cores) (c : Nat) (rd : BitVec 5) (v : W64) :
    Completed c rd v (s.nextPc c) u (u.result c rd v) := by
  have hcore : u.core c = s.core c := congrArg (fun m => smGet Core.reset m c) hcores
  rw [show s.nextPc c = u.nextPc c by rw [nextPc, nextPc, hcore]]
  exact completed_result u c rd v

/-- An instruction that changed registers and wrote a result. -/
theorem completed_result_of_regs {s u : State} (hu : { s with regs := u.regs } = u) (c : Nat) (rd : BitVec 5) (v : W64) :
    Completed c rd v (s.nextPc c) { s with regs := (u.result c rd v).regs } (u.result c rd v) := by
  have hcores : u.cores = s.cores := (congrArg State.cores hu.symm :)
  rw [result_regs, hu]
  exact completed_result_of_cores hcores c rd v

theorem addSat_frame (s : State) (a hi lo n : Nat) : { s with regs := (s.addSat a hi lo n).regs } = s.addSat a hi lo n := rfl

theorem count_crier_frame (s : State) (a : Nat) (m : Crier) :
    { s with regs := ((s.count a).crier m).regs, net := { s.net with msgs := ((s.count a).crier m).net.msgs } }
      = (s.count a).crier m := rfl

/-! ### Counters -/

theorem toNat_ne_zero {t : BitVec 4} (ht : t ≠ 0) : t.toNat ≠ 0 := fun h => ht (BitVec.eq_of_toNat_eq h)

theorem token_eq_counter (s : State) (c : CoreId) (t : BitVec 4) : s.token c.toNat t.toNat = Claims.counter s c t := by
  unfold token Claims.counter
  by_cases ht : t = 0
  · rw [ht]; rfl
  · rw [if_neg ht, if_neg (toNat_ne_zero ht), tokA, cA_add]

theorem counter_lt (s : State) (c : CoreId) (t : BitVec 4) : Claims.counter s c t < 256 := by
  unfold Claims.counter
  split
  · decide
  · exact bits_lt _ 7 0

theorem counter_result (s : State) (c : CoreId) (t : BitVec 4) (rd : BitVec 5) (v : W64) :
    Claims.counter (s.result c.toNat rd v) c t = Claims.counter s c t := by
  unfold Claims.counter fld
  rw [result_reg]

theorem setToken_zero (s : State) (c v : Nat) : s.setToken c (0 : BitVec 4).toNat v = s := rfl

theorem setToken_of_ne {t : BitVec 4} (ht : t ≠ 0) (s : State) (c v : Nat) :
    s.setToken c t.toNat v = s.setFld (cA c (TOK_COUNT + 4 * (t.toNat - 1))) 7 0 v := by
  rw [setToken, if_neg (toNat_ne_zero ht), tokA, cA_add]

/-- A counter set reads as it was set; token 0 is no counter. -/
theorem counter_setToken (s : State) (c : CoreId) (t : BitVec 4) {n : Nat} (hn : n < 256) :
    Claims.counter (s.setToken c.toNat t.toNat n) c t = if t = 0 then 0 else n := by
  unfold Claims.counter
  split
  · rfl
  · next ht =>
    rw [setToken_of_ne ht, fld_setFld _ (by decide) (by decide)]
    exact Nat.mod_eq_of_lt hn

theorem reg_setToken_other (s : State) (c : Nat) {t : BitVec 4} (n : Nat) {a : Nat}
    (ha : t = 0 ∨ a ≠ cA c (TOK_COUNT + 4 * (t.toNat - 1))) : (s.setToken c t.toNat n).reg a = s.reg a := by
  by_cases ht : t = 0
  · rw [ht, setToken_zero]
  · rw [setToken_of_ne ht, reg_setFld, if_neg (ha.resolve_left ht)]

theorem setToken_frame (s : State) (c t n : Nat) : { s with regs := (s.setToken c t n).regs } = s.setToken c t n := by
  unfold setToken
  split <;> rfl

/-- A counter set, and the instruction completed. -/
theorem counted_result (s : State) (c : CoreId) (t : BitVec 4) {n : Nat} (hn : n < 256) (rd : BitVec 5) (v : W64) :
    Claims.Counted c t n rd v s ((s.setToken c.toNat t.toNat n).result c.toNat rd v) where
  value := (counter_result ..).trans (counter_setToken s c t hn)
  others _ ha := (result_reg ..).trans (reg_setToken_other s c.toNat n ha)
  rest := completed_result_of_regs (setToken_frame ..) ..

theorem counted_retire (s : State) (c : CoreId) (t : BitVec 4) {n : Nat} (hn : n < 256) :
    Claims.Counted c t n 0 0 s ((s.setToken c.toNat t.toNat n).retire c.toNat) := by
  rw [retire_eq_result]
  exact counted_result s c t hn 0 0

/-- Every counter left as it is, and the instruction completed. -/
theorem counted_same (s : State) (c : CoreId) (t : BitVec 4) (rd : BitVec 5) (v : W64) :
    Claims.Counted c t (Claims.counter s c t) rd v s (s.result c.toNat rd v) where
  value := by
    rw [counter_result]
    split
    · next ht => rw [Claims.counter, if_pos ht]
    · rfl
  others _ _ := result_reg ..
  rest := completed_result_of_regs rfl ..

/-! ### The instructions -/

theorem onlyCountsUp_count (s : State) (a : Nat) : Claims.OnlyCountsUp a s (s.count a) :=
  ⟨by rw [reg_count, if_pos rfl]; rfl, fun x hx => by rw [reg_count, if_neg hx], rfl⟩

/-- A token instruction whose unused fields are zero runs. -/
theorem tok_legal {s : State} {c : Nat} (h : Ready s c) {sub : Nat} {rd ra : BitVec 5} (t : BitVec 4) {useRd useRa : Bool}
    (hrd : (useRd || rd == 0) = true) (hra : (useRa || ra == 0) = true) (f : State → State) :
    s.tok c sub rd ra 0 t useRd useRa f = f s :=
  form_legal h (by rw [hrd, hra]; rfl) _ f

theorem priv_privileged {s : State} {c : Nat} (hp : s.privileged c = true) (w : W32) (f : State → State) : s.priv c w f = f s :=
  if_pos hp

/-- A privileged instruction in user mode traps with cause 2 (R123). -/
theorem trapped_user {s : State} {c : Nat} (hp : s.privileged c = false) (w : W32) (f : State → State) :
    Trapped c 2 (w.setWidth 64) s (s.priv c w f) := by
  rw [priv, hp]
  exact trapped_trap s c 2 _

section Instructions

variable {s : State} {c : CoreId} (h : Ready s c.toNat) (t : BitVec 4)
include h

theorem exec_tinc : exec (.tinc c 0 0 0 t) s = .next (if Claims.counter s c t = 255 then s.trap c.toNat 8 (t.setWidth 64)
    else (s.setToken c.toNat t.toNat (Claims.counter s c t + 1)).retire c.toNat) := by
  rw [← token_eq_counter]
  exact congrArg _ (tok_legal h t rfl rfl _)

theorem exec_twait : exec (.twait c 0 0 0 t) s = .next (if t ≠ 0 ∧ Claims.counter s c t = 0
    then s.count (cA c.toNat CORE_ISSUE_STALL) else (s.setToken c.toNat t.toNat (Claims.counter s c t - 1)).retire c.toNat) := by
  rw [← token_eq_counter]
  exact congrArg _ (tok_legal h t rfl rfl _)

theorem exec_ttry (rd : BitVec 5) : exec (.ttry c rd 0 0 t) s = .next (if Claims.counter s c t = 0 then s.result c.toNat rd 0
    else (s.setToken c.toNat t.toNat (Claims.counter s c t - 1)).result c.toNat rd 1) := by
  rw [← token_eq_counter]
  exact congrArg _ (tok_legal h t rfl rfl _)

theorem exec_tread (rd : BitVec 5) :
    exec (.tread c rd 0 0 t) s = .next (s.result c.toNat rd (BitVec.ofNat 64 (Claims.counter s c t))) := by
  rw [← token_eq_counter]
  exact congrArg _ (tok_legal h t rfl rfl _)

theorem exec_tset (ra : BitVec 5) : exec (.tset c 0 ra 0 t) s = .next (s.priv c.toNat (wordT 5 0 ra 0 t) fun s =>
    (s.setToken c.toNat t.toNat ((s.gpr c.toNat ra).toNat % 256)).retire c.toNat) :=
  congrArg _ (tok_legal h t rfl rfl _)

theorem exec_tsend (ra : BitVec 5) : exec (.tsend c 0 ra 0 t) s = .next ((if t = 0 then s
    else s.sendToken c.toNat ((s.gpr c.toNat ra).toNat % 1024) t.toNat).retire c.toNat) :=
  congrArg _ (tok_legal h t rfl rfl _)

end Instructions

theorem tokenInstructionsCount : Clauses.TokenInstructionsCount := by
  intro c rd ra t s h n
  have hlt : n < 256 := counter_lt s c t
  refine ⟨fun hn => ⟨_, exec_tinc h t, ?_⟩, fun hn => ⟨_, exec_tinc h t, ?_⟩, fun hn => ⟨_, exec_twait h t, ?_⟩,
    fun ht hn => ⟨_, exec_twait h t, ?_⟩, ⟨_, exec_ttry h t rd, ?_⟩, ⟨_, exec_tread h t rd, counted_same s c t rd _⟩,
    fun hp => ⟨_, exec_tset h t ra, ?_⟩, fun hp => ⟨_, exec_tset h t ra, trapped_user hp ..⟩⟩
  · rw [if_neg hn.ne]
    exact counted_retire s c t (Nat.succ_lt_succ hn)
  · rw [if_pos hn]
    exact trapped_trap ..
  · rw [if_neg fun hk => hn.elim hk.1 fun hpos => hpos.ne' hk.2]
    exact counted_retire s c t (by omega)
  · rw [if_pos ⟨ht, hn⟩]
    exact onlyCountsUp_count ..
  · by_cases hn : n = 0
    · rw [if_pos hn, if_pos hn, show n - 1 = n by omega]
      exact counted_same s c t rd 0
    · rw [if_neg hn, if_neg hn]
      exact counted_result s c t (by omega) rd 1
  · rw [priv_privileged hp]
    exact counted_retire s c t (Nat.mod_lt _ (by decide))

/-! ### Tokens sent (R121) -/

theorem sendToken_served {s : State} {dest : Nat} (hd : s.unserved dest = false) (c : Nat) (t : BitVec 4) :
    s.sendToken c dest t.toNat = (s.count (cA c TOK_SENT)).crier
      { typ := 1, kind := 0, dest := dest, src := c, arg := t.setWidth 6, payload := 0, event := none } := by
  rw [sendToken, hd, BitVec.ofNat_toNat]
  rfl

theorem sendToken_unserved {s : State} {dest : Nat} (hd : s.unserved dest = true) (c t : Nat) :
    s.sendToken c dest t = s.addSat (cA c TOK_SENT_DROP) 31 0 1 := if_pos hd

/-- An increment to a core that is served leaves on the crier network, counted. -/
theorem sent_completed (s : State) (c : Nat) (m : Crier) :
    let u := ((s.count (cA c TOK_SENT)).crier m).result c 0 0
    u.net.msgs = s.net.msgs ++ [m] ∧ u.reg (cA c TOK_SENT) = s.reg (cA c TOK_SENT) + 1 ∧
      (∀ a, a ≠ cA c TOK_SENT → u.reg a = s.reg a) ∧
      Completed c 0 0 (s.nextPc c) { s with regs := u.regs, net := { s.net with msgs := u.net.msgs } } u := by
  obtain ⟨hup, hothers, -⟩ := onlyCountsUp_count s (cA c TOK_SENT)
  refine ⟨rfl, ?_, fun a ha => ?_, ?_⟩
  · rw [result_reg, crier_reg, hup]
  · rw [result_reg, crier_reg, hothers a ha]
  · rw [result_regs, result_net, count_crier_frame]
    exact completed_result_of_cores (by rw [crier_cores, count_cores]) c 0 0

/-- An increment to a core that is retired is dropped, counted. -/
theorem dropped_completed (s : State) (c : Nat) :
    let u := (s.addSat (cA c TOK_SENT_DROP) 31 0 1).result c 0 0
    u.fld (cA c TOK_SENT_DROP) 31 0 = min (s.fld (cA c TOK_SENT_DROP) 31 0 + 1) (2 ^ 32 - 1) ∧
      (∀ a, a ≠ cA c TOK_SENT_DROP → u.reg a = s.reg a) ∧ Completed c 0 0 (s.nextPc c) { s with regs := u.regs } u := by
  refine ⟨?_, fun a ha => ?_, completed_result_of_regs (addSat_frame ..) c 0 0⟩
  · rw [fld, result_reg, ← fld, addSat, fld_setFld _ (by decide) (by decide)]
    exact Nat.mod_eq_of_lt (lt_of_le_of_lt (Nat.min_le_right ..) (by decide))
  · rw [result_reg, reg_addSat, if_neg ha]

theorem tokenSendLeaves : Clauses.TokenSendLeaves := by
  intro c ra t s h dest
  refine ⟨fun ht hd => ⟨_, exec_tsend h t ra, ?_⟩, fun ht hd => ⟨_, exec_tsend h t ra, ?_⟩,
    fun ht => ⟨_, exec_tsend h t ra, ?_⟩⟩
  · rw [if_neg ht, sendToken_served hd]
    exact sent_completed s c.toNat _
  · rw [if_neg ht, sendToken_unserved hd]
    exact dropped_completed s c.toNat
  · rw [if_pos ht]
    exact completed_retire s c.toNat

/-- Settles O10, from the counter each instruction sets and from where an increment goes. -/
theorem tokensCountAndLeave : Obligations.TokensCountAndLeave := ⟨tokenInstructionsCount, tokenSendLeaves⟩

end Sys2Proof.Machine
end

section
/-! SUPPORT. Traps and interrupts of the control core (R124 to R127, R415): entry, double traps, eret, and the sources that a core
controller presents. -/

namespace Sys2Proof.Machine

open State

/-! ### System instructions and traps -/

/-- A system instruction with its fields zero runs. -/
theorem sys_legal {s : State} {c : Nat} (h : Ready s c) (fn : Nat) (f : State → State) : s.sys c 0 0 0 fn f = f s :=
  form_legal h rfl _ f

theorem exec_ecall {s : State} {c : CoreId} (h : Ready s c.toNat) : exec (.ecall c 0 0 0) s = .next (s.trap c.toNat 10 0) :=
  congrArg _ (sys_legal h 1 _)

theorem exec_brk {s : State} {c : CoreId} (h : Ready s c.toNat) : exec (.brk c 0 0 0) s = .next (s.trap c.toNat 9 0) :=
  congrArg _ (sys_legal h 2 _)

theorem exec_eret {s : State} {c : CoreId} (h : Ready s c.toNat) :
    exec (.eret c 0 0 0) s = .next (s.priv c.toNat (wordA 1 0 0 0 0) fun s =>
      (s.modCore c.toNat fun k => { k with status := eretStatus k.status }).retireTo c.toNat ((s.core c.toNat).tpc.setWidth 46)) :=
  congrArg _ (sys_legal h 0 _)

theorem trap_handled {s : State} {c : Nat} (hs : (s.core c).status.getLsbD 4 = false) (cause : Nat) (value : W64) :
    s.trap c cause value = s.enterTrap c (BitVec.ofNat 64 cause) value := if_neg (by rw [hs]; exact Bool.false_ne_true)

theorem trap_double {s : State} {c : Nat} (hs : (s.core c).status.getLsbD 4 = true) (cause : Nat) (value : W64) :
    s.trap c cause value = (s.modCore c fun k => { k with run := .doubleTrapped }).raiseCore c 10 := if_pos hs

theorem callsAndBreakpointsTrap : Clauses.CallsAndBreakpointsTrap := by
  intro c s h
  refine ⟨⟨_, exec_ecall h, trapped_trap ..⟩, ⟨_, exec_brk h, trapped_trap ..⟩, fun hs => ⟨_, exec_ecall h, ?_⟩⟩
  beta_reduce
  rw [trap_handled hs, (entered_enterTrap s c.toNat _ 0).core]
  exact ⟨rfl, rfl, rfl, rfl⟩

/-! ### Requests to a core's controller (R412) -/

/-- A request changes registers, and the messages of the crier network for a forwarded source. -/
theorem raiseCore_frame (s : State) (c n : Nat) : ∃ regs net, s.raiseCore c n = { s with regs := regs, net := net } := by
  unfold raiseCore
  generalize cA c ICC_PENDING = a
  dsimp only
  split
  · exact ⟨_, _, rfl⟩
  split
  · exact ⟨_, _, rfl⟩
  split
  · exact ⟨_, _, rfl⟩
  split <;> exact ⟨_, _, rfl⟩

theorem raiseCore_core (s : State) (c n d : Nat) : (s.raiseCore c n).core d = s.core d := by
  obtain ⟨regs, net, h⟩ := raiseCore_frame s c n
  rw [h]
  rfl

theorem raiseCore_mem (s : State) (c n : Nat) : (s.raiseCore c n).mem = s.mem := by
  obtain ⟨regs, net, h⟩ := raiseCore_frame s c n
  rw [h]

theorem pending_raiseCore {s : State} {c n : Nat} (hn : 1 ≤ n) (h63 : n ≤ 63) (he : s.bit (cA c ICC_ENABLE) n = true) :
    (s.raiseCore c n).bit (cA c ICC_PENDING) n = true := by
  have hset : (s.setBit (cA c ICC_PENDING) n true).bit (cA c ICC_PENDING) n = true := by
    rw [bit_setBit _ _ _ _ _ _ (by omega), if_pos ⟨rfl, rfl⟩]
  unfold raiseCore
  rw [if_neg (by omega), he]
  by_cases hp : s.bit (cA c ICC_PENDING) n = true
  · simp only [hp, Bool.not_true, Bool.false_eq_true, if_false, if_true]
  · simp only [hp, Bool.not_true, Bool.false_eq_true, if_false]
    split
    · rw [crier_bit, hset]
    · exact hset

/-- A double trap (R127). -/
theorem doubleTrap_stops {s : State} {c : Nat} (hs : (s.core c).status.getLsbD 4 = true) (cause : Nat) (value : W64) :
    (s.trap c cause value).core c = { s.core c with run := .doubleTrapped } ∧ (s.trap c cause value).fetching c = false ∧
      (s.bit (cA c ICC_ENABLE) 10 = true → (s.trap c cause value).bit (cA c ICC_PENDING) 10 = true) ∧
      (∀ d, d ≠ c → (s.trap c cause value).core d = s.core d) ∧ (s.trap c cause value).mem = s.mem := by
  rw [trap_double hs]
  have hcore : ((s.modCore c fun k => { k with run := .doubleTrapped }).raiseCore c 10).core c
      = { s.core c with run := .doubleTrapped } := by rw [raiseCore_core, core_modCore, if_pos rfl]
  refine ⟨hcore, ?_, fun he => pending_raiseCore (n := 10) (by decide) (by decide) he, fun d hd => ?_, raiseCore_mem ..⟩
  · rw [fetching, hcore]
    simp
  · rw [raiseCore_core, core_modCore, if_neg hd]

theorem doubleTrapsStopTheCore : Clauses.DoubleTrapsStopTheCore := by
  intro c s h hs
  simp only [List.forall_mem_cons]
  exact ⟨⟨_, exec_ecall h, doubleTrap_stops hs 10 0⟩, ⟨_, exec_brk h, doubleTrap_stops hs 9 0⟩, List.forall_mem_nil _⟩

/-! ### eret (R124) -/

/-- PIE and PMODE are all that STATUS keeps where it stands. -/
theorem getLsbD_kept (old : W64) (i : Nat) : (old &&& 0xC).getLsbD i = (old.getLsbD i && decide (2 ≤ i ∧ i < 4)) := by
  rw [show (0xC : W64) = span 3 2 by decide, BitVec.getLsbD_and, getLsbD_span]
  by_cases hi : i < 64
  · simp [hi]
  · rw [BitVec.getLsbD_of_ge old i (by omega), Bool.false_and, Bool.false_and]

theorem getLsbD_ite_twoPow (p : Bool) (b i : Nat) (hb : b < 64) :
    (if p then BitVec.twoPow 64 b else 0).getLsbD i = (p && decide (i = b)) := by
  cases p <;> simp [BitVec.getLsbD_twoPow, hb, eq_comm]

theorem getLsbD_eretStatus (old : W64) (i : Nat) : (eretStatus old).getLsbD i
    = (old.getLsbD i && decide (2 ≤ i ∧ i < 4) || old.getLsbD 3 && decide (i = 1) || old.getLsbD 2 && decide (i = 0)) := by
  rw [eretStatus, BitVec.getLsbD_or, BitVec.getLsbD_or, getLsbD_kept]
  exact congrArg₂ _ (congrArg _ (getLsbD_ite_twoPow _ 1 i (by decide))) (getLsbD_ite_twoPow _ 0 i (by decide))

/-- MODE from PMODE, IE from PIE, PMODE and PIE as they were, every other bit clear. -/
theorem eretStatus_restores (old : W64) :
    (eretStatus old).getLsbD 0 = old.getLsbD 2 ∧ (eretStatus old).getLsbD 1 = old.getLsbD 3 ∧
      (eretStatus old).getLsbD 2 = old.getLsbD 2 ∧ (eretStatus old).getLsbD 3 = old.getLsbD 3 ∧
      ∀ i, 4 ≤ i → (eretStatus old).getLsbD i = false := by
  simp only [getLsbD_eretStatus]
  refine ⟨by simp, by simp, by simp, by simp, fun i hi => ?_⟩
  have hbits : ¬ (2 ≤ i ∧ i < 4) ∧ i ≠ 1 ∧ i ≠ 0 := by omega
  simp [hbits]

/-- The state that eret leaves: STATUS, pc and RETIRED of its own core are new. -/
theorem eret_core (s : State) (c : Nat) (pc : Addr) :
    ((s.modCore c fun k => { k with status := eretStatus k.status }).retireTo c pc).core c
      = { s.core c with status := eretStatus (s.core c).status, pc := pc, retired := (s.core c).retired + 1 } := by
  rw [retireTo, core_modCore, if_pos rfl, core_modCore, if_pos rfl]

theorem eretRestoresWhatTrapsSaved : Clauses.EretRestoresWhatTrapsSaved := by
  intro c s h _
  refine ⟨fun hp => ⟨_, exec_eret h, ?_⟩, fun hp => ⟨_, exec_eret h, trapped_user hp ..⟩⟩
  obtain ⟨hmode, hie, hpmode, hpie, hhigh⟩ := eretStatus_restores (s.core c.toNat).status
  rw [priv_privileged hp]
  dsimp only
  rw [eret_core]
  exact ⟨hmode, hie, hpmode, hpie, hhigh, rfl, (onlyCore_modCore s c.toNat _).trans (onlyCore_modCore _ c.toNat _)⟩

/-! ### The interrupt that a core controller presents (R415) -/

theorem icPriority_core (s : State) (c n : Nat) : s.icPriority (some c) n = s.fld (cA c (ICC_SRC + 4 * (n - 1))) 3 0 := by
  rw [← cA_add]
  rfl

theorem mem_icOpen (s : State) (c : CoreId) (n : Nat) : n ∈ s.icOpen (some c.toNat) ↔ Claims.Deliverable s c n := by
  unfold Claims.Deliverable
  rw [← icPriority_core]
  simp only [icOpen, List.mem_filter, List.mem_range, Bool.and_eq_true, decide_eq_true_eq]
  constructor
  · rintro ⟨hlast, ⟨⟨⟨hpos, hpend⟩, hen⟩, hrun⟩, -⟩
    exact ⟨hpos, Nat.le_of_lt_succ hlast, hpend, hen, hrun⟩
  · rintro ⟨hpos, hlast, hpend, hen, hrun⟩
    exact ⟨Nat.lt_succ_of_le hlast, ⟨⟨⟨hpos, hpend⟩, hen⟩, hrun⟩, Nat.zero_lt_of_lt hrun⟩

/-- A choice that only sources other than 0 replace is 0 where there was none to choose from. -/
theorem foldl_choice_eq_zero (better : Nat → Nat → Prop) [∀ b n, Decidable (better b n)] (l : List Nat) (hl : ∀ n ∈ l, n ≠ 0)
    (b : Nat) : l.foldl (fun b n => if b = 0 ∨ better b n then n else b) b = 0 ↔ b = 0 ∧ l = [] := by
  induction l generalizing b with
  | nil => simp
  | cons n l ih =>
    obtain ⟨hn, hrest⟩ := List.forall_mem_cons.mp hl
    rw [List.foldl_cons, ih hrest]
    split
    · simp [hn]
    · next hkeep => simp [not_or.mp hkeep |>.1]

theorem icBest_ne_zero (s : State) (c : CoreId) : s.icBest (some c.toNat) ≠ 0 ↔ ∃ n, Claims.Deliverable s c n := by
  have hnonzero : ∀ n ∈ s.icOpen (some c.toNat), n ≠ 0 := fun n hn => Nat.ne_of_gt ((mem_icOpen s c n).mp hn).1
  rw [icBest, Ne, foldl_choice_eq_zero (fun b n => s.icPriority _ b < s.icPriority _ n) _ hnonzero]
  simp only [true_and, ← mem_icOpen]
  exact ⟨List.exists_mem_of_ne_nil _, fun ⟨n, hn⟩ => List.ne_nil_of_mem hn⟩

theorem icPresents_iff (s : State) (c : CoreId) : s.icPresents c.toNat = true ↔
    s.bit (cA c.toNat ICC_STATUS) 31 = false ∧ ∃ n, Claims.Deliverable s c n := by
  rw [icPresents, Bool.and_eq_true, Bool.not_eq_true', decide_eq_true_iff, icBest_ne_zero]
  rfl

theorem exec_interruptEntry (c : CoreId) (s : State) : exec (.interruptEntry c) s
    = .next (if s.fetching c.toNat && s.intEnabled c.toNat && s.icPresents c.toNat then s.enterTrap c.toNat 0x8000000000000001 0
        else s) := rfl

theorem interruptsEnterTheHandler : Clauses.InterruptsEnterTheHandler := by
  intro c s hf frozen ie
  have hpresents := icPresents_iff s c
  refine ⟨fun hie hrun hsome => ⟨_, exec_interruptEntry c s, ?_⟩, fun hnone => ?_⟩
  · have htaken : (s.fetching c.toNat && s.intEnabled c.toNat && s.icPresents c.toNat) = true := by
      rw [hf, show s.intEnabled c.toNat = true from hie, hpresents.mpr ⟨hrun, hsome⟩]
      rfl
    rw [if_pos htaken]
    exact entered_enterTrap ..
  · rw [exec_interruptEntry, if_neg]
    intro htaken
    rw [Bool.and_eq_true, Bool.and_eq_true] at htaken
    obtain ⟨⟨-, hie⟩, hpres⟩ := htaken
    obtain ⟨hrun, hsome⟩ := hpresents.mp hpres
    obtain hclear | hfrozen | hno := hnone
    · exact Bool.false_ne_true (hclear.symm.trans hie)
    · exact Bool.false_ne_true (hrun.symm.trans hfrozen)
    · exact hno hsome

/-- Settles O11, from trap entry, the double trap, STATUS after eret, and the sources of a core controller. -/
theorem trapsEnterAndLeaveTheHandler : Obligations.TrapsEnterAndLeaveTheHandler :=
  ⟨callsAndBreakpointsTrap, doubleTrapsStopTheCore, eretRestoresWhatTrapsSaved, interruptsEnterTheHandler⟩

end Sys2Proof.Machine
end

section
/-! SUPPORT. Power, clocks and temperature (R427, R432, R439, R443, R444): droops, telemetry frames, and the registers that the host
writes there. -/

namespace Sys2Proof.Machine

open State

/-! ### What the updates of a steward and of the warden leave -/

section Updates

variable (s : State) (t d : Nat) (f : Thermal → Thermal) (g : Power → Power)

@[simp] theorem modThermal_core : (s.modThermal t f).core d = s.core d := rfl
@[simp] theorem modThermal_mem : (s.modThermal t f).mem = s.mem := rfl
@[simp] theorem modThermal_reg : (s.modThermal t f).reg d = s.reg d := rfl
@[simp] theorem modThermal_bit (b : Nat) : (s.modThermal t f).bit d b = s.bit d b := rfl
@[simp] theorem modThermal_fld (hi lo : Nat) : (s.modThermal t f).fld d hi lo = s.fld d hi lo := rfl

@[simp] theorem thermal_modThermal : ((s.modThermal t f).stack d).thermal
    = if d = t then f (s.stack t).thermal else (s.stack d).thermal := by
  rw [modThermal, stack_modStack]
  split <;> rfl

@[simp] theorem modPower_mem : (s.modPower g).mem = s.mem := rfl
@[simp] theorem modPower_cores : (s.modPower g).cores = s.cores := rfl
@[simp] theorem modPower_net : (s.modPower g).net = s.net := rfl
@[simp] theorem power_modPower : (s.modPower g).warden.power = g s.warden.power := rfl
@[simp] theorem modPower_core : (s.modPower g).core d = s.core d := rfl
@[simp] theorem modPower_reg : (s.modPower g).reg d = s.reg d := rfl

@[simp] theorem withdrawPkg_mem : (s.withdrawPkg t).mem = s.mem := setBit_mem ..
@[simp] theorem withdrawPkg_stack : (s.withdrawPkg t).stack d = s.stack d := setBit_stack ..

end Updates

/-! ### Places of registers -/

theorem pA_inj {m n : Nat} : pA m = pA n ↔ m = n := Nat.add_right_inj

theorem sA_inj {t m n : Nat} : sA t m = sA t n ↔ m = n := Nat.add_right_inj

/-- A stack's block lies below the package's (R8). -/
theorem sA_ne_pA {t off : Nat} (ht : t < 16) (ho : off < 0x100000) (n : Nat) : sA t off ≠ pA n := by
  unfold sA stackBase pA pkgBase
  omega

/-- The package's registers are reached together. -/
theorem accessible_package {s : State} {req : Requester} {m n : Nat} (hm : m < 0x1000000) (hn : n < 0x1000000) :
    s.accessible req (pA m) = s.accessible req (pA n) := by
  simp only [accessible, regRuns, regionOf_package hm, regionOf_package hn]

/-- The register that the first copy of a row is in the block of an owner. -/
def firstHit (r : RegRow) (o : Nat) : RegHit := ⟨r, o, 0, r.region.base o + r.off⟩

theorem firstHit_offset (r : RegRow) (o : Nat) : (firstHit r o).base - r.region.base o = r.off := Nat.add_sub_cancel_left ..

theorem findReg_first {r : RegRow} {a o off : Nat} (hr : regionOf a = some (r.region, o, off))
    (hl : lookup r.region off = some (r, 0)) : findReg a = some (firstHit r o) := by
  rw [findReg_of_region hr, hl]
  simp [firstHit]

/-! ### Writes of four bytes -/

/-- A word with its bits from k on clear has the set ones below k. -/
theorem lt_of_high_clear {v : W32} {k : Nat} (h : v &&& (BitVec.allOnes 32 <<< k) = 0) {i : Nat} (hi : v.getLsbD i = true) :
    i < k := by
  have h32 : i < 32 := BitVec.lt_of_getLsbD hi
  have hbit := congrArg (fun x : W32 => x.getLsbD i) h
  by_contra hge
  have hlow : i - k < 32 := by omega
  rw [BitVec.getLsbD_and, hi, BitVec.getLsbD_shiftLeft, BitVec.getLsbD_allOnes, decide_eq_true h32, decide_eq_false hge,
    decide_eq_true hlow] at hbit
  simp at hbit

theorem getLsbD_span_low {n i : Nat} (hn : n < 64) (hi : i ≤ n) : (span n 0).getLsbD i = true := by
  rw [getLsbD_span]
  simp only [Bool.and_eq_true, decide_eq_true_eq]
  omega

theorem toNat_lt_of_high_clear {v : W32} {k : Nat} (h : v &&& (BitVec.allOnes 32 <<< k) = 0) : v.toNat < 2 ^ k := by
  refine Nat.lt_pow_two_of_testBit _ fun i hi => ?_
  by_contra hset
  exact absurd (lt_of_high_clear h (Bool.eq_true_of_not_eq_false hset)) (Nat.not_lt.mpr hi)

theorem setWidth_and_word (v : W32) : v.setWidth 64 &&& (0xFFFFFFFF : W64) = v.setWidth 64 := by
  apply BitVec.eq_of_getLsbD_eq
  intro i hi
  rw [BitVec.getLsbD_and, getLsbD_word, BitVec.getLsbD_setWidth]
  by_cases h32 : i < 32
  · simp [h32]
  · simp [BitVec.getLsbD_of_ge v i (Nat.le_of_not_lt h32)]

theorem setWidth_word (v : W32) : (v.setWidth 64 &&& (0xFFFFFFFF : W64)).setWidth 32 = v := by
  rw [setWidth_and_word, BitVec.setWidth_setWidth_of_le _ (by decide), BitVec.setWidth_eq]

/-- A write of a 32-bit register that sets bits of its fields only does what the register does with it. -/
theorem command_narrow {s : State} {req : Requester} {r : RegRow} {o : Nat} {v : W32}
    (hr : regionOf (r.region.base o + r.off) = some (r.region, o, r.off)) (hl : lookup r.region r.off = some (r, 0))
    (h : Claims.Admitted s req (r.region.base o + r.off)) (hw : r.wide = false)
    (hv : ∀ i, v.getLsbD i = true → r.fieldMask.getLsbD i = true) :
    s.command req (r.region.base o + r.off) 4 (v.setWidth 64)
      = .next ((Claims.heard s req).act (firstHit r o) (v.setWidth 64) 0xFFFFFFFF Env.none) := by
  have hk : accessKind (firstHit r o) (r.region.base o + r.off) 4 = 1 := by simp [accessKind, firstHit, hw]
  have hm : s.mayWrite req r.region o ((firstHit r o).base - r.region.base o) = true :=
    firstHit_offset r o ▸ mayWrite_of_admitted h hr
  rw [command_whole h.1 hr (findReg_first hr hl) hk hm, dropHalves_none]
  · simp only [firstHit, hw, if_true, if_false, Bool.false_eq_true, setWidth_and_word]
  · refine reservedSet_eq_false fun i hi _ => hv i ?_
    rw [if_pos rfl, setWidth_and_word, BitVec.getLsbD_setWidth, Bool.and_eq_true] at hi
    exact hi.2

/-! ### Bytes written and read back -/

theorem ofLeBytes_leBytes {n v : Nat} (h : v < 256 ^ n) : ofLeBytes (leBytes n v) = v := by
  induction n generalizing v with
  | zero =>
    rw [pow_zero, Nat.lt_one_iff] at h
    rw [h]
    rfl
  | succ n ih =>
    have hrest : v / 256 < 256 ^ n := Nat.div_lt_of_lt_mul (by rwa [← pow_succ'])
    rw [leBytes, ofLeBytes, ih hrest, BitVec.toNat_ofNat]
    exact Nat.mod_add_div v 256

theorem bytes_setBytes (s : State) (a : Nat) (bs : List Byte) : (s.setBytes a bs).bytes a bs.length = bs := by
  apply List.ext_getElem
  · exact smGetList_length ..
  · intro i _ hi
    have hbyte := byte_setBytes s a (a + i) bs
    rw [if_pos ⟨Nat.le_add_right .., Nat.add_lt_add_left hi a⟩, Nat.add_sub_cancel_left, List.getD_eq_getElem _ _ hi] at hbyte
    simp only [bytes, smGetList, List.getElem_map, List.getElem_range]
    exact hbyte

/-- A number among the bytes just written. -/
theorem number_setBytes_part (s : State) (a : Nat) {bs : List Byte} {i n v : Nat} (hlen : i + n ≤ bs.length)
    (hpart : (bs.drop i).take n = leBytes n v) (hv : v < 256 ^ n) : Claims.number ((s.setBytes a bs).bytes (a + i) n) = v := by
  rw [← bytes_drop_take _ a bs.length i n hlen, bytes_setBytes, hpart, number_eq, ofLeBytes_leBytes hv]

/-! ### Clock stretches (R427) -/

theorem exec_clockStretch {s : State} (hrun : Claims.Running s) (c : CoreId) :
    exec (.clockStretch c) s = .next (s.clockStretch c.toNat) := congrArg _ (if_pos hrun)

theorem exec_clockStretchEnd {s : State} (hrun : Claims.Running s) (c : CoreId) :
    exec (.clockStretchEnd c) s = .next (s.clockStretchEnd c.toNat) := congrArg _ (if_pos hrun)

theorem clocked_iff (s : State) (c : Nat) : Claims.Clocked s c ↔ ¬ ((s.core c).power ≠ 1 ∧ (s.core c).power ≠ 2) := by
  unfold Claims.Clocked
  omega

/-- The core's clock halved, and the droop counted. -/
def stretched (s : State) (c : Nat) : State :=
  (s.modCore c fun k => { k with droop := true, droopAt := s.now }).count (sA (c / 64) SPWR_DROOPS)

theorem stretched_stack (s : State) (c t : Nat) : (stretched s c).stack t = s.stack t := (count_stack ..).trans (modCore_stack ..)

/-- The stretches of a stack's last 20 evaluations. -/
def recentStretches (h : Thermal) : List Nat := h.stretches.filter fun e => h.evals < e + 20

theorem clockStretch_idle {s : State} {c : Nat} (h : ¬ Claims.Clocked s c ∨ (s.core c).droop = true) : s.clockStretch c = s := by
  rw [clocked_iff, not_not] at h
  exact if_pos h.symm

/-- A droop of a core that is clocked: with it, the stack's stretches are too many or are noted. -/
theorem clockStretch_clocked {s : State} {c : Nat} (hclk : Claims.Clocked s c) (hd : (s.core c).droop = false) :
    s.clockStretch c
      = if 16 < ((s.stack (c / 64)).thermal.evals :: recentStretches (s.stack (c / 64)).thermal).length then
          ((stretched s c).modThermal (c / 64) fun h => { h with stretches := [], calm := 0 }).raiseDroop (c / 64)
        else (stretched s c).modThermal (c / 64) fun h =>
          { h with stretches := (s.stack (c / 64)).thermal.evals :: recentStretches (s.stack (c / 64)).thermal, calm := 0 } := by
  have hgo : ¬ ((s.core c).droop = true ∨ ((s.core c).power ≠ 1 ∧ (s.core c).power ≠ 2)) := by
    rw [hd]
    exact not_or.mpr ⟨Bool.false_ne_true, (clocked_iff s c).mp hclk⟩
  rw [← stretched_stack s c (c / 64)]
  exact if_neg hgo

/-- What a droop leaves whether or not it raises a demand. -/
structure DroopNoted (c : Nat) (s u : State) : Prop where
  core : u.core c = { s.core c with droop := true, droopAt := s.now }
  others : ∀ d, d ≠ c → u.core d = s.core d
  mem : u.mem = s.mem
  droops : u.reg (sA (c / 64) SPWR_DROOPS) = s.reg (sA (c / 64) SPWR_DROOPS) + 1

theorem droopNoted_stretched (s : State) (c : Nat) (f : Thermal → Thermal) :
    DroopNoted c s ((stretched s c).modThermal (c / 64) f) where
  core := by rw [modThermal_core, stretched, count_core, core_modCore, if_pos rfl]
  others d hd := by rw [modThermal_core, stretched, count_core, core_modCore, if_neg hd]
  mem := by rw [modThermal_mem, stretched, count_mem, modCore_mem]
  droops := by
    rw [modThermal_reg, stretched, reg_count, if_pos rfl, modCore_reg]
    rfl

theorem DroopNoted.raiseDroop {s u : State} {c : Nat} (h : DroopNoted c s u) : DroopNoted c s (u.raiseDroop (c / 64)) where
  core := by rw [State.raiseDroop, setFld_core, h.core]
  others d hd := by rw [State.raiseDroop, setFld_core, h.others d hd]
  mem := by rw [State.raiseDroop, setFld_mem, h.mem]
  droops := by
    rw [State.raiseDroop, reg_setFld, if_neg (by rw [sA_inj]; decide), h.droops]

theorem fld_raiseDroop (s : State) (t : Nat) :
    (s.raiseDroop t).fld (sA t SPWR_CEIL) 6 4 = min (s.fld (sA t SPWR_CEIL) 6 4 + 1) 7 := by
  rw [raiseDroop, fld_setFld _ (by decide) (by decide)]
  exact Nat.mod_eq_of_lt (lt_of_le_of_lt (Nat.min_le_right ..) (by decide))

/-- A droop counted leaves its stack's demands. -/
theorem fld_ceil_stretched (s : State) (c : Nat) (f : Thermal → Thermal) :
    ((stretched s c).modThermal (c / 64) f).fld (sA (c / 64) SPWR_CEIL) 6 4 = s.fld (sA (c / 64) SPWR_CEIL) 6 4 := by
  rw [modThermal_fld, fld, stretched, reg_count, if_neg (by rw [sA_inj]; decide)]
  rfl

/-- CORE_CLOCK shows half the frequency during a stretch. -/
theorem coreView_stretched {s : State} {c : Nat} (hd : (s.core c).droop = true) {v : W64} (hv : bits v 26 16 < 2048) :
    bits (s.coreView c CORE_CLOCK 0 v) 26 16 = bits v 26 16 / 2 := by
  have hview : s.coreView c CORE_CLOCK 0 v = putBits v 26 16 (bits v 26 16 / 2) := if_pos hd
  rw [hview, bits_putBits _ (by decide) (by decide)]
  exact Nat.mod_eq_of_lt (lt_of_le_of_lt (Nat.div_le_self ..) hv)

theorem clockStretchEnd_droop {s : State} {c : Nat} (hd : (s.core c).droop = true) :
    let ns := s.warden.power.droopNs + (s.now - (s.core c).droopAt).toNat
    s.clockStretchEnd c = (s.modCore c fun k => { k with droop := false, droopAt := 0 }).modPower fun p =>
      { p with droopNs := ns % 1000, durations := smSet 0 p.durations 5 (smGet 0 p.durations 5 + ns / 1000) } :=
  if_neg (by rw [hd]; decide)

theorem clockStretchEnd_idle {s : State} {c : Nat} (hd : (s.core c).droop = false) : s.clockStretchEnd c = s :=
  if_pos (by rw [hd]; decide)

theorem droopsStretchTheClock : Clauses.DroopsStretchTheClock := by
  intro c s hrun
  refine ⟨fun hclk hd => ⟨_, exec_clockStretch hrun c, ?_⟩, fun hidle => ?_, fun hd => ?_,
    fun hd => ⟨_, exec_clockStretchEnd hrun c, ?_⟩⟩
  · rw [clockStretch_clocked hclk hd]
    split
    · next hmany =>
      obtain ⟨hcore, hothers, hmem, hdroops⟩ := (droopNoted_stretched s c.toNat _).raiseDroop
      refine ⟨hcore, hothers, hmem, hdroops, fun v hv => coreView_stretched (by rw [hcore]) hv, ?_⟩
      rw [fld_raiseDroop, fld_ceil_stretched]
      exact (if_pos (Nat.lt_succ_iff.mp hmany)).symm
    · next hfew =>
      obtain ⟨hcore, hothers, hmem, hdroops⟩ := droopNoted_stretched s c.toNat _
      refine ⟨hcore, hothers, hmem, hdroops, fun v hv => coreView_stretched (by rw [hcore]) hv, ?_⟩
      rw [fld_ceil_stretched]
      exact (if_neg (mt Nat.lt_succ_iff.mpr hfew)).symm
  · rw [exec_clockStretch hrun, clockStretch_idle hidle]
  · rw [exec_clockStretchEnd hrun, clockStretchEnd_idle hd]
  · rw [clockStretchEnd_droop hd]
    obtain ⟨hothers, -⟩ := onlyCore_modCore s c.toNat fun k => { k with droop := false, droopAt := 0 }
    refine ⟨?_, ⟨hothers, rfl⟩, rfl, ?_⟩
    · rw [modPower_core, core_modCore, if_pos rfl]
    · exact (smGet_smSet ..).trans (if_pos rfl)

/-! ### Telemetry frames (R444) -/

theorem exec_telemetryFrame {s : State} (hrun : s.warden.stopped ≠ 2) (hrec : s.bit (pA SEC_STATUS) 6 = false) (r : PowerReadings) :
    exec (.telemetryFrame r) s = .next (s.telemetryFrame r) := by
  have hout : (if s.bit (pA SEC_STATUS) 6 then s else s.onWarden fun s => s.telemetryFrame r) = s.telemetryFrame r := by
    rw [if_neg (by rw [hrec]; exact Bool.false_ne_true)]
    exact if_neg hrun
  exact congrArg _ hout

/-- What a frame holds behind the input power. -/
def frameTail (s : State) (r : PowerReadings) : List Byte :=
  leBytes 2 r.inputMv ++ leBytes 2 (s.fld (pA PWR_CAP) 10 0)
    ++ (List.range 26).flatMap (fun d => leBytes 2 (((r.currents.find? fun x => x.1 == d).map (·.2)).getD 0))
    ++ (List.range 8).flatMap (fun i => leBytes 4 (smGet 0 s.warden.power.durations (i + 1)))
    ++ [s.fld (pA THM_HOT) 15 0, s.fld (pA THM_HOTID) 25 16, s.fld (pA THM_HOT) 31 16, s.fld (pA THM_HOTID) 7 0,
      s.fld (pA THM_COOLANT_T) 15 0, s.fld (pA THM_COOLANT_T) 31 16, s.fld (pA THM_COOLANT_F) 15 0,
      s.fld (pA THM_COOLANT_F) 31 16].flatMap (leBytes 2)

theorem frameTail_length (s : State) (r : PowerReadings) : (frameTail s r).length = 104 := by
  simp [frameTail, leBytes_length, List.length_flatMap]

/-- A frame begins with its sequence, its flags, the wall time, the count and the input power. -/
theorem frameBytes_eq (s : State) (seq : Nat) (epoch : Bool) (r : PowerReadings) :
    s.frameBytes seq epoch r = leBytes 4 seq ++ leBytes 4 ((if epoch then 1 else 0) + if s.warden.power.timeSet then 2 else 0)
      ++ leBytes 8 s.wall.toNat ++ leBytes 4 s.now.toNat ++ leBytes 4 r.inputAvg ++ frameTail s r := by
  simp [frameBytes, frameTail]

/-- The registers that a frame sets. -/
theorem reg_telemetryFrame (s : State) (r : PowerReadings) (d : Nat) : (s.telemetryFrame r).reg d
    = if d = pA SHUT_INPUT then BitVec.ofNat 64 (r.vauxMv % 65536 * 65536 + min r.inputMv 65535)
      else if d = pA PWR_STATUS then putBits (putBits (s.reg (pA PWR_STATUS)) 14 14
        (if decide (s.warden.power.frames / 2 ^ 32 % 2 = 1) then 1 else 0)) 31 16 (r.inputAvg / 1000 % 65536)
      else if d = pA PWR_FRAME_SEQ then BitVec.ofNat 64 (s.warden.power.frames % 2 ^ 32) else s.reg d := by
  have hapart : pA PWR_STATUS ≠ pA PWR_FRAME_SEQ := by rw [Ne, pA_inj]; decide
  rw [telemetryFrame]
  simp only [modPower_reg, reg_setReg, reg_setFld, reg_setBit, setBytes_reg, hapart, if_true, if_false]
  by_cases hd : d = pA PWR_STATUS
  · simp only [if_pos hd]
  · simp only [if_neg hd]

/-- The bytes that a frame writes. -/
theorem telemetryFrame_mem (s : State) (r : PowerReadings) : (s.telemetryFrame r).mem
    = (s.setBytes (pA 0x31000 + 0x80 * (s.warden.power.frames % 64)) (s.frameBytes (s.warden.power.frames % 2 ^ 32)
      (decide (s.warden.power.frames / 2 ^ 32 % 2 = 1)) r)).mem := by
  rw [telemetryFrame]
  simp only [modPower_mem, setReg_mem, setFld_mem, setBit_mem, frameA, Nat.mod_mod_of_dvd _ (show 64 ∣ 2 ^ 32 by decide)]

theorem telemetryFrame_cores (s : State) (r : PowerReadings) : (s.telemetryFrame r).cores = s.cores := by
  rw [telemetryFrame]
  simp only [modPower_cores, setReg_cores, setFld_cores, setBit_cores, setBytes_cores]

theorem telemetryFrame_net (s : State) (r : PowerReadings) : (s.telemetryFrame r).net = s.net := by
  rw [telemetryFrame]
  simp only [modPower_net, setReg_net, setFld_net, setBit_net, setBytes_net]

/-- A frame is counted, and the durations start anew. -/
theorem telemetryFrame_power (s : State) (r : PowerReadings) : (s.telemetryFrame r).warden.power
    = { s.warden.power with frames := s.warden.power.frames + 1, durations := [] } := by
  rw [telemetryFrame]
  simp only [power_modPower, setReg_warden, setFld_warden, setBit_warden, setBytes_warden]

/-- A frame is 128 bytes long. -/
theorem frameBytes_length (s : State) (seq : Nat) (epoch : Bool) (r : PowerReadings) : (s.frameBytes seq epoch r).length = 128 := by
  rw [frameBytes_eq]
  simp only [List.length_append, leBytes_length, frameTail_length]

theorem fld_frameSeq (s : State) (r : PowerReadings) :
    (s.telemetryFrame r).fld (pA PWR_FRAME_SEQ) 31 0 = s.warden.power.frames % 2 ^ 32 := by
  have hinput : pA PWR_FRAME_SEQ ≠ pA SHUT_INPUT := by rw [Ne, pA_inj]; decide
  have hstatus : pA PWR_FRAME_SEQ ≠ pA PWR_STATUS := by rw [Ne, pA_inj]; decide
  rw [fld, reg_telemetryFrame, if_neg hinput, if_neg hstatus, if_pos rfl, bits, BitVec.toNat_ofNat]
  omega

theorem bit_frameEpoch (s : State) (r : PowerReadings) :
    (s.telemetryFrame r).bit (pA PWR_STATUS) 14 = decide (s.warden.power.frames / 2 ^ 32 % 2 = 1) := by
  have hinput : pA PWR_STATUS ≠ pA SHUT_INPUT := by rw [Ne, pA_inj]; decide
  rw [bit_eq, reg_telemetryFrame, if_neg hinput, if_pos rfl, getLsbD_putBits _ _ _ _ _ (by decide), if_neg (by decide),
    getLsbD_putBits _ _ _ _ _ (by decide), if_pos (by decide)]
  split
  · next hodd => rw [hodd]; rfl
  · next heven => rw [Bool.eq_false_of_not_eq_true heven]; rfl

theorem fld_frameInput (s : State) (r : PowerReadings) : (s.telemetryFrame r).fld (pA SHUT_INPUT) 15 0 = min r.inputMv 65535 := by
  rw [fld, reg_telemetryFrame, if_pos rfl, bits, BitVec.toNat_ofNat]
  omega

theorem bytes_of_mem {s t : State} (h : t.mem = s.mem) (a n : Nat) : t.bytes a n = s.bytes a n := congrArg (smGetList 0 · a n) h

/-- The clauses of a telemetry frame. -/
theorem telemetryFrame_carries {s : State} (hrun : s.warden.stopped ≠ 2) (hrec : s.bit (pA SEC_STATUS) 6 = false)
    {r : PowerReadings} (havg : r.inputAvg < 2 ^ 32) : Answers (.telemetryFrame r) s fun t =>
      let n := s.warden.power.frames
      let a := pA 0x31000 + 0x80 * (n % 64)
      t.fld (pA PWR_FRAME_SEQ) 31 0 = n % 2 ^ 32 ∧ t.bit (pA PWR_STATUS) 14 = decide (n / 2 ^ 32 % 2 = 1) ∧
        Claims.number (t.bytes a 4) = n % 2 ^ 32 ∧
        Claims.number (t.bytes (a + 8) 8) = (s.reg (pA PWR_TIME_REF) + (s.now - s.reg (pA PWR_TIME_LATCH))).toNat ∧
        Claims.number (t.bytes (a + 20) 4) = r.inputAvg ∧ (∀ x, x < a ∨ a + 128 ≤ x → t.byte x = s.byte x) ∧
        t.fld (pA SHUT_INPUT) 15 0 = min r.inputMv 65535 ∧
        t.warden.power.frames = n + 1 ∧ t.warden.power.durations = [] ∧ t.cores = s.cores ∧ t.net = s.net := by
  have hbytes := bytes_of_mem (telemetryFrame_mem s r)
  have hpower := telemetryFrame_power s r
  refine ⟨_, exec_telemetryFrame hrun hrec r, fld_frameSeq s r, bit_frameEpoch s r, ?_, ?_, ?_, fun x hx => ?_, fld_frameInput s r,
    by rw [hpower], by rw [hpower], telemetryFrame_cores s r, telemetryFrame_net s r⟩
  · rw [hbytes]
    refine number_setBytes_part (i := 0) s _ (by rw [frameBytes_length]; decide) ?_ (Nat.mod_lt _ (by decide))
    rw [frameBytes_eq]
    rfl
  · rw [hbytes]
    refine number_setBytes_part s _ (by rw [frameBytes_length]; decide) ?_ (BitVec.isLt _)
    rw [frameBytes_eq]
    rfl
  · rw [hbytes]
    refine number_setBytes_part s _ (by rw [frameBytes_length]; decide) ?_ havg
    rw [frameBytes_eq]
    rfl
  · rw [byte, telemetryFrame_mem, ← byte, byte_setBytes, frameBytes_length]
    exact if_neg (by omega)

/-! ### PWR_CAP (R432) -/

/-- Its row in the map of registers. -/
def pwrCapRow : RegRow := ⟨.package, PWR_CAP, 1, 0, false, false, [⟨10, 0, .rw, .num 0x44c⟩]⟩

theorem act_pwrCap (s : State) (v mask : W64) (e : Env) :
    s.act (firstHit pwrCapRow 0) v mask e = s.capWrite ((v &&& mask).setWidth 32) := rfl

theorem lookup_pwrCap : lookup .package PWR_CAP = some (pwrCapRow, 0) := by decide +kernel

theorem pwrCap_fieldMask : pwrCapRow.fieldMask = span 10 0 := by decide

theorem exec_pwrCapWrite {s : State} {req : Requester} {v : W32} (h : Claims.Admitted s req (pA PWR_CAP))
    (hv : v &&& 0xFFFFF800 = 0) : exec (.pwrCapWrite req v) s = .next ((Claims.heard s req).capWrite v) := by
  have hwrite := command_narrow (r := pwrCapRow) (o := 0) (regionOf_package (by decide)) lookup_pwrCap h rfl fun i hi => by
    have hlow : i < 11 := lt_of_high_clear (v := v) hv hi
    rw [pwrCap_fieldMask, getLsbD_span_low (by decide) (Nat.le_of_lt_succ hlow)]
  rw [act_pwrCap, setWidth_word] at hwrite
  exact hwrite

/-- A cap brought into its range. -/
theorem fld_capWrite (s : State) {v : W32} (hv : v.toNat < 2048) : (s.capWrite v).fld (pA PWR_CAP) 10 0
    = if v.toNat < 500 then 500 else if 1200 < v.toNat then 1200 else v.toNat - v.toNat % 25 := by
  have hdown : v.toNat / 25 * 25 = v.toNat - v.toNat % 25 := by omega
  rw [capWrite, fld_setFld _ (by decide) (by decide), Nat.mod_eq_of_lt hv, hdown]
  apply Nat.mod_eq_of_lt
  split
  · decide
  · split
    · decide
    · omega

theorem pwrCap_takes_writes {s : State} {req : Requester} {v : W32} (h : Claims.Admitted s req (pA PWR_CAP))
    (hv : v &&& 0xFFFFF800 = 0) : Answers (.pwrCapWrite req v) s fun t =>
      t.fld (pA PWR_CAP) 10 0 = (if v.toNat < 500 then 500 else if 1200 < v.toNat then 1200 else v.toNat - v.toNat % 25) ∧
        (∀ x, x ≠ pA PWR_CAP → t.reg x = s.reg x) ∧ { t with regs := s.regs } = Claims.heard s req := by
  refine ⟨_, exec_pwrCapWrite h hv, fld_capWrite _ (toNat_lt_of_high_clear (k := 11) hv), fun x hx => ?_, rfl⟩
  rw [capWrite, reg_setFld, if_neg hx]
  rfl

/-! ### STHM_SUSPECT (R439) -/

/-- Its row in the map of registers. -/
def suspectRow : RegRow := ⟨.stack, STHM_SUSPECT, 1, 0, false, false, [⟨15, 0, .w1c, .num 0⟩]⟩

theorem act_suspect (s : State) (t : Nat) (v mask : W64) (e : Env) :
    s.act (firstHit suspectRow t) v mask e = s.suspectClear t ((v &&& mask).setWidth 32) := by
  unfold act actStack
  rfl

theorem lookup_suspect : lookup .stack STHM_SUSPECT = some (suspectRow, 0) := by decide +kernel

theorem suspect_fieldMask : suspectRow.fieldMask = span 15 0 := by decide

theorem exec_sthmSuspectClear {s : State} {req : Requester} {st : StackId} {v : W32}
    (h : Claims.Admitted s req (sA st.toNat STHM_SUSPECT)) (hv : v &&& 0xFFFF0000 = 0) :
    exec (.sthmSuspectClear req st v) s = .next ((Claims.heard s req).suspectClear st.toNat v) := by
  have hwrite := command_narrow (r := suspectRow) (o := st.toNat) (regionOf_stack st.isLt (by decide)) lookup_suspect h rfl
    fun i hi => by
      have hlow : i < 16 := lt_of_high_clear (v := v) hv hi
      rw [suspect_fieldMask, getLsbD_span_low (by decide) (Nat.le_of_lt_succ hlow)]
  rw [act_suspect, setWidth_word] at hwrite
  exact hwrite

/-- One suspect bit cleared: the request it raised is withdrawn, and its bench's count restarts. -/
def clearSuspect (t : Nat) (s : State) (b : Nat) : State :=
  ((if s.suspect t b then s.withdrawPkg (t + 17) else s).setBit (sA t STHM_SUSPECT) b false).modThermal t fun h =>
    { h with low := smSet 0 h.low b 0 }

theorem suspectClear_eq (s : State) (t : Nat) (v : W32) :
    s.suspectClear t v = ((List.range 16).filter fun b => v.getLsbD b).foldl (clearSuspect t) s := by
  rw [List.foldl_filter]
  rfl

/-- What clearing the suspect bits of a list leaves. -/
structure SuspectsCleared (t : Nat) (bs : List Nat) (s u : State) : Prop where
  mem : u.mem = s.mem
  others : ∀ x, x ≠ sA t STHM_SUSPECT → x ≠ pA ICP_PENDING0 → u.reg x = s.reg x
  pending : ∀ n, n ≠ t + 17 → Claims.pkgPending u n = Claims.pkgPending s n
  withdrawn : (Claims.pkgPending s (t + 17) = false ∨ ∃ b ∈ bs, s.suspect t b = true) → Claims.pkgPending u (t + 17) = false
  suspect : ∀ b, u.suspect t b = (s.suspect t b && decide (b ∉ bs))
  low : ∀ b, smGet 0 (u.stack t).thermal.low b = if b ∈ bs then 0 else smGet 0 (s.stack t).thermal.low b

theorem suspectsCleared_nil (t : Nat) (s : State) : SuspectsCleared t [] s s where
  mem := rfl
  others _ _ _ := rfl
  pending _ _ := rfl
  withdrawn h := h.resolve_right (by simp)
  suspect b := by simp
  low b := (if_neg List.not_mem_nil).symm

theorem pkgPending_withdrawPkg (s : State) (n m : Nat) :
    Claims.pkgPending (s.withdrawPkg n) m = (Claims.pkgPending s m && decide (m ≠ n)) := by
  have hplace : pA ICP_PENDING0 + 8 * (m / 64) = pA ICP_PENDING0 + 8 * (n / 64) ∧ m % 64 = n % 64 ↔ m = n := by omega
  rw [Claims.pkgPending, Claims.pkgPending, withdrawPkg, icpWord, bit_setBit _ _ _ _ _ _ (Nat.mod_lt _ (by decide))]
  simp only [hplace]
  by_cases h : m = n
  · simp [h]
  · simp [h]

/-- A stack's source lies in the first word of the package controller's (R423). -/
theorem reg_withdrawPkg_other (s : State) {t x : Nat} (ht : t < 16) (hx : x ≠ pA ICP_PENDING0) :
    (s.withdrawPkg (t + 17)).reg x = s.reg x := by
  have hword : icpWord ICP_PENDING0 (t + 17) = pA ICP_PENDING0 := by
    rw [icpWord, Nat.div_eq_of_lt (by omega)]
    rfl
  rw [withdrawPkg, reg_setBit, hword, if_neg hx]

section ClearSuspect

variable {t : Nat} (ht : t < 16) (s : State) (b : Nat)

theorem clearSuspect_mem : (clearSuspect t s b).mem = s.mem := by
  rw [clearSuspect, modThermal_mem, setBit_mem]
  split
  · exact withdrawPkg_mem ..
  · rfl

theorem low_clearSuspect (i : Nat) : smGet 0 ((clearSuspect t s b).stack t).thermal.low i
    = if i = b then 0 else smGet 0 (s.stack t).thermal.low i := by
  rw [clearSuspect, thermal_modThermal, if_pos rfl, smGet_smSet, setBit_stack]
  split
  · rfl
  · split
    · rw [withdrawPkg_stack]
    · rfl

include ht

theorem reg_clearSuspect_other {x : Nat} (hx : x ≠ sA t STHM_SUSPECT) (hp : x ≠ pA ICP_PENDING0) :
    (clearSuspect t s b).reg x = s.reg x := by
  rw [clearSuspect, modThermal_reg, reg_setBit, if_neg hx]
  split
  · exact reg_withdrawPkg_other s ht hp
  · rfl

theorem suspect_clearSuspect (hb : b < 64) (i : Nat) : (clearSuspect t s b).suspect t i = (s.suspect t i && decide (i ≠ b)) := by
  rw [suspect, clearSuspect, modThermal_bit, bit_setBit _ _ _ _ _ _ hb]
  by_cases hi : i = b
  · simp [hi]
  · have hkept : (if s.suspect t b then s.withdrawPkg (t + 17) else s).bit (sA t STHM_SUSPECT) i = s.suspect t i := by
      split
      · rw [bit_eq, reg_withdrawPkg_other s ht (sA_ne_pA ht (by decide) _), ← bit_eq, suspect]
      · rfl
    simp [hi, hkept]

theorem pkgPending_clearSuspect (n : Nat) : Claims.pkgPending (clearSuspect t s b) n
    = (Claims.pkgPending s n && !(s.suspect t b && decide (n = t + 17))) := by
  have hapart : pA ICP_PENDING0 + 8 * (n / 64) ≠ sA t STHM_SUSPECT := by
    rw [pA, Nat.add_assoc]
    exact (sA_ne_pA (off := STHM_SUSPECT) ht (by decide) _).symm
  rw [Claims.pkgPending, clearSuspect, modThermal_bit, bit_eq, reg_setBit, if_neg hapart, ← bit_eq, ← Claims.pkgPending]
  split
  · next hset => simp [pkgPending_withdrawPkg, hset]
  · next hclear => simp [hclear]

theorem suspectsCleared_one (hb : b < 64) : SuspectsCleared t [b] s (clearSuspect t s b) where
  mem := clearSuspect_mem s b
  others _ hx hp := reg_clearSuspect_other ht s b hx hp
  pending n hn := by simp [pkgPending_clearSuspect ht, hn]
  withdrawn h := by
    rw [pkgPending_clearSuspect ht]
    rcases h with hp | ⟨i, hi, hset⟩
    · rw [hp, Bool.false_and]
    · rw [List.mem_singleton.mp hi] at hset
      simp [hset]
  suspect i := by simp [suspect_clearSuspect ht s b hb]
  low i := by simp [low_clearSuspect]

end ClearSuspect

theorem SuspectsCleared.cons {t b : Nat} {bs : List Nat} {s u w : State} (h : SuspectsCleared t [b] s u)
    (k : SuspectsCleared t bs u w) : SuspectsCleared t (b :: bs) s w where
  mem := k.mem.trans h.mem
  others x hx hp := (k.others x hx hp).trans (h.others x hx hp)
  pending n hn := (k.pending n hn).trans (h.pending n hn)
  withdrawn hw := by
    refine k.withdrawn ?_
    rcases hw with hp | ⟨i, hi, hset⟩
    · exact .inl (h.withdrawn (.inl hp))
    by_cases hib : i = b
    · exact .inl (h.withdrawn (.inr ⟨i, List.mem_singleton.mpr hib, hset⟩))
    · refine .inr ⟨i, List.mem_of_ne_of_mem hib hi, ?_⟩
      rw [h.suspect, hset]
      simp [hib]
  suspect i := by
    rw [k.suspect, h.suspect]
    simp [Bool.and_assoc]
  low i := by
    rw [k.low, h.low]
    by_cases hi : i = b <;> simp [hi]

theorem suspectsCleared_foldl {t : Nat} (ht : t < 16) {bs : List Nat} (hbs : ∀ b ∈ bs, b < 64) (s : State) :
    SuspectsCleared t bs s (bs.foldl (clearSuspect t) s) := by
  induction bs generalizing s with
  | nil => exact suspectsCleared_nil t s
  | cons b bs ih =>
    obtain ⟨hb, hrest⟩ := List.forall_mem_cons.mp hbs
    exact (suspectsCleared_one ht s b hb).cons (ih hrest _)

/-- The clauses of a write of STHM_SUSPECT. -/
theorem suspect_takes_writes {s : State} {req : Requester} {st : StackId} {v : W32}
    (h : Claims.Admitted s req (sA st.toNat STHM_SUSPECT)) (hv : v &&& 0xFFFF0000 = 0) :
    Answers (.sthmSuspectClear req st v) s fun t => t.mem = s.mem ∧
      (∀ x, x ≠ sA st.toNat STHM_SUSPECT → x ≠ pA ICP_PENDING0 → t.reg x = s.reg x) ∧
      (∀ n, n < 1024 → n ≠ st.toNat + 17 → Claims.pkgPending t n = Claims.pkgPending s n) ∧
      ((∃ b, b < 16 ∧ s.bit (sA st.toNat STHM_SUSPECT) b = true ∧ v.getLsbD b = true) →
        Claims.pkgPending t (st.toNat + 17) = false) ∧
      ∀ b, b < 16 → t.bit (sA st.toNat STHM_SUSPECT) b = (s.bit (sA st.toNat STHM_SUSPECT) b && !v.getLsbD b) ∧
        (v.getLsbD b = true → smGet 0 (t.stack st.toNat).thermal.low b = 0) := by
  have hmem (b : Nat) : b ∈ (List.range 16).filter (fun b => v.getLsbD b) ↔ b < 16 ∧ v.getLsbD b = true := by
    rw [List.mem_filter, List.mem_range]
  refine ⟨_, exec_sthmSuspectClear h hv, ?_⟩
  rw [suspectClear_eq]
  obtain ⟨hmemory, hothers, hpending, hwithdrawn, hsuspect, hlow⟩ := suspectsCleared_foldl st.isLt
    (fun b hb => ((hmem b).mp hb).1.trans (by decide)) (Claims.heard s req)
  refine ⟨hmemory, hothers, fun n _ hn => hpending n hn,
    fun ⟨b, hb, hset, hvb⟩ => hwithdrawn (.inr ⟨b, (hmem b).mpr ⟨hb, hvb⟩, hset⟩),
    fun b hb => ⟨(hsuspect b).trans ?_, fun hvb => (hlow b).trans (if_pos ((hmem b).mpr ⟨hb, hvb⟩))⟩⟩
  have hkept : decide (b ∉ (List.range 16).filter fun b => v.getLsbD b) = !v.getLsbD b := by simp [hb]
  rw [hkept]
  rfl

theorem powerRegistersTakeTheirWrites : Clauses.PowerRegistersTakeTheirWrites :=
  fun _ _ => ⟨fun _ h hv => pwrCap_takes_writes h hv, fun _ _ h hv => suspect_takes_writes h hv⟩

/-! ### PWR_TIME_REF (R443) -/

/-- Its row in the map of registers. -/
def timeRefRow : RegRow := ⟨.package, PWR_TIME_REF, 1, 0, true, false, [⟨63, 0, .rw, .num 0⟩]⟩

theorem timeRef_written (old v mask : W64) : timeRefRow.written old v mask = (old &&& ~~~mask) ||| (v &&& mask) := by
  have hall : span 63 0 &&& mask = mask := by
    rw [show span 63 0 = BitVec.allOnes 64 by decide, BitVec.allOnes_and]
  rw [RegRow.written_eq]
  simp only [timeRefRow, List.foldl_cons, List.foldl_nil, RegField.written, hall]

theorem act_timeRef (s : State) (v mask : W64) (e : Env) : s.act (firstHit timeRefRow 0) v mask e
    = s.timeRefWrite ((s.reg (pA PWR_TIME_REF) &&& ~~~mask) ||| (v &&& mask)) := by
  rw [← timeRef_written]
  rfl

theorem lookup_timeRef_high : lookup .package (PWR_TIME_REF + 4) = some (timeRefRow, 0) := by decide +kernel

/-- No bit of it is reserved. -/
theorem timeRef_accepts (v mask : W64) : timeRefRow.reservedSet v mask = false := by
  refine reservedSet_eq_false fun i hi _ => ?_
  have h64 : i < 64 := BitVec.lt_of_getLsbD hi
  rw [show timeRefRow.fieldMask = span 63 0 by decide, getLsbD_span_low (by decide) (Nat.le_of_lt_succ h64)]

/-- A high half written with nothing held leaves the low half as it is. -/
theorem timeRef_written_high (old v : W64) : (old &&& ~~~(0xFFFFFFFF00000000 : W64)) ||| (v <<< 32 &&& (0xFFFFFFFF00000000 : W64))
    = v <<< 32 ||| (old.setWidth 32).setWidth 64 := by
  apply BitVec.eq_of_getLsbD_eq
  intro i hi
  rw [show (0xFFFFFFFF00000000 : W64) = span 63 32 by decide]
  simp only [BitVec.getLsbD_or, BitVec.getLsbD_and, BitVec.getLsbD_not, getLsbD_span, BitVec.getLsbD_shiftLeft,
    BitVec.getLsbD_setWidth]
  by_cases h32 : i < 32
  · simp [hi, h32]
  · simp [hi, h32, Nat.le_of_not_lt h32]

/-- The high half written takes effect with the low half: the one held, or the register's own (R9). -/
theorem exec_pwrTimeRefWrite {s : State} {req : Requester} {high low : W32} (h : Claims.Admitted s req (pA PWR_TIME_REF))
    (hlow : Claims.holds s req (pA PWR_TIME_REF) false low ∨
      (Claims.NoHalf s req ∧ low = (s.reg (pA PWR_TIME_REF)).setWidth 32)) :
    exec (.pwrTimeRefWrite req high) s
      = .next ((Claims.heard s req).timeRefWrite (high.setWidth 64 <<< 32 ||| low.setWidth 64)) := by
  have hr : regionOf (pA PWR_TIME_REF + 4) = some (.package, 0, PWR_TIME_REF + 4) :=
    regionOf_package (off := PWR_TIME_REF + 4) (by decide)
  have hacc : s.accessible req (pA PWR_TIME_REF + 4) = true :=
    (accessible_package (m := PWR_TIME_REF + 4) (by decide) (by decide)).trans h.1
  have hm : s.mayWrite req .package 0 ((firstHit timeRefRow 0).base - Region.package.base 0) = true :=
    firstHit_offset timeRefRow 0 ▸ mayWrite_of_admitted h (regionOf_package (by decide))
  have hk : accessKind (firstHit timeRefRow 0) (pA PWR_TIME_REF + 4) 4 = 3 := by
    simp [accessKind, firstHit, timeRefRow, pA, Region.base]
  have hwrite := command_highHalf (v := high.setWidth 64) (e := Env.none) hr (findReg_first (r := timeRefRow) hr lookup_timeRef_high)
    hacc hm hk (timeRef_accepts _ _)
  refine hwrite.trans (congrArg _ ?_)
  rcases hlow with hheld | ⟨halone, rfl⟩
  · rw [show s.half req (firstHit timeRefRow 0).base false = some low from half_of_holds hheld, Option.elim, act_timeRef]
    rw [show (~~~0 : W64) = BitVec.allOnes 64 by decide, BitVec.and_allOnes, BitVec.not_allOnes, BitVec.and_zero, BitVec.zero_or]
  · rw [half_of_noHalf halone, Option.elim, act_timeRef, timeRef_written_high]
    rfl

/-- The clauses of a write of PWR_TIME_REF's high half. -/
theorem timeRef_takes_high {s : State} {req : Requester} {high low : W32} (h : Claims.Admitted s req (pA PWR_TIME_REF))
    (hlow : Claims.holds s req (pA PWR_TIME_REF) false low ∨
      (Claims.NoHalf s req ∧ low = (s.reg (pA PWR_TIME_REF)).setWidth 32)) :
    Answers (.pwrTimeRefWrite req high) s fun t => t.reg (pA PWR_TIME_REF) = high.setWidth 64 <<< 32 ||| low.setWidth 64 ∧
      t.reg (pA PWR_TIME_LATCH) = s.now ∧ t.warden.power.timeSet = true ∧ Claims.NoHalf t req ∧ t.mem = s.mem ∧ t.cores = s.cores ∧
      ∀ x, x ≠ pA PWR_TIME_REF → x ≠ pA PWR_TIME_LATCH → t.reg x = s.reg x := by
  have hapart : pA PWR_TIME_REF ≠ pA PWR_TIME_LATCH := by rw [Ne, pA_inj]; decide
  refine ⟨_, exec_pwrTimeRefWrite h hlow, ?_, ?_, rfl, noHalf_heard s req, rfl, rfl, fun x hx hl => ?_⟩
  · rw [timeRefWrite, modPower_reg, reg_setReg, if_neg hapart, reg_setReg, if_pos rfl]
  · rw [timeRefWrite, modPower_reg, reg_setReg, if_pos rfl]
    rfl
  · rw [timeRefWrite, modPower_reg, reg_setReg, if_neg hl, reg_setReg, if_neg hx]
    rfl

theorem framesCarryTheTime : Clauses.FramesCarryTheTime := fun _ =>
  ⟨fun hrun hrec _ havg => telemetryFrame_carries hrun hrec havg, fun _ _ _ h hlow => timeRef_takes_high h hlow⟩

/-! ### The statement -/

/-- Settles O49, from a core's stretch and its end, a frame and the wall time it carries, and the registers that the host writes. -/
theorem droopsFramesAndPowerRegisters : Obligations.DroopsFramesAndPowerRegisters :=
  ⟨droopsStretchTheClock, framesCarryTheTime, powerRegistersTakeTheirWrites⟩

end Sys2Proof.Machine
end

section
/-! SUPPORT. Bring-up commands (R453): what a write of BRG_COMMAND with GO does, and what one while a step is in progress still
writes. -/

namespace Sys2Proof.Machine

open State

/-! ### BRG_COMMAND: GO W1S, FULL and STEP RW -/

/-- Its row in the map of registers. -/
def brgCommandRow : RegRow :=
  ⟨.package, BRG_COMMAND, 1, 0, false, false, [⟨31, 31, .w1s, .num 0⟩, ⟨8, 8, .rw, .num 0⟩, ⟨2, 0, .rw, .num 0⟩]⟩

theorem lookup_brgCommand : lookup .package BRG_COMMAND = some (brgCommandRow, 0) := by decide +kernel

theorem brgCommand_written (old v mask : W64) : brgCommandRow.written old v mask
    = RegField.written ⟨2, 0, .rw, .num 0⟩ v mask
        (RegField.written ⟨8, 8, .rw, .num 0⟩ v mask (RegField.written ⟨31, 31, .w1s, .num 0⟩ v mask old)) :=
  brgCommandRow.written_eq old v mask

/-- STEP is RW: it holds what was written last. -/
theorem bits_brgCommand_step (old v : W64) : bits (brgCommandRow.written old v 0xFFFFFFFF) 2 0 = bits v 2 0 := by
  apply Nat.eq_of_testBit_eq
  intro i
  rw [testBit_bits, testBit_bits, brgCommand_written, getLsbD_rw_written rfl, getLsbD_span, getLsbD_word, Nat.zero_add]
  by_cases hi : i < 3
  · have h32 : i < 32 := by omega
    have h64 : i < 64 := by omega
    simp [hi, h32, h64]
  · simp [hi]

theorem act_brgCommand (s : State) (v mask : W64) (e : Env) : s.act (firstHit brgCommandRow 0) v mask e
    = let put := s.setReg (pA BRG_COMMAND) (brgCommandRow.written (s.reg (pA BRG_COMMAND)) v mask)
      if (v &&& mask).getLsbD 31 then (put.setBit (pA BRG_COMMAND) 31 false).brgCommand (v &&& mask) e.tests else put := rfl

/-- A GO before READY, or while BUSY, starts no step; the write has set the register's own fields all the same. -/
theorem act_brgCommand_held {s : State} (h : s.bit (pA BRG_STATUS) 31 = false ∨ s.bit (pA BRG_STATUS) 30 = true) {v : W64}
    (hgo : (v &&& 0xFFFFFFFF).getLsbD 31 = true) (e : Env) : s.act (firstHit brgCommandRow 0) v 0xFFFFFFFF e
      = (s.setReg (pA BRG_COMMAND) (brgCommandRow.written (s.reg (pA BRG_COMMAND)) v 0xFFFFFFFF)).setBit (pA BRG_COMMAND) 31 false := by
  have hother : pA BRG_STATUS ≠ pA BRG_COMMAND := by rw [Ne, pA_inj]; decide
  rw [act_brgCommand, if_pos hgo]
  refine if_pos ?_
  simpa [bit_eq, hother] using h

/-! ### The commands of the bring-up steps -/

theorem brgGo_fields : ∀ n < 6, ∀ full : Bool, brgCommandRow.reservedSet (brgGo n full &&& 0xFFFFFFFF) 0xFFFFFFFF = false ∧
    (brgGo n full &&& 0xFFFFFFFF &&& 0xFFFFFFFF).getLsbD 31 = true ∧ bits (brgGo n full &&& 0xFFFFFFFF) 2 0 = n := by
  decide

/-- Each step's command writes BRG_COMMAND with GO and its number, with the results of the step's tests. -/
theorem exec_bringup {req : Requester} {full : Bool} {r : TestResults} {p : Instr × Nat} (hp : p ∈ Claims.bringup req full r) :
    p.2 < 6 ∧ ∃ e, ∀ s, exec p.1 s = s.command req (pA BRG_COMMAND) 4 (brgGo p.2 full) e := by
  simp only [Claims.bringup, List.mem_cons, List.not_mem_nil, or_false] at hp
  rcases hp with rfl | rfl | rfl | rfl | rfl
  all_goals exact ⟨by omega, _, fun _ => rfl⟩

theorem exec_bringup_admitted {s : State} {req : Requester} {full : Bool} {r : TestResults} {p : Instr × Nat}
    (hadm : Claims.Admitted s req (pA BRG_COMMAND)) (hp : p ∈ Claims.bringup req full r) :
    ∃ e, exec p.1 s
      = .next ((Claims.heard s req).act (firstHit brgCommandRow 0) (brgGo p.2 full &&& 0xFFFFFFFF) 0xFFFFFFFF e) := by
  obtain ⟨hn, e, hexec⟩ := exec_bringup hp
  have hr : regionOf (pA BRG_COMMAND) = some (.package, 0, BRG_COMMAND) := regionOf_package (by decide)
  have hf : findReg (pA BRG_COMMAND) = some (firstHit brgCommandRow 0) := findReg_first (r := brgCommandRow) hr lookup_brgCommand
  have hk : accessKind (firstHit brgCommandRow 0) (pA BRG_COMMAND) 4 = 1 := by
    simp [accessKind, firstHit, brgCommandRow, pA, Region.base]
  have hm : s.mayWrite req .package 0 ((firstHit brgCommandRow 0).base - Region.package.base 0) = true :=
    firstHit_offset brgCommandRow 0 ▸ mayWrite_of_admitted hadm hr
  refine ⟨e, ?_⟩
  rw [hexec s, command_whole hadm.1 hr hf hk hm (brgGo_fields p.2 hn full).1, dropHalves_none, if_pos rfl]
  rfl

/-- A bring-up command that comes before READY, or while a step is in progress, starts nothing, but its write of BRG_COMMAND is made
as any: STEP names its step afterwards. -/
theorem bringup_held_writes_step {s : State} {req : Requester} {full : Bool} {r : TestResults} {p : Instr × Nat}
    (hadm : Claims.Admitted s req (pA BRG_COMMAND)) (hp : p ∈ Claims.bringup req full r)
    (hheld : s.bit (pA BRG_STATUS) 31 = false ∨ s.bit (pA BRG_STATUS) 30 = true) :
    Answers p.1 s fun t => t.fld (pA BRG_COMMAND) 2 0 = p.2 ∧ ∀ x, x ≠ pA BRG_COMMAND → t.reg x = s.reg x := by
  obtain ⟨e, hexec⟩ := exec_bringup_admitted hadm hp
  obtain ⟨-, hgo, hstep⟩ := brgGo_fields p.2 (exec_bringup hp).1 full
  rw [act_brgCommand_held (s := Claims.heard s req) hheld hgo e] at hexec
  refine ⟨_, hexec, ?_, fun x hx => ?_⟩
  · rw [setBit, fld_setFld_apart _ (by decide) (by decide) (by decide), fld, reg_setReg, if_pos rfl, bits_brgCommand_step]
    exact hstep
  · rw [reg_setBit, if_neg hx, reg_setReg, if_neg hx]
    rfl

/-! ### The statement -/

/-- A booted module with bring-up step 1 in progress. -/
def clocksInProgress : State :=
  { State.reset with
    regs := [(pA BRG_STATUS, 0xC0000000)],
    warden := { State.reset.warden with
      booted := true, stewardOk := true, step := some 1, pins := { State.reset.warden.pins with perst := false } } }

theorem admitted_clocksInProgress : Claims.Admitted clocksInProgress .host (pA BRG_COMMAND) :=
  ⟨by decide +kernel, .package, 0, BRG_COMMAND, regionOf_package (by decide), by decide +kernel⟩

/-- Refutes O52: its first clause has the module as it was after a GO while BUSY, but for the halves held by the requester. STEP and
FULL of BRG_COMMAND are RW and the same write sets them: with step 1 in progress, the host's MEMORY leaves STEP 2 where it was 0. -/
theorem not_bringUpRunsAndBuilds : ¬ Obligations.BringUpRunsAndBuilds := by
  unfold Obligations.BringUpRunsAndBuilds
  rintro ⟨hsteps, -⟩
  have hmem : ((.memory .host false TestResults.good, 2) : Instr × Nat) ∈ Claims.bringup .host false TestResults.good := by
    simp [Claims.bringup]
  have hbusy : clocksInProgress.bit (pA BRG_STATUS) 30 = true := by decide +kernel
  obtain ⟨hgo, -⟩ := hsteps .host false TestResults.good clocksInProgress admitted_clocksInProgress (by decide)
  obtain ⟨hignored, -⟩ := hgo _ hmem
  obtain ⟨t, hnext, hstep, -⟩ := bringup_held_writes_step admitted_clocksInProgress hmem (.inr hbusy)
  have hsame : Claims.heard clocksInProgress .host = t := Host.Outcome.next.inj ((hignored (.inr hbusy)).symm.trans hnext)
  have hzero : (Claims.heard clocksInProgress .host).fld (pA BRG_COMMAND) 2 0 = 0 := by decide +kernel
  rw [← hsame, hzero] at hstep
  exact absurd hstep (by decide)

end Sys2Proof.Machine
end

section
/-! SUPPORT. The management bus (R505, R506), and what the standby domain and the records keep (R503, R507, R512, R526). -/

namespace Sys2Proof.Machine

open State

/-! ### Transfers on the bus -/

theorem busUp_iff (s : State) : s.busUp = true ↔ s.warden.pins.vaux = true ∧ s.warden.stopped ≠ 2 := by
  simp [busUp]

theorem onBus_request {s : State} {r : BusRequest} (hup : s.busUp = true) (haddr : r.address = 0x63) (f : State → State) :
    s.onBus r f = f s := by
  simp [onBus, hup, haddr]

/-- The Alert Response Address answers with the module's own while ALERT# is asserted (R505). -/
theorem onBus_alert {s : State} {r : BusRequest} (hup : s.busUp = true) (haddr : r.address = 0x0C) (halert : s.alertPin = true)
    (f : State → State) : s.onBus r f = s.busAnswer r.tag [0xC6] := by
  simp [onBus, hup, haddr, halert]

/-- A bus that is not served, or an address that is not answered: the transfer does nothing. -/
theorem onBus_silent {s : State} {r : BusRequest}
    (h : ¬ s.busUp = true ∨ (r.address ≠ 0x63 ∧ (r.address = 0x0C → s.alertPin = false))) (f : State → State) :
    s.onBus r f = s := by
  rcases h with hdown | ⟨hother, hquiet⟩
  · simp [onBus, hdown]
  · by_cases halert : r.address = 0x0C
    · simp [onBus, halert, hquiet halert]
    · rw [onBus, if_neg halert, if_neg hother, ite_self]

/-- The three kinds of request are transfers, and each answers what would change the module's state as unsupported (R506). -/
theorem exec_busRequest {r : BusRequest} {i : Instr} (hi : i ∈ [Instr.mctpControl r, .pldmRequest r, .vendorFrameRequest r]) :
    ∃ f : State → State, (∀ s, exec i s = .next (s.onBus r f)) ∧
      (r.changesState = true → ∀ s, f s = s.busAnswer r.tag [0x05]) := by
  simp only [List.mem_cons, List.not_mem_nil, or_false] at hi
  rcases hi with rfl | rfl | rfl
  · exact ⟨_, fun _ => rfl, fun h _ => if_pos h⟩
  · exact ⟨_, fun _ => rfl, fun h _ => if_pos h⟩
  · exact ⟨_, fun _ => rfl, fun h _ => if_pos (.inr h)⟩

/-- An answer on the bus changes nothing else. -/
theorem answers_bus {i : Instr} {s : State} {tag : Nat} {bs : List Byte} (h : exec i s = .next (s.busAnswer tag bs)) :
    Answers i s fun t => Claims.BusAnswered s t tag bs := ⟨_, h, rfl, rfl⟩

theorem exec_mctpControl {s t : State} {r : BusRequest} (h : s.mctp r = t) : exec (.mctpControl r) s = .next t :=
  congrArg _ h

/-! ### Requests that read, and the endpoint ID -/

section Requests

variable {s : State} {r : BusRequest} (hup : s.busUp = true) (haddr : r.address = 0x63) (hread : r.changesState = false)
include hup haddr hread

theorem mctp_setEid (hcmd : r.command = 1) :
    s.mctp r = (s.modWarden fun w => { w with eid := r.eid }).busAnswer r.tag [0x00, 0x00, r.eid, 0x00] := by
  simp [mctp, onBus_request hup haddr, hread, hcmd]

theorem mctp_getEid (hcmd : r.command = 2) : s.mctp r = s.busAnswer r.tag [0x00, s.warden.eid, 0x00, 0x00] := by
  simp [mctp, onBus_request hup haddr, hread, hcmd]

theorem mctp_uuid (hcmd : r.command = 3) : s.mctp r = s.takeFree.2.takeFree.2.busAnswer r.tag
    (0x00 :: leBytes 8 s.takeFree.1.toNat ++ leBytes 8 s.takeFree.2.takeFree.1.toNat) := by
  simp [mctp, onBus_request hup haddr, hread, hcmd]

theorem mctp_version (hcmd : r.command = 4) :
    s.mctp r = s.takeFree.2.busAnswer r.tag (0x00 :: 0x01 :: leBytes 4 (s.takeFree.1.toNat % 2 ^ 32)) := by
  simp [mctp, onBus_request hup haddr, hread, hcmd]

theorem mctp_types (hcmd : r.command = 5) : s.mctp r = s.busAnswer r.tag [0x00, 0x03, 0x00, 0x01, 0x7E] := by
  simp [mctp, onBus_request hup haddr, hread, hcmd]

theorem mctp_unsupported (hcmd : r.command = 0 ∨ 5 < r.command) : s.mctp r = s.busAnswer r.tag [0x05] := by
  rw [mctp, onBus_request hup haddr, if_neg (by rw [hread]; exact Bool.false_ne_true)]
  split
  case h_6 => rfl
  all_goals omega

/-- What identifies the module is answered with a completion code of 0 and bytes that the model leaves free. -/
theorem mctp_identifies (hcmd : r.command = 3 ∨ r.command = 4) : Answers (.mctpControl r) s fun t =>
    ∃ bs, bs.length = (if r.command = 3 then 17 else 6) ∧ bs.head? = some 0x00 ∧
      Claims.BusAnswered { s with freeCtr := t.freeCtr } t r.tag bs := by
  rcases hcmd with hcmd | hcmd
  · refine ⟨_, exec_mctpControl (mctp_uuid hup haddr hread hcmd), _, ?_, rfl, rfl, rfl⟩
    simp [hcmd, leBytes_length]
  · refine ⟨_, exec_mctpControl (mctp_version hup haddr hread hcmd), _, ?_, rfl, rfl, rfl⟩
    simp [hcmd, leBytes_length]

/-- A numeric sensor is bytes of the latest frame. -/
theorem pldm_numeric (hsensor : r.sensor < 0x80) :
    s.pldm r = s.busAnswer r.tag (0x00 :: ((Claims.latestFrame s).drop r.sensor).take r.length) := by
  have hnumeric : ¬ 0x80 ≤ r.sensor := by omega
  simp only [pldm, onBus_request hup haddr, hread, hnumeric, Bool.false_eq_true, if_false]
  rfl

/-- State sensor 0x81 is the thermal trip (log entry 150). -/
theorem pldm_thermtrip (hsensor : r.sensor = 0x81) :
    s.pldm r = s.busAnswer r.tag [0x00, if s.warden.pins.thermtrip then 1 else 0] := by
  simp [pldm, onBus_request hup haddr, hread, hsensor]

theorem vendorFrame_latest (hcmd : r.command = 1) : s.vendorFrame r = s.busAnswer r.tag (Claims.latestFrame s) := by
  simp only [vendorFrame, onBus_request hup haddr, hread, hcmd, ne_eq, not_true_eq_false, Bool.false_eq_true, or_self, if_false]
  rfl

omit hread in
theorem vendorFrame_unsupported (hcmd : r.command ≠ 1) : s.vendorFrame r = s.busAnswer r.tag [0x05] := by
  rw [vendorFrame, onBus_request hup haddr, if_pos (.inl hcmd)]

end Requests

theorem theBusAnswersWithoutEffect : Clauses.TheBusAnswersWithoutEffect := by
  intro r s
  simp only [← busUp_iff]
  refine ⟨fun hup => ⟨fun haddr => ⟨fun hchange i hi => ?_, fun hread => ⟨?_, ?_, ?_, ?_, ?_, ?_, ?_, ?_, ?_⟩⟩,
    fun haddr halert i hi => ?_⟩, fun hsilent => ?_⟩
  · obtain ⟨f, hexec, hrefused⟩ := exec_busRequest hi
    exact answers_bus (by rw [hexec, onBus_request hup haddr, hrefused hchange])
  · exact fun hcmd => ⟨_, exec_mctpControl (mctp_setEid hup haddr hread hcmd), rfl, rfl⟩
  · exact fun hcmd => answers_bus (exec_mctpControl (mctp_getEid hup haddr hread hcmd))
  · exact mctp_identifies hup haddr hread
  · exact fun hcmd => answers_bus (exec_mctpControl (mctp_types hup haddr hread hcmd))
  · exact fun hcmd => answers_bus (exec_mctpControl (mctp_unsupported hup haddr hread hcmd))
  · exact fun hsensor => answers_bus (congrArg _ (pldm_numeric hup haddr hread hsensor))
  · exact fun hsensor => answers_bus (congrArg _ (pldm_thermtrip hup haddr hread hsensor))
  · exact fun hcmd => answers_bus (congrArg _ (vendorFrame_latest hup haddr hread hcmd))
  · exact fun hcmd => answers_bus (congrArg _ (vendorFrame_unsupported hup haddr hcmd))
  · obtain ⟨f, hexec, -⟩ := exec_busRequest hi
    exact answers_bus (by rw [hexec, onBus_alert hup haddr halert])
  · exact ⟨congrArg _ (onBus_silent hsilent _), congrArg _ (onBus_silent hsilent _), congrArg _ (onBus_silent hsilent _)⟩

/-! ### HOLDCAP (R503, R507) -/

/-- The registers that a measurement sets. -/
theorem reg_holdcap (s : State) (mv cap : W16) (a : Nat) : (s.holdcap mv cap).reg a
    = if a = pA SHUT_STATUS then putBits (putBits (s.reg (pA SHUT_STATUS)) 0 0
          (if decide (15000 ≤ mv.toNat) && decide (300 ≤ cap.toNat) then 1 else 0)) 7 7
        (if decide (cap.toNat < 300) then 1 else 0)
      else if a = pA SHUT_HOLDCAP then BitVec.ofNat 64 (cap.toNat * 65536 + mv.toNat) else s.reg a := by
  have hapart : pA SHUT_STATUS ≠ pA SHUT_HOLDCAP := by rw [Ne, pA_inj]; decide
  simp only [holdcap, reg_setBit, reg_setReg, if_true, if_neg hapart]
  split <;> rfl

theorem holdcap_measures (s : State) (mv cap : W16) :
    (s.holdcap mv cap).fld (pA SHUT_HOLDCAP) 15 0 = mv.toNat ∧ (s.holdcap mv cap).fld (pA SHUT_HOLDCAP) 31 16 = cap.toNat := by
  have hapart : pA SHUT_HOLDCAP ≠ pA SHUT_STATUS := by rw [Ne, pA_inj]; decide
  have hmv : mv.toNat < 65536 := mv.isLt
  have hcap : cap.toNat < 65536 := cap.isLt
  rw [fld, fld, reg_holdcap, if_neg hapart, if_pos rfl, bits, bits, BitVec.toNat_ofNat]
  omega

theorem holdcap_arms (s : State) (mv cap : W16) :
    (s.holdcap mv cap).bit (pA SHUT_STATUS) 0 = (decide (15000 ≤ mv.toNat) && decide (300 ≤ cap.toNat)) ∧
      (s.holdcap mv cap).bit (pA SHUT_STATUS) 7 = decide (cap.toNat < 300) := by
  simp only [holdcap, bit_setBit _ _ _ _ _ _ (show 0 < 64 by decide), bit_setBit _ _ _ _ _ _ (show 7 < 64 by decide)]
  simp

/-- Below 6.0 V SHUTTER_DONE goes; nothing else changes. -/
theorem holdcapFalls_keeps (s : State) (mv : W16) : (s.holdcapFalls mv).regs = s.regs ∧
    (s.holdcapFalls mv).warden.pins.shutterDone = (s.warden.pins.shutterDone && decide (6000 ≤ mv.toNat)) ∧
    { s.holdcapFalls mv with warden := s.warden } = s := by
  unfold holdcapFalls
  split
  · next hlow => exact ⟨rfl, by simp [hlow], rfl⟩
  · next hhigh => exact ⟨rfl, by simp [Nat.not_lt.mp hhigh], rfl⟩

theorem exec_holdcapMeasure_running {s : State} (hrun : s.warden.stopped ≠ 2) (mv cap : W16) :
    exec (.holdcapMeasure mv cap) s = .next (s.holdcap mv cap) := congrArg _ (if_neg hrun)

theorem exec_holdcapMeasure_stopped {s : State} (hstop : s.warden.stopped = 2) (mv cap : W16) :
    exec (.holdcapMeasure mv cap) s = .next (s.holdcapFalls mv) := congrArg _ (if_pos hstop)

/-! ### SHUT_CONTROL (R512) -/

/-- Its row in the map of registers. -/
def shutControlRow : RegRow := ⟨.package, SHUT_CONTROL, 1, 0, false, false, [⟨0, 0, .w1s, .num 0⟩]⟩

theorem lookup_shutControl : lookup .package SHUT_CONTROL = some (shutControlRow, 0) := by decide +kernel

theorem act_shutControl (s : State) (v mask : W64) (e : Env) :
    s.act (firstHit shutControlRow 0) v mask e = if (v &&& mask).getLsbD 0 then s.shutClear else s := rfl

theorem exec_shutControlClear {s : State} {req : Requester} (h : Claims.Admitted s req (pA SHUT_CONTROL)) :
    exec (.shutControlClear req) s = .next (Claims.heard s req).shutClear := by
  have hwrite := command_narrow (r := shutControlRow) (o := 0) (v := 1) (regionOf_package (by decide)) lookup_shutControl h rfl
    fun i hi => by
      obtain rfl : i = 0 := Nat.lt_one_iff.mp (lt_of_high_clear (v := 1) (by decide) hi)
      decide
  rw [act_shutControl, if_pos (by decide)] at hwrite
  exact hwrite

/-- CLEAR marks the record of the last save read, and withdraws what SHUT_STATUS says of it. -/
theorem shutClear_clears (s : State) : s.shutClear.bit (pA SHUT_STATUS) 1 = false ∧ s.shutClear.fld (pA SHUT_STATUS) 3 2 = 0 ∧
    (if s.mramLater then s.shutClear.warden.flash.mramB else s.shutClear.warden.flash.mramA).cleared = true ∧
    s.shutClear.mem = s.mem ∧ s.shutClear.cores = s.cores := by
  have hlater : ((s.setBit (pA SHUT_STATUS) 1 false).setFld (pA SHUT_STATUS) 3 2 0).mramLater = s.mramLater := rfl
  refine ⟨?_, ?_, ?_, rfl, rfl⟩
  · rw [shutClear, modFlash_bit, bit, fld_setFld_apart _ (by decide) (by decide) (by decide), ← bit,
      bit_setBit _ _ _ _ _ _ (by decide), if_pos ⟨rfl, rfl⟩]
  · rw [shutClear, modFlash_fld, fld_setFld _ (by decide) (by decide)]
    rfl
  · simp only [shutClear, hlater, warden_modFlash]
    cases s.mramLater <;> rfl

/-! ### EVT_TAIL (R526) -/

/-- Its row in the map of registers. -/
def evtTailRow : RegRow := ⟨.package, EVT_TAIL, 1, 0, false, false, [⟨16, 0, .rw, .num 0⟩]⟩

theorem lookup_evtTail : lookup .package EVT_TAIL = some (evtTailRow, 0) := by decide +kernel

theorem evtTail_fieldMask : evtTailRow.fieldMask = span 16 0 := by decide

theorem act_evtTail (s : State) (v mask : W64) (e : Env) :
    s.act (firstHit evtTailRow 0) v mask e = s.evtTail (bits (v &&& mask) 16 0) := rfl

theorem exec_evtTailWrite {s : State} {req : Requester} {v : W32} (h : Claims.Admitted s req (pA EVT_TAIL))
    (hv : v &&& 0xFFFE0000 = 0) : exec (.evtTailWrite req v) s = .next ((Claims.heard s req).evtTail v.toNat) := by
  have hwrite := command_narrow (r := evtTailRow) (o := 0) (regionOf_package (by decide)) lookup_evtTail h rfl fun i hi => by
    have hlow : i < 17 := lt_of_high_clear (v := v) hv hi
    rw [evtTail_fieldMask, getLsbD_span_low (by decide) (Nat.le_of_lt_succ hlow)]
  have hbits : bits (v.setWidth 64 &&& 0xFFFFFFFF) 16 0 = v.toNat := by
    rw [setWidth_and_word, bits, BitVec.toNat_setWidth_of_le (by decide), pow_zero, Nat.div_one]
    exact Nat.mod_eq_of_lt (toNat_lt_of_high_clear (k := 17) hv)
  rw [act_evtTail, hbits] at hwrite
  exact hwrite

/-- The tail moves unless that leaves more than 65,536 records unread. -/
theorem evtTail_moves (s : State) {v : Nat} (hv : v < 2 ^ 17) :
    (s.evtTail v).fld (pA EVT_TAIL) 16 0 = (if (s.fld (pA EVT_HEAD) 16 0 + 2 ^ 17 - v) % 2 ^ 17 ≤ 65536 then v
      else s.fld (pA EVT_TAIL) 16 0) ∧
    (∀ a, a ≠ pA EVT_TAIL → (s.evtTail v).reg a = s.reg a) ∧ { s.evtTail v with regs := s.regs } = s := by
  rw [evtTail, Nat.mod_eq_of_lt hv]
  split
  · next hmany => exact ⟨(if_neg (Nat.not_le.mpr hmany)).symm, fun _ _ => rfl, rfl⟩
  · next hfits =>
    rw [if_pos (Nat.not_lt.mp hfits), fld_setFld _ (by decide) (by decide)]
    exact ⟨Nat.mod_eq_of_lt hv, fun a ha => by rw [reg_setFld, if_neg ha], rfl⟩

/-! ### The standby domain lost (R503) -/

/-- A register taken out of the map reads its reset value. -/
theorem reg_erased (s : State) (a d : Nat) :
    ({ s with regs := s.regs.filter fun p => p.1 ≠ a } : State).reg d = if d = a then regDefault d else s.reg d := by
  rw [reg, ← smErase_eq_filter, smGet_smErase]
  rfl

theorem regDefault_thmTrip : regDefault (pA THM_TRIP) = 0 := by decide +kernel

theorem exec_vaux12Loss_running {s : State} (hperst : s.warden.pins.perst = false) (hrun : s.warden.stopped ≠ 2) :
    exec .vaux12Loss s = .next s := congrArg _ (if_pos (by simp [hperst, hrun]))

/-- The standby domain off. -/
def standbyLost (s : State) : State :=
  s.modWarden fun w =>
    { w with stopped := 2, eid := 0, pins := { w.pins with vaux := false, thermtrip := false, pwrgdIn := false } }

theorem exec_vaux12Loss_idle {s : State} (h : s.warden.pins.perst = true ∨ s.warden.stopped = 2) :
    exec .vaux12Loss s
      = .next { standbyLost s with regs := (standbyLost s).regs.filter fun p => p.1 ≠ pA THM_TRIP } :=
  congrArg _ (if_neg (by rcases h with h | h <;> simp [h]))

theorem standbyAndRecordsAreKept : Clauses.StandbyAndRecordsAreKept := by
  intro req s
  refine ⟨fun mv cap hrun => ?_, fun mv cap hstop => ⟨_, exec_holdcapMeasure_stopped hstop mv cap, holdcapFalls_keeps s mv⟩,
    fun h => ⟨_, exec_shutControlClear h, shutClear_clears (Claims.heard s req)⟩,
    fun v h hv => ⟨_, exec_evtTailWrite h hv, ?_⟩,
    fun hidle => ⟨_, exec_vaux12Loss_idle hidle, rfl, rfl, rfl, rfl, rfl, ?_, rfl, ?_⟩,
    exec_vaux12Loss_running⟩
  · obtain ⟨hmv, hcap⟩ := holdcap_measures s mv cap
    obtain ⟨harmed, hweak⟩ := holdcap_arms s mv cap
    exact ⟨_, exec_holdcapMeasure_running hrun mv cap, hmv, hcap, harmed, hweak, rfl⟩
  · exact evtTail_moves (Claims.heard s req) (toNat_lt_of_high_clear (k := 17) hv)
  · rw [reg_erased, if_pos rfl, regDefault_thmTrip]
  · intro a ha
    rw [reg_erased, if_neg ha]
    rfl

/-! ### The statement -/

/-- Settles O60, from what a transfer on the bus comes to, and what HOLDCAP, the records and the standby domain keep. -/
theorem theBusAndStandbyAnswer : Obligations.TheBusAndStandbyAnswer :=
  ⟨theBusAnswersWithoutEffect, standbyAndRecordsAreKept⟩

end Sys2Proof.Machine
end
